-- ==== Sys2Proof/Word.lean ====
section
/-! DEFINITION. Words and their plainest arithmetic: the token and register word is 64 bits,
an instruction word 32 bits, and fields of a word are read as natural numbers. -/

namespace Sys2Proof

/-- A token, register or control-register value (R269). -/
abbrev Word := BitVec 64

/-- A byte of memory. -/
abbrev Byte := BitVec 8

/-- The bits of `w` from bit `lo` upward, `n` of them, as a number. -/
def fld (w lo n : Nat) : Nat := w / 2 ^ lo % 2 ^ n

/-- Bit `k` of `w`. -/
def bitOf (w k : Nat) : Bool := w / 2 ^ k % 2 == 1

end Sys2Proof
end

