-- ==== Sys2Proof/Syntax.lean ====
section
/-! DEFINITION. The syntax of the VCH-8A: operand types and `Instr`, one constructor per row of the
opcode table: 197 instruction words and 79 events of agents that act on their own (spec/13, R280;
spec/95). An event names what it concerns by plain numbers: keys of slots, cores, dies and modules
(`Sys2Proof.Machine.Ops`) and the numbers of messages, copies and walks held in the state. -/

namespace Sys2Proof

/-- PM of R267: when an instruction fires. -/
inductive Pred where
  | always | onTrue | onFalse
  deriving DecidableEq, Repr, Inhabited

/-- SLOT of a target field other than none (R268). -/
inductive Side where
  | left | right | third
  deriving DecidableEq, Repr, Inhabited

/-- A target field (R268): none, or one operand slot of one consumer. -/
inductive Tgt where
  | none
  | to (side : Side) (index : BitVec 5)
  deriving DecidableEq, Repr, Inhabited

/-- I8[7] of the W instructions (R291) and W32 of the atomics (R285). -/
inductive Width where
  | w64 | w32
  deriving DecidableEq, Repr, Inhabited

/-- I8[7] of the floating instructions (R312): the format F. -/
inductive FForm where
  | e11m52 | e8m23
  deriving DecidableEq, Repr, Inhabited

/-- Rounding modes (R226). -/
inductive Rounding where
  | rne | rz | ru | rd
  deriving DecidableEq, Repr, Inhabited

/-- I8[2:0] of the floating instructions (R226, R312): a mode, or FPC.RM. -/
inductive FMode where
  | fixed (m : Rounding)
  | fpc
  deriving DecidableEq, Repr, Inhabited

/-- Conditions of CMP (R286). -/
inductive Cond where
  | eq | ne | lt | le | ltu | leu
  deriving DecidableEq, Repr, Inhabited

/-- Conditions of FCMP (R287). -/
inductive FCond where
  | eq | lt | le | un | ne
  deriving DecidableEq, Repr, Inhabited

/-- Modes of TEST (R286, R298). -/
inductive TestMode where
  | nz | z | neg
  | bit (k : BitVec 6)
  deriving DecidableEq, Repr, Inhabited

/-- Sign operations of FSGN (R314). -/
inductive SgnOp where
  | copy | neg | xor
  deriving DecidableEq, Repr, Inhabited

/-- Integer types of FTOI and ITOF (R317). -/
inductive IntTy where
  | s64 | u64 | s32 | u32
  deriving DecidableEq, Repr, Inhabited

/-- Partner formats of FCVT (R316). `other` is the other of E11M52 and E8M23. -/
inductive Partner where
  | other | e8m10 | e5m10 | e8m7 | e4m3 | e5m2 | e3m2 | e2m3
  deriving DecidableEq, Repr, Inhabited

/-- Partner formats of VCVT2 (R319). -/
inductive VPartner where
  | e5m10 | e8m7 | e4m3 | e5m2 | e3m2 | e2m3 | e2m1
  deriving DecidableEq, Repr, Inhabited

/-- Field lengths of INS (R305). -/
inductive InsLen where
  | bit | byte | half | word
  deriving DecidableEq, Repr, Inhabited

/-- Modes of the packed instructions (R311). -/
inductive PMode where
  | wrap | signedSat | unsignedSat
  deriving DecidableEq, Repr, Inhabited

/-- Lane widths of the packed instructions (R311). -/
inductive Lanes where
  | l8 | l16 | l32
  deriving DecidableEq, Repr, Inhabited

/-- Scope codes 0 to 11 (R3). -/
inductive Scope where
  | slot | core | clus | die | mod | tier | grp | fab | host | hood | zone | eng
  deriving DecidableEq, Repr, Inhabited

/-- Modes of ELEM (R349). -/
inductive ElemMode where
  | home | local | colour | stall | handle
  deriving DecidableEq, Repr, Inhabited

/-- Modes of RANK (R360). -/
inductive RankMode where
  | rank | size | index
  deriving DecidableEq, Repr, Inhabited

/-- Types of COLL (R361). -/
inductive CollTy where
  | e11m52 | e8m23 | s64 | s32
  deriving DecidableEq, Repr, Inhabited

/-- Operations of COLL (R361). -/
inductive CollOp where
  | add | min | max
  deriving DecidableEq, Repr, Inhabited

/-- How ACCRD reads an accumulator (R369). -/
inductive AccKind where
  | e8m23 | pair | s32
  deriving DecidableEq, Repr, Inhabited

/-- RMEN and RM of the MOD field (R246). -/
inductive MatMode where
  | rneDefault (rm : Rounding)
  | enabled (rm : Rounding)
  deriving DecidableEq, Repr, Inhabited

/-- Operations of TRED (R372). -/
inductive RedOp where
  | sum | max | min
  deriving DecidableEq, Repr, Inhabited

/-- Every instruction and every event of the opcode table (R280; spec/95). -/
inductive Instr where
  /-- GET, OP 0x01, format G (R294). Sends the value a general register held when the instance started, or traps if it is poisoned. -/
  | get (p : Pred) (t : Tgt) (u : Tgt) (r : BitVec 6)
  /-- PUT, OP 0x02, format G (R295). Resolves and delivers its left operand to a general register at commit. -/
  | put (p : Pred) (r : BitVec 6)
  /-- CONST, OP 0x03, format B (R296). Sends the zero-extended 15-bit immediate. -/
  | const (p : Pred) (t : Tgt) (k : BitVec 15)
  /-- CONSTH, OP 0x04, format B (R296). Sends left shifted by 15 plus the 15-bit immediate. -/
  | consth (p : Pred) (t : Tgt) (k : BitVec 15)
  /-- MOV, OP 0x05, format A (R297). Sends its left operand to both targets. -/
  | mov (p : Pred) (t : Tgt) (u : Tgt)
  /-- NULL, OP 0x06, format A (R297). Sends NULL to both targets. -/
  | null (p : Pred) (t : Tgt) (u : Tgt)
  /-- TEST, OP 0x07, format A (R298). Sends 1 or 0 from a zero, sign or bit test of all 64 bits of left. -/
  | test (p : Pred) (t : Tgt) (u : Tgt) (m : TestMode)
  /-- BR, OP 0x08, format X (R299). Exit that selects the next block at a signed word offset from this block. -/
  | br (p : Pred) (e : BitVec 6) (s : BitVec 16)
  /-- BRR, OP 0x09, format A (R299). Exit that selects the next block at the left operand address. -/
  | brr (p : Pred) (e : BitVec 6)
  /-- CALL, OP 0x0A, format X (R299). Exit that writes the link to g63 and branches by offset. -/
  | call (p : Pred) (e : BitVec 6) (s : BitVec 16)
  /-- CALLR, OP 0x0B, format A (R299). Exit that writes the link to g63 and branches to the left operand address. -/
  | callr (p : Pred) (e : BitVec 6)
  /-- DONE, OP 0x0C, format X (R299). Exit that ends the thread or task at commit. -/
  | done (p : Pred) (e : BitVec 6)
  /-- TRAP, OP 0x0D, format A (R300). Exit that commits the instance and then raises SOFTWARE with the left operand in TRAP.ADDR. -/
  | trap (p : Pred) (c : BitVec 8)
  /-- ADD, OP 0x10, format A (R301). Integer add, 64- or 32-bit. -/
  | add (p : Pred) (t : Tgt) (u : Tgt) (w : Width)
  /-- SUB, OP 0x11, format A (R301). Integer subtract. -/
  | sub (p : Pred) (t : Tgt) (u : Tgt) (w : Width)
  /-- ADDI, OP 0x12, format A (R301). Adds a sign-extended 8-bit immediate. -/
  | addi (p : Pred) (t : Tgt) (u : Tgt) (i : BitVec 8)
  /-- MUL, OP 0x13, format A (R301). Low half of the integer product. -/
  | mul (p : Pred) (t : Tgt) (u : Tgt) (w : Width)
  /-- MULH, OP 0x14, format A (R301). High half of the signed product. -/
  | mulh (p : Pred) (t : Tgt) (u : Tgt) (w : Width)
  /-- MULHU, OP 0x15, format A (R301). High half of the unsigned product. -/
  | mulhu (p : Pred) (t : Tgt) (u : Tgt) (w : Width)
  /-- DIV, OP 0x16, format A (R301). Signed truncating division with the R230 edge cases. -/
  | div (p : Pred) (t : Tgt) (u : Tgt) (w : Width)
  /-- DIVU, OP 0x17, format A (R301). Unsigned truncating division. -/
  | divu (p : Pred) (t : Tgt) (u : Tgt) (w : Width)
  /-- REM, OP 0x18, format A (R301). Signed remainder. -/
  | rem (p : Pred) (t : Tgt) (u : Tgt) (w : Width)
  /-- REMU, OP 0x19, format A (R301). Unsigned remainder. -/
  | remu (p : Pred) (t : Tgt) (u : Tgt) (w : Width)
  /-- AND, OP 0x1A, format A (R301). Bitwise AND. -/
  | and (p : Pred) (t : Tgt) (u : Tgt) (w : Width)
  /-- OR, OP 0x1B, format A (R301). Bitwise OR. -/
  | or (p : Pred) (t : Tgt) (u : Tgt) (w : Width)
  /-- XOR, OP 0x1C, format A (R301). Bitwise XOR. -/
  | xor (p : Pred) (t : Tgt) (u : Tgt) (w : Width)
  /-- ANDN, OP 0x1D, format A (R301). Left AND NOT right. -/
  | andn (p : Pred) (t : Tgt) (u : Tgt) (w : Width)
  /-- LUT3, OP 0x1E, format A (R302). Bitwise three-input truth table given by I8. -/
  | lut3 (t : Tgt) (u : Tgt) (i : BitVec 8)
  /-- ORN, OP 0x1F, format A (R301). Left OR NOT right. -/
  | orn (p : Pred) (t : Tgt) (u : Tgt) (w : Width)
  /-- SHL, OP 0x20, format A (R301). Shift left by right modulo the width. -/
  | shl (p : Pred) (t : Tgt) (u : Tgt) (w : Width)
  /-- SHR, OP 0x21, format A (R301). Logical shift right. -/
  | shr (p : Pred) (t : Tgt) (u : Tgt) (w : Width)
  /-- SAR, OP 0x22, format A (R301). Arithmetic shift right. -/
  | sar (p : Pred) (t : Tgt) (u : Tgt) (w : Width)
  /-- SHLI, OP 0x23, format A (R301). Shift left by an immediate amount. -/
  | shli (p : Pred) (t : Tgt) (u : Tgt) (w : Width) (n : BitVec 6)
  /-- SHRI, OP 0x24, format A (R301). Logical shift right by an immediate amount. -/
  | shri (p : Pred) (t : Tgt) (u : Tgt) (w : Width) (n : BitVec 6)
  /-- SARI, OP 0x25, format A (R301). Arithmetic shift right by an immediate amount. -/
  | sari (p : Pred) (t : Tgt) (u : Tgt) (w : Width) (n : BitVec 6)
  /-- FSHL, OP 0x26, format A (R303). Funnel shift left of left:right by the third operand. -/
  | fshl (t : Tgt) (u : Tgt) (w : Width)
  /-- FSHR, OP 0x27, format A (R303). Funnel shift right of left:right by the third operand. -/
  | fshr (t : Tgt) (u : Tgt) (w : Width)
  /-- ROL, OP 0x28, format A (R301). Rotate left. -/
  | rol (p : Pred) (t : Tgt) (u : Tgt) (w : Width)
  /-- CLZ, OP 0x29, format A (R301). Count leading zeros. -/
  | clz (p : Pred) (t : Tgt) (u : Tgt) (w : Width)
  /-- CTZ, OP 0x2A, format A (R301). Count trailing zeros. -/
  | ctz (p : Pred) (t : Tgt) (u : Tgt) (w : Width)
  /-- POPC, OP 0x2B, format A (R301). Population count. -/
  | popc (p : Pred) (t : Tgt) (u : Tgt) (w : Width)
  /-- BREV, OP 0x2C, format A (R301). Bit reversal. -/
  | brev (p : Pred) (t : Tgt) (u : Tgt) (w : Width)
  /-- BSWAP, OP 0x2D, format A (R301). Byte reversal. -/
  | bswap (p : Pred) (t : Tgt) (u : Tgt) (w : Width)
  /-- EXT, OP 0x2E, format A (R304). Extracts a field at a token-supplied position, signed or unsigned. -/
  | ext (p : Pred) (t : Tgt) (u : Tgt) (signed : Bool) (n : BitVec 6)
  /-- INS, OP 0x2F, format A (R305). Inserts the low bits of right into a field of left. -/
  | ins (p : Pred) (t : Tgt) (u : Tgt) (l : InsLen) (n : BitVec 6)
  /-- MIN, OP 0x30, format A (R301). Signed minimum. -/
  | min (p : Pred) (t : Tgt) (u : Tgt) (w : Width)
  /-- MAX, OP 0x31, format A (R301). Signed maximum. -/
  | max (p : Pred) (t : Tgt) (u : Tgt) (w : Width)
  /-- MINU, OP 0x32, format A (R301). Unsigned minimum. -/
  | minu (p : Pred) (t : Tgt) (u : Tgt) (w : Width)
  /-- MAXU, OP 0x33, format A (R301). Unsigned maximum. -/
  | maxu (p : Pred) (t : Tgt) (u : Tgt) (w : Width)
  /-- CMP, OP 0x34, format A (R286). Integer comparison sending 1 or 0. -/
  | cmp (p : Pred) (t : Tgt) (u : Tgt) (w : Width) (c : Cond)
  /-- SEL, OP 0x35, format A (R307). Selects left or right by the third operand. -/
  | sel (t : Tgt) (u : Tgt)
  /-- SEXT, OP 0x36, format A (R306). Sign-extends a field of given width. -/
  | sext (p : Pred) (t : Tgt) (u : Tgt) (n : BitVec 6)
  /-- ZEXT, OP 0x37, format A (R306). Zero-extends a field of given width. -/
  | zext (p : Pred) (t : Tgt) (u : Tgt) (n : BitVec 6)
  /-- LEA, OP 0x38, format A (R301). Left plus right shifted by an immediate. -/
  | lea (p : Pred) (t : Tgt) (u : Tgt) (w : Width) (n : BitVec 6)
  /-- CELL, OP 0x39, format A (R309). Forms an interleaved cell key from three E8M23 coordinates. -/
  | cell (t : Tgt) (u : Tgt)
  /-- HASHA, OP 0x3A, format A (R310). Hashes a key and masks it to a table size. -/
  | hasha (p : Pred) (t : Tgt) (u : Tgt)
  /-- ABSD, OP 0x3B, format A (R301). Absolute signed difference. -/
  | absd (p : Pred) (t : Tgt) (u : Tgt) (w : Width)
  /-- PADD, OP 0x3C, format A (R311). Packed lane add with wrap or saturation. -/
  | padd (p : Pred) (t : Tgt) (u : Tgt) (m : PMode) (l : Lanes)
  /-- PSUB, OP 0x3D, format A (R311). Packed lane subtract. -/
  | psub (p : Pred) (t : Tgt) (u : Tgt) (m : PMode) (l : Lanes)
  /-- PMUL, OP 0x3E, format A (R311). Packed lane multiply. -/
  | pmul (p : Pred) (t : Tgt) (u : Tgt) (m : PMode) (l : Lanes)
  /-- PMAX, OP 0x3F, format A (R311). Packed lane maximum, signed or unsigned. -/
  | pmax (p : Pred) (t : Tgt) (u : Tgt) (unsigned : Bool) (l : Lanes)
  /-- FADD, OP 0x40, format A (R314). Floating add rounded once. -/
  | fadd (p : Pred) (t : Tgt) (u : Tgt) (f : FForm) (r : FMode)
  /-- FSUB, OP 0x41, format A (R314). Floating subtract. -/
  | fsub (p : Pred) (t : Tgt) (u : Tgt) (f : FForm) (r : FMode)
  /-- FMUL, OP 0x42, format A (R314). Floating multiply. -/
  | fmul (p : Pred) (t : Tgt) (u : Tgt) (f : FForm) (r : FMode)
  /-- FFMA, OP 0x43, format A (R314). Fused multiply-add with one rounding. -/
  | ffma (t : Tgt) (u : Tgt) (f : FForm) (r : FMode)
  /-- FMIN, OP 0x44, format A (R314). Floating minimum. -/
  | fmin (p : Pred) (t : Tgt) (u : Tgt) (f : FForm)
  /-- FMAX, OP 0x45, format A (R314). Floating maximum. -/
  | fmax (p : Pred) (t : Tgt) (u : Tgt) (f : FForm)
  /-- FSGN, OP 0x46, format A (R314). Replaces the sign of left by copy, negation or XOR of right's sign. -/
  | fsgn (p : Pred) (t : Tgt) (u : Tgt) (f : FForm) (o : SgnOp)
  /-- FCMP, OP 0x47, format A (R287). Floating comparison sending 1 or 0. -/
  | fcmp (p : Pred) (t : Tgt) (u : Tgt) (f : FForm) (c : FCond)
  /-- FCVT, OP 0x48, format A (R316). Converts between F and a partner format. -/
  | fcvt (p : Pred) (t : Tgt) (u : Tgt) (f : FForm) (fromP : Bool) (q : Partner) (r : FMode)
  /-- FRND, OP 0x49, format A (R314). Rounds to an integer in the floating format. -/
  | frnd (p : Pred) (t : Tgt) (u : Tgt) (f : FForm) (r : FMode)
  /-- FTOI, OP 0x4A, format A (R317). Converts floating to a selected integer type. -/
  | ftoi (p : Pred) (t : Tgt) (u : Tgt) (f : FForm) (y : IntTy) (r : FMode)
  /-- ITOF, OP 0x4B, format A (R317). Converts an integer type to floating. -/
  | itof (p : Pred) (t : Tgt) (u : Tgt) (f : FForm) (y : IntTy) (r : FMode)
  /-- FCLASS, OP 0x4C, format A (R315). Sends a one-hot class mask of left. -/
  | fclass (p : Pred) (t : Tgt) (u : Tgt) (f : FForm)
  /-- FSCALE, OP 0x4D, format A (R314). Multiplies by a power of two given by right. -/
  | fscale (p : Pred) (t : Tgt) (u : Tgt) (f : FForm) (r : FMode)
  /-- FRCP, OP 0x4E, format A (R231). Table-based reciprocal seed. -/
  | frcp (p : Pred) (t : Tgt) (u : Tgt) (f : FForm) (r : FMode)
  /-- FRSQ, OP 0x4F, format A (R231). Table-based reciprocal square-root seed. -/
  | frsq (p : Pred) (t : Tgt) (u : Tgt) (f : FForm) (r : FMode)
  /-- FEXP2S, OP 0x50, format A (R231). Table-based base-2 exponential seed. -/
  | fexp2s (p : Pred) (t : Tgt) (u : Tgt) (f : FForm) (r : FMode)
  /-- FLOG2S, OP 0x51, format A (R231). Table-based base-2 logarithm seed. -/
  | flog2s (p : Pred) (t : Tgt) (u : Tgt) (f : FForm) (r : FMode)
  /-- VADD2, OP 0x52, format A (R318). Two-lane E8M23 add. -/
  | vadd2 (p : Pred) (t : Tgt) (u : Tgt) (r : FMode)
  /-- VSUB2, OP 0x53, format A (R318). Two-lane E8M23 subtract. -/
  | vsub2 (p : Pred) (t : Tgt) (u : Tgt) (r : FMode)
  /-- VMUL2, OP 0x54, format A (R318). Two-lane E8M23 multiply. -/
  | vmul2 (p : Pred) (t : Tgt) (u : Tgt) (r : FMode)
  /-- VFMA2, OP 0x55, format A (R318). Two-lane E8M23 fused multiply-add. -/
  | vfma2 (t : Tgt) (u : Tgt) (r : FMode)
  /-- VDOT2, OP 0x56, format A (R318). Two-lane dot product rounded once into lane 0. -/
  | vdot2 (p : Pred) (t : Tgt) (u : Tgt) (r : FMode)
  /-- VCVT2, OP 0x57, format A (R319). Converts two elements between lanes and a packed narrow format. -/
  | vcvt2 (p : Pred) (t : Tgt) (u : Tgt) (fromP : Bool) (q : VPartner) (r : FMode)
  /-- LD8, OP 0x60, format M (R321). In-block load of a byte, sign-extended. -/
  | ld8 (p : Pred) (t : Tgt) (l : BitVec 5) (rlx : Bool) (o : BitVec 8)
  /-- LD8U, OP 0x61, format M (R321). In-block load of a byte, zero-extended. -/
  | ld8u (p : Pred) (t : Tgt) (l : BitVec 5) (rlx : Bool) (o : BitVec 8)
  /-- LD16, OP 0x62, format M (R321). In-block load of 16 bits, sign-extended. -/
  | ld16 (p : Pred) (t : Tgt) (l : BitVec 5) (rlx : Bool) (o : BitVec 8)
  /-- LD16U, OP 0x63, format M (R321). In-block load of 16 bits, zero-extended. -/
  | ld16u (p : Pred) (t : Tgt) (l : BitVec 5) (rlx : Bool) (o : BitVec 8)
  /-- LD32, OP 0x64, format M (R321). In-block load of 32 bits, sign-extended. -/
  | ld32 (p : Pred) (t : Tgt) (l : BitVec 5) (rlx : Bool) (o : BitVec 8)
  /-- LD32U, OP 0x65, format M (R321). In-block load of 32 bits, zero-extended. -/
  | ld32u (p : Pred) (t : Tgt) (l : BitVec 5) (rlx : Bool) (o : BitVec 8)
  /-- LD64, OP 0x66, format M (R321). In-block load of 64 bits. -/
  | ld64 (p : Pred) (t : Tgt) (l : BitVec 5) (rlx : Bool) (o : BitVec 8)
  /-- LD128, OP 0x67, format M (R322). In-block 16-byte load sending its halves to two consecutive consumers. -/
  | ld128 (p : Pred) (t : Tgt) (l : BitVec 5) (rlx : Bool) (o : BitVec 8)
  /-- ST8, OP 0x68, format M (R321). Commit-time store of a byte. -/
  | st8 (p : Pred) (l : BitVec 5) (rlx : Bool) (o : BitVec 8)
  /-- ST16, OP 0x69, format M (R321). Commit-time store of 16 bits. -/
  | st16 (p : Pred) (l : BitVec 5) (rlx : Bool) (o : BitVec 8)
  /-- ST32, OP 0x6A, format M (R321). Commit-time store of 32 bits. -/
  | st32 (p : Pred) (l : BitVec 5) (rlx : Bool) (o : BitVec 8)
  /-- ST64, OP 0x6B, format M (R321). Commit-time store of 64 bits. -/
  | st64 (p : Pred) (l : BitVec 5) (rlx : Bool) (o : BitVec 8)
  /-- ST128, OP 0x6C, format M (R321). Commit-time store of 16 bytes from right and third. -/
  | st128 (l : BitVec 5) (rlx : Bool) (o : BitVec 8)
  /-- LDSYNC, OP 0x6D, format M (R323). Holding load granted only on a full word, which it sets empty at commit. -/
  | ldsync (p : Pred) (t : Tgt) (l : BitVec 5) (o : BitVec 8)
  /-- STSYNC, OP 0x6E, format M (R323). Holding store granted only on an empty word, which it writes and sets full at commit. -/
  | stsync (p : Pred) (l : BitVec 5) (o : BitVec 8)
  /-- LDFF, OP 0x6F, format M (R323). In-block load that performs when the word is full. -/
  | ldff (p : Pred) (t : Tgt) (l : BitVec 5) (o : BitVec 8)
  /-- STFF, OP 0x70, format M (R323). Commit-time store that sets the word full. -/
  | stff (p : Pred) (l : BitVec 5) (o : BitVec 8)
  /-- SETE, OP 0x71, format M (R323). Commit-time operation that sets the word empty. -/
  | sete (p : Pred) (l : BitVec 5) (o : BitVec 8)
  /-- FESTAT, OP 0x72, format M (R110). In-block read of the full/empty, hold, poison and waiter state, never waiting. -/
  | festat (p : Pred) (t : Tgt) (l : BitVec 5) (o : BitVec 8)
  /-- FENCE, OP 0x73, format M (R75). Orders covered accesses of the slot at the named scope. -/
  | fence (p : Pred) (l : BitVec 5) (sc : Scope)
  /-- AMADD, OP 0x74, format M (R104). Commit-time integer add at the point of coherence, optionally returning the old value. -/
  | amadd (p : Pred) (t : Tgt) (l : BitVec 5) (rlx : Bool) (w : Width) (n : BitVec 6)
  /-- RSV, OP 0x75, format M (R325). Holding operation that reserves the word and sends its value. -/
  | rsv (p : Pred) (t : Tgt) (l : BitVec 5) (w : Width) (n : BitVec 6)
  /-- REL, OP 0x76, format M (R325). Commit-time release of a reservation with a value. -/
  | rel (p : Pred) (l : BitVec 5) (w : Width) (n : BitVec 6)
  /-- RELN, OP 0x77, format M (R325). Commit-time release of a reservation unchanged. -/
  | reln (p : Pred) (l : BitVec 5) (w : Width) (n : BitVec 6)
  /-- CAS, OP 0x78, format M (R103). Holding compare-and-swap. -/
  | cas (t : Tgt) (l : BitVec 5) (w : Width) (n : BitVec 6)
  /-- SWAP, OP 0x79, format M (R103). Holding swap. -/
  | swap (p : Pred) (t : Tgt) (l : BitVec 5) (w : Width) (n : BitVec 6)
  /-- AMIN, OP 0x7A, format M (R103). Holding atomic minimum. -/
  | amin (p : Pred) (t : Tgt) (l : BitVec 5) (w : Width) (unsigned : Bool) (n : BitVec 6)
  /-- AMAX, OP 0x7B, format M (R103). Holding atomic maximum. -/
  | amax (p : Pred) (t : Tgt) (l : BitVec 5) (w : Width) (unsigned : Bool) (n : BitVec 6)
  /-- MWAIT, OP 0x7C, format M (R330). In-block wait until a word is at least the right operand. -/
  | mwait (p : Pred) (t : Tgt) (l : BitVec 5) (o : BitVec 8)
  /-- BARJ, OP 0x7D, format M (R113). Commit-time join of a barrier object. -/
  | barj (p : Pred) (l : BitVec 5) (o : BitVec 8)
  /-- BARA, OP 0x7E, format M (R113). Commit-time arrival at a barrier object. -/
  | bara (p : Pred) (l : BitVec 5) (o : BitVec 8)
  /-- BARW, OP 0x7F, format M (R115). In-block wait for a barrier generation to pass. -/
  | barw (p : Pred) (t : Tgt) (l : BitVec 5) (o : BitVec 8)
  /-- BARX, OP 0x80, format M (R335). Commit-time leave of a barrier object. -/
  | barx (p : Pred) (l : BitVec 5) (o : BitVec 8)
  /-- PHASE, OP 0x81, format M (R121). Commit-time arrival on the phase tree of a level. -/
  | phase (p : Pred) (l : BitVec 5) (v : BitVec 3)
  /-- TLWAIT, OP 0x82, format A (R141). Waits until a timeline counter reaches n and sends it. -/
  | tlwait (p : Pred) (t : Tgt) (u : Tgt) (c : BitVec 3)
  /-- TLRD, OP 0x83, format A (R336). Reads a timeline counter or issue count. -/
  | tlrd (p : Pred) (t : Tgt) (u : Tgt) (issue : Bool) (c : BitVec 3)
  /-- MBXW, OP 0x84, format A (R338). Submits a taken mailbox's request to an edge engine at commit. -/
  | mbxw (p : Pred) (t : Tgt) (u : Tgt)
  /-- MBXR, OP 0x85, format A (R337). Waits for and takes the oldest full mailbox. -/
  | mbxr (p : Pred) (t : Tgt) (u : Tgt)
  /-- CPY, OP 0x86, format M (R124). Copy request between strided regions, handed off at commit. -/
  | cpy (p : Pred) (l : BitVec 5) (reuse : Bool) (c : BitVec 3)
  /-- CPYX, OP 0x87, format M (R124). Indexed gather or scatter copy request. -/
  | cpyx (p : Pred) (l : BitVec 5) (reuse : Bool) (c : BitVec 3)
  /-- CPYT, OP 0x88, format M (R124). Copy request into a tile register. -/
  | cpyt (p : Pred) (l : BitVec 5) (reuse : Bool) (c : BitVec 3)
  /-- CPYS, OP 0x89, format M (R124). Copy request into scale memory. -/
  | cpys (p : Pred) (l : BitVec 5) (reuse : Bool) (c : BitVec 3)
  /-- LZRSV, OP 0x8A, format M (R150). Sends a landing-zone slot reservation and waits for the grant token. -/
  | lzrsv (p : Pred) (t : Tgt) (l : BitVec 5)
  /-- LZSEND, OP 0x8B, format M (R153). Landing send request numbered on TL7, handed off at commit. -/
  | lzsend (p : Pred) (l : BitVec 5) (reuse : Bool)
  /-- LZARM, OP 0x8C, format M (R150). Adds a byte count to a zone's arrival barrier at commit. -/
  | lzarm (p : Pred) (l : BitVec 5) (z : BitVec 2)
  /-- LZFREE, OP 0x8D, format M (R150). Presents a slot free to the service slot at commit. -/
  | lzfree (p : Pred) (l : BitVec 5) (z : BitVec 2) (s : BitVec 4)
  /-- QPOP, OP 0x8E, format A (R340). Pops an item from a work queue, waiting for refill if due. -/
  | qpop (p : Pred) (t : Tgt) (u : Tgt)
  /-- QPUSH, OP 0x8F, format A (R340). Pushes an item onto a work queue at commit if room. -/
  | qpush (p : Pred) (t : Tgt) (u : Tgt)
  /-- POST, OP 0x90, format A (R345). Reserves a run-list entry and posts an eligible task at commit. -/
  | post (p : Pred) (t : Tgt) (u : Tgt) (y : BitVec 2)
  /-- POSTC, OP 0x91, format A (R345). Posts a task with a dependence count. -/
  | postc (p : Pred) (t : Tgt) (u : Tgt) (c : BitVec 8)
  /-- DEC, OP 0x92, format A (R346). Decrements a task's dependence count at commit. -/
  | dec (p : Pred) (t : Tgt) (u : Tgt)
  /-- SPAWN, OP 0x93, format A (R190). Starts a child thread in a free program slot at commit. -/
  | spawn (p : Pred) (t : Tgt) (u : Tgt)
  /-- JOIN, OP 0x94, format A (R347). Waits until every spawned child has ended. -/
  | join (p : Pred) (t : Tgt) (u : Tgt)
  /-- MIGR, OP 0x95, format A (R191). Moves the thread to another core of the launch at commit. -/
  | migr (p : Pred) (t : Tgt) (u : Tgt)
  /-- ELEM, OP 0x96, format A (R349). Reads home, local index, colour, stall word or handle of an element. -/
  | elem (p : Pred) (t : Tgt) (u : Tgt) (m : ElemMode)
  /-- NBR, OP 0x97, format A (R349). Reads the k-th neighbour of an element. -/
  | nbr (p : Pred) (t : Tgt) (u : Tgt)
  /-- NBRN, OP 0x98, format A (R349). Reads an element's degree. -/
  | nbrn (p : Pred) (t : Tgt) (u : Tgt)
  /-- REPOST, OP 0x99, format A (R350). Exit that ends the task run and reposts it with a fresh age. -/
  | repost (p : Pred) (e : BitVec 6)
  /-- TRETRY, OP 0x9A, format A (R353). Makes a quarantined or held task eligible again at commit. -/
  | tretry (p : Pred) (t : Tgt) (u : Tgt)
  /-- TDROP, OP 0x9B, format A (R353). Frees a quarantined or held task's entry at commit. -/
  | tdrop (p : Pred) (t : Tgt) (u : Tgt)
  /-- PRIO, OP 0x9C, format A (R353). Sets a task entry's priority at commit. -/
  | prio (p : Pred) (t : Tgt) (u : Tgt) (y : BitVec 2)
  /-- COLOUR_CUR, OP 0x9D, format A (R351). Sends the current colour phase. -/
  | colourCur (p : Pred) (t : Tgt) (u : Tgt)
  /-- COLOUR_SET, OP 0x9D, format A (R351). Writes an element's colour byte at commit. -/
  | colourSet (p : Pred) (t : Tgt) (u : Tgt)
  /-- DEADL, OP 0x9E, format A (R352). Writes DEADLINE at commit. -/
  | deadl (p : Pred) (t : Tgt) (u : Tgt) (keep : Bool)
  /-- TLD, OP 0xA0, format Q (R365). Loads tile rows from the pail. -/
  | tld (p : Pred) (t : Tgt) (d : BitVec 3)
  /-- TST, OP 0xA1, format Q (R365). Stores tile rows to the pail at commit. -/
  | tst (p : Pred) (t : Tgt) (a : BitVec 3)
  /-- TZERO, OP 0xA2, format Q (R366). Zeroes a tile. -/
  | tzero (p : Pred) (t : Tgt) (d : BitVec 3)
  /-- TTRN, OP 0xA3, format Q (R367). Transposes one tile into another. -/
  | ttrn (p : Pred) (t : Tgt) (d : BitVec 3) (a : BitVec 3)
  /-- MMA, OP 0xA4, format Q (R368). Matrix multiply-accumulate into an accumulator. -/
  | mma (p : Pred) (t : Tgt) (d : BitVec 3) (a : BitVec 3) (b : BitVec 3) (m : BitVec 6)
  /-- MMAS, OP 0xA5, format Q (R368). Matrix multiply into zeroed covered accumulator elements. -/
  | mmas (p : Pred) (t : Tgt) (d : BitVec 3) (a : BitVec 3) (b : BitVec 3) (m : BitVec 6)
  /-- MMAK, OP 0xA6, format Q (R368). Codebook-weight matrix multiply-accumulate. -/
  | mmak (p : Pred) (t : Tgt) (d : BitVec 3) (a : BitVec 3) (b : BitVec 3) (m : BitVec 6)
  /-- ACCRD, OP 0xA7, format Q (R369). Converts an accumulator into a tile. -/
  | accrd (p : Pred) (t : Tgt) (d : BitVec 3) (a : BitVec 3) (b : AccKind) (m : MatMode)
  /-- ACCZ, OP 0xA8, format Q (R366). Zeroes an accumulator or pair. -/
  | accz (p : Pred) (t : Tgt) (d : BitVec 3) (pair : Bool)
  /-- ACCLD, OP 0xA9, format Q (R365). Loads an accumulator from the pail. -/
  | accld (p : Pred) (t : Tgt) (d : BitVec 3) (pair : Bool)
  /-- TDEQ, OP 0xAA, format Q (R370). Dequantises tile elements into another tile. -/
  | tdeq (p : Pred) (t : Tgt) (d : BitVec 3) (a : BitVec 3) (b : BitVec 3) (m : BitVec 6)
  /-- TOPK, OP 0xAB, format Q (R371). Writes the indices of the k best elements of each row. -/
  | topk (p : Pred) (t : Tgt) (d : BitVec 3) (a : BitVec 3) (mag : Bool) (c : BitVec 3)
  /-- TRED, OP 0xAC, format Q (R372). Reduces each tile row into an accumulator column. -/
  | tred (p : Pred) (t : Tgt) (d : BitVec 3) (a : BitVec 3) (o : RedOp) (acc : Bool) (c : BitVec 3)
  /-- SCLD, OP 0xAD, format Q (R373). Copies pail bytes into scale memory. -/
  | scld (p : Pred) (t : Tgt)
  /-- SCST, OP 0xAE, format Q (R373). Copies scale memory out to the pail. -/
  | scst (p : Pred) (t : Tgt)
  /-- GLD, OP 0xB0, format Q (R375). Loads a mailbox record's current or previous message into an s-register. -/
  | gld (p : Pred) (t : Tgt) (d : BitVec 2) (prev : Bool)
  /-- GST, OP 0xB1, format Q (R375). Shifts and writes an s-register into a record at commit. -/
  | gst (p : Pred) (t : Tgt) (a : BitVec 2)
  /-- GACC, OP 0xB2, format Q (R249). Adds one s-register into another. -/
  | gacc (p : Pred) (t : Tgt) (d : BitVec 2) (a : BitVec 2)
  /-- GELIM, OP 0xB3, format Q (R250). Eliminates variables down to m. -/
  | gelim (p : Pred) (t : Tgt) (d : BitVec 2) (m : BitVec 3)
  /-- GDAMP, OP 0xB4, format Q (R252). Damps an s-register against the record's previous message. -/
  | gdamp (p : Pred) (t : Tgt) (d : BitVec 2) (fromReg : Bool)
  /-- GSOLVE, OP 0xB5, format Q (R376). Replaces η by the solved mean. -/
  | gsolve (p : Pred) (t : Tgt) (d : BitVec 2)
  /-- GCHK, OP 0xB6, format Q (R377). Sends the largest change of η between current and previous. -/
  | gchk (p : Pred) (t : Tgt)
  /-- GSHIFT, OP 0xB7, format Q (R375). Copies current to previous and advances STEP at commit. -/
  | gshift (p : Pred) (t : Tgt)
  /-- GZERO, OP 0xB8, format Q (R249). Zeroes an s-register with a given d. -/
  | gzero (p : Pred) (t : Tgt) (d : BitVec 2) (m : BitVec 3)
  /-- RLD, OP 0xC0, format M (R354). Remote in-block load by global name. -/
  | rld (p : Pred) (t : Tgt) (l : BitVec 5) (rlx : Bool) (o : BitVec 8)
  /-- RST, OP 0xC1, format M (R354). Remote commit-time store by global name. -/
  | rst (p : Pred) (l : BitVec 5) (o : BitVec 8)
  /-- RAT, OP 0xC2, format M (R355). Remote hold of a word by global name. -/
  | rat (p : Pred) (t : Tgt) (l : BitVec 5) (w : Width) (n : BitVec 6)
  /-- RADD, OP 0xC3, format M (R354). Remote commit-time add by global name. -/
  | radd (p : Pred) (l : BitVec 5) (w : Width) (n : BitVec 6)
  /-- INJ, OP 0xC4, format A (R357). Checks an injection entry and sends it as a message at commit. -/
  | inj (p : Pred) (t : Tgt) (u : Tgt)
  /-- RCVP_TAKE, OP 0xC5, format A (R358). Waits for and claims the oldest full receive entry. -/
  | rcvpTake (p : Pred) (t : Tgt) (u : Tgt)
  /-- RCVP_FREE, OP 0xC5, format A (R358). Makes a taken receive entry empty at commit. -/
  | rcvpFree (p : Pred) (t : Tgt) (u : Tgt)
  /-- COLL, OP 0xC6, format A (R361). Joins a collective reduction of a level at commit. -/
  | coll (p : Pred) (t : Tgt) (rmSrc : Bool) (y : CollTy) (o : CollOp) (l : BitVec 3)
  /-- RANK, OP 0xC7, format A (R360). Sends the thread's rank, the size or the instance index of a level. -/
  | rank (p : Pred) (t : Tgt) (u : Tgt) (m : RankMode) (l : BitVec 3)
  /-- MFC, OP 0xE0, format A (R379). Sends a control register. -/
  | mfc (p : Pred) (t : Tgt) (u : Tgt) (i : BitVec 8)
  /-- MTC, OP 0xE1, format A (R380). Writes a control register at commit. -/
  | mtc (p : Pred) (i : BitVec 8)
  /-- ERET, OP 0xE2, format A (R381). Resumes a trapped thread, optionally at a redirect address. -/
  | eret (p : Pred) (redirect : Bool)
  /-- SWAPS, OP 0xE3, format A (R382). Exchanges a slot's context with a context-cache entry at commit. -/
  | swaps (p : Pred) (t : Tgt) (u : Tgt)
  /-- TLBI_PAGE, OP 0xE4, format A (R383). Removes the translation of one page for an ASID. -/
  | tlbiPage (p : Pred) (t : Tgt) (u : Tgt) (sc : Scope)
  /-- TLBI_ASID, OP 0xE4, format A (R383). Removes every non-global translation of an ASID. -/
  | tlbiAsid (p : Pred) (t : Tgt) (u : Tgt) (sc : Scope)
  /-- TLBI_ALL, OP 0xE4, format A (R383). Removes every translation. -/
  | tlbiAll (p : Pred) (t : Tgt) (u : Tgt) (sc : Scope)
  /-- PARK, OP 0xE5, format A (R384). Parks a named thread at a block boundary. -/
  | park (p : Pred) (t : Tgt) (u : Tgt)
  /-- WAKE, OP 0xE6, format A (R384). Returns a parked thread to the rotation. -/
  | wake (p : Pred) (t : Tgt) (u : Tgt)
  /-- PWRQ, OP 0xE7, format A (R386). Requests current units for the core from the next grant period. -/
  | pwrq (p : Pred) (t : Tgt) (u : Tgt)
  /-- CSYNC, OP 0xE8, format A (R387). Invalidates the core's block cache after the slot's accesses are acknowledged. -/
  | csync (p : Pred) (t : Tgt) (u : Tgt)
  /-- TRQPOP, OP 0xE9, format A (R388). Claims the oldest trap record or the fatal latch and writes it to the pail at commit. -/
  | trqpop (p : Pred) (t : Tgt) (u : Tgt) (latch : Bool)
  /-- KREG_SEAL, OP 0xEA, format A (R389). Writes the CRC-64 of a registry entry at commit. -/
  | kregSeal (p : Pred) (t : Tgt) (u : Tgt)
  /-- KREG_CHECK, OP 0xEA, format A (R389). Checks a registry entry's CRC-64 and sends 1 or 0. -/
  | kregCheck (p : Pred) (t : Tgt) (u : Tgt)
  /-- HALTS, OP 0xEB, format A (R385). Kills a named thread at commit. -/
  | halts (p : Pred) (t : Tgt) (u : Tgt)
  /-- Event BLOCK_FETCH (R276). Fetches a block's header and words, snapshots and validates them before the instance starts. -/
  | blockFetch (slot : Nat)
  /-- Event COMMIT (R183). A completed instance writes its PUTs, releases commit-time operations and takes its exit's action. -/
  | commit (slot : Nat)
  /-- Event NORMALISER_SERVICE_END (R174). After four own turns the slot served by the normaliser becomes runnable again. -/
  | normaliserServiceEnd (core : Nat)
  /-- Event THREAD_END (R188). A thread or task ends once its DONE and its releases and join count allow. -/
  | threadEnd (slot : Nat)
  /-- Event PAGE_WALK_START (R28). A translation miss is admitted to the cluster list and the die walker. -/
  | pageWalkStart (miss : Nat)
  /-- Event PAGE_WALK_COMPLETE (R29). A walk's last entry read returns, installing a leaf or raising the walk's fault. -/
  | pageWalkComplete (walk : Nat)
  /-- Event TLBI_COMPLETE (R37). A TLBI completes once walks, holders and engines have dropped the translation. -/
  | tlbiComplete (id : Nat)
  /-- Event MEMORY_REQUEST_ARRIVAL (R99). A request reaches a word's point of coherence and is performed, granted, queued, parked, NACKed or answered NOT_READY. -/
  | memoryRequestArrival (msg : Nat)
  /-- Event HOLD_RELEASE (R99). A release with value or unchanged reopens a held word and serves its hold queue. -/
  | holdRelease (msg : Nat)
  /-- Event REQUEST_CANCEL (R109). A cancel from a discarded instance frees its queued or parked entry. -/
  | requestCancel (msg : Nat)
  /-- Event MEMORY_REPLY_ARRIVAL (R65). A reply, grant or acknowledgement reaches the requester and releases tokens or waits. -/
  | memoryReplyArrival (msg : Nat)
  /-- Event NACK_RESEND (R100). After a NACK's back-off expires the interface resends the request. -/
  | nackResend (msg : Nat)
  /-- Event NOT_READY_RESEND (R106). At its next turn the slot resends, or after COUNT answers sends a park request. -/
  | notReadyResend (msg : Nat)
  /-- Event RESERVATION_TIMEOUT (R102). HOLD.LIMIT cycles after the first grant an uncommitted instance is aborted. -/
  | reservationTimeout (word : Nat)
  /-- Event AMADD_COMBINE (R105). A Churn switch combines two AMADDs to one word reaching it in one bank cycle. -/
  | amaddCombine (msg : Nat) (msg2 : Nat)
  /-- Event AMADD_REPLY_SPLIT (R105). A combined AMADD's reply is split at its switch to the two requesters. -/
  | amaddReplySplit (msg : Nat)
  /-- Event BARRIER_OP_ARRIVAL (R113). A BARJ, BARA, BARX or PENDING change is performed at the barrier's home bank. -/
  | barrierOpArrival (msg : Nat)
  /-- Event PHASE_TREE_ARRIVAL (R121). An arrival reaches a phase-tree node, which passes one upward when all live members arrived. -/
  | phaseTreeArrival (msg : Nat)
  /-- Event PHASE_RELEASE (R121). The root ends the phase and a release travels down to every member. -/
  | phaseRelease (msg : Nat)
  /-- Event MAILBOX_HANDOFF (R125). After commit and acknowledgements a copy request is handed to the next mailbox and numbered. -/
  | mailboxHandoff (slot : Nat)
  /-- Event COPY_SUBMIT (R128). The movement routine's submission reads the parameter block, checks it, makes scoreboard entries and sends it to an engine. -/
  | copySubmit (core : Nat)
  /-- Event ENGINE_REFUSAL_RESUBMIT (R132). After a refusal's back-off the ladle interface resubmits the request. -/
  | engineRefusalResubmit (core : Nat) (copy : Nat)
  /-- Event COPY_ROW_TRANSFER (R133). An engine checks and writes one row of a copy. -/
  | copyRowTransfer (copy : Nat)
  /-- Event COPY_RETIRE (R138). Once all writes are acknowledged the status word is written and the copy retires, advancing its timeline. -/
  | copyRetire (copy : Nat)
  /-- Event TRAP_TAKE (R393). At a block boundary the slot takes one pending trap in precedence order. -/
  | trapTake (slot : Nat)
  /-- Event TRAP_RECORD_QUEUE (R394). After drain a trap record is queued, latched, dropped or lost. -/
  | trapRecordQueue (msg : Nat)
  /-- Event HANDLER_THREAD_START (R398). The die starts the handler thread in the handler core's service slot while records wait. -/
  | handlerThreadStart (die : Nat)
  /-- Event LZ_RESERVATION (R152). The target service slot answers a reservation with a grant token. -/
  | lzReservation (msg : Nat)
  /-- Event LANDING_PACKET (R149). A landing payload packet reaches the target service slot and is written or refused. -/
  | landingPacket (msg : Nat)
  /-- Event SLOT_LANDED (R149). Once the last payload unit is acknowledged the stamp is written and the sender acknowledged. -/
  | slotLanded (zone : Nat) (zslot : Nat)
  /-- Event ZONE_SLOT_TIMEOUT (R149). A slot timer expires and the slot is poisoned with the failure stamp. -/
  | zoneSlotTimeout (zone : Nat) (zslot : Nat)
  /-- Event SENDER_ABORT (R149). A sender's abort report poisons the reserved or filling slot. -/
  | senderAbort (msg : Nat)
  /-- Event LZFREE_PERFORM (R149). The service slot frees a landed or poisoned slot. -/
  | lzfreePerform (msg : Nat)
  /-- Event LANDING_SEND_RETIRE (R154). The stamp acknowledgement reaches the sender and the send retires. -/
  | landingSendRetire (msg : Nat)
  /-- Event LANDING_ACK_TIMEOUT (R154). No acknowledgement within FAB.TMO fails the send. -/
  | landingAckTimeout (copy : Nat)
  /-- Event REMOTE_REQUEST_ARRIVAL (R162). A fabric request reaches the target interface, duplicates discarded and per-word order restored. -/
  | remoteRequestArrival (msg : Nat)
  /-- Event FABRIC_TIMEOUT (R167). A remote request with no reply within FAB.TMO raises FABRIC TIMEOUT. -/
  | fabricTimeout (msg : Nat)
  /-- Event LINK_STATE_CHANGE (R165). A link's lane training changes its state, replaying or re-injecting packets. -/
  | linkStateChange (link : Nat) (state : Nat)
  /-- Event INJ_SEND (R357). After earlier accesses are acknowledged INJ reads the entry and sends it. -/
  | injSend (slot : Nat)
  /-- Event MESSAGE_ARRIVAL (R358). A message is written into the next receive entry, which becomes FULL when acknowledged. -/
  | messageArrival (msg : Nat)
  /-- Event COLLECTIVE_RESULT (R361). The reduction result reaches a member, writing its register and advancing TL6. -/
  | collectiveResult (msg : Nat)
  /-- Event REFILL_START (R341). When a refill is due the refill unit claims a batch by AMADD on NEXT. -/
  | refillStart (slot : Nat) (queue : Nat)
  /-- Event REFILL_COMPLETE (R341). Loaded items are written to the ring and TAIL advanced. -/
  | refillComplete (refill : Nat)
  /-- Event MIGRATION_COMPLETE (R191). After copies retire the thread's state moves to a free slot of the target core. -/
  | migrationComplete (slot : Nat)
  /-- Event SPAWN_CHILD_START (R190). A child starts in a free program slot once one exists. -/
  | spawnChildStart (slot : Nat)
  /-- Event MATRIX_OP_COMPLETE (R242). A Q operation completes and sends its token. -/
  | matrixOpComplete (core : Nat)
  /-- Event GRANT_PERIOD (R412). Every 10 µs the power arbiter shares caps into core grants. -/
  | grantPeriod (die : Nat)
  /-- Event THERMAL_THROTTLE (R416). Sensor limits make firmware lower the die cap and set THROTTLE. -/
  | thermalThrottle (die : Nat) (cap : Nat)
  /-- Event LQ_DOOR (R195). A write appends a launch record address to a launch queue or sets OVF. -/
  | lqDoor (module : Nat) (queue : Nat) (addr : Nat)
  /-- Event LQ_RING (R195). A write sets the completion ring and resets CPOS COUNT. -/
  | lqRing (module : Nat) (queue : Nat) (val : Nat)
  /-- Event LAUNCH_DECISION (R196). The launch unit takes one record by class priority and starts or refuses it. -/
  | launchDecision (module : Nat)
  /-- Event RESERVE (R199). A placed module checks a spanning record and takes its units or refuses. -/
  | reserve (msg : Nat)
  /-- Event RESERVE_ANSWER (R199). The origin receives a ready or refused answer and sends START or RELEASE. -/
  | reserveAnswer (msg : Nat)
  /-- Event START (R199). A module starts its part of a spanning launch. -/
  | start (msg : Nat)
  /-- Event RELEASE (R199). A module frees the units it took for a refused launch. -/
  | release (msg : Nat)
  /-- Event ENDED_REPORT (R199). The origin sums a module's ENDED count into its LSTAT. -/
  | endedReport (msg : Nat)
  /-- Event PARLOUR_DISPATCH_ATTEMPT (R204). A core's Parlour agent attempts acquisition for the first eligible task. -/
  | parlourDispatchAttempt (core : Nat)
  /-- Event PARLOUR_RETRY_TIMER (R204). A refused task becomes available to attempt again 1 µs after refusal. -/
  | parlourRetryTimer (core : Nat) (entry : Nat)
  /-- Event STALL_WORD_REQUEST (R211). A hold request or batch reaches a stall word's home agent and is granted or refused. -/
  | stallWordRequest (msg : Nat)
  /-- Event HOLD_RELEASE_PARLOUR (R212). DONE or REPOST releases every Parlour hold, in batches for remote words. -/
  | holdReleaseParlour (slot : Nat)
  /-- Event QUARANTINE_MESSAGE (R216). A CTRL message quarantines an element homed on another module. -/
  | quarantineMessage (msg : Nat)
  /-- Event COLOUR_PHASE_START (R217). A colour phase admits the eligible tasks of one colour. -/
  | colourPhaseStart (launch : Nat)
  /-- Event DEADLINE_EXPIRY (R219). A task's deadline expires, running the fallback or taking DEADLINE. -/
  | deadlineExpiry (slot : Nat)
  /-- Event TIME_BEACON (R206). Every millisecond the root sends a time beacon that steers each module's fabric time. -/
  | timeBeacon (module : Nat) (root : Nat)
  /-- Event PATROL_SCRUB (R58). A scrubber pass corrects or poisons stored words. -/
  | patrolScrub (unit : Nat) (bad : Nat)
  /-- Event WATCHDOG_RESTART (R404). A write to the watchdog offset 0x08 restarts the count. -/
  | watchdogRestart (module : Nat) (val : Nat)
  /-- Event WATCHDOG_EXPIRY (R404). The watchdog count expires and the module freezes. -/
  | watchdogExpiry (module : Nat)
  /-- Event KERNEL_CRASH_REPORT (R404). The control cores report a kernel crash and the module freezes. -/
  | kernelCrashReport (module : Nat)
  /-- Event WARM_REBOOT (R406). The control cores reboot from the stored image with both signatures verified again. -/
  | warmReboot (module : Nat)
  /-- Event RE_ADOPTION (R407). The kernel checks the registry, re-adopts or kills launches and thaws the module. -/
  | reAdoption (module : Nat)
  /-- Event MODULE_DECLARED_LOST (R405). A peer declares a module lost when THAWED does not follow FROZEN within 2 s. -/
  | moduleDeclaredLost (module : Nat) (peer : Nat)
  /-- Event COLD_BOOT (R408). Power-on runs self test, training, management, image fetch, verification and entry. -/
  | coldBoot (module : Nat)
  /-- Event TQ_BASE (R396). A write of TQ.BASE enabling queueing wakes slots whose records were dropped. -/
  | tqBase (die : Nat) (val : Nat)
  /-- Event RESYNC_GO (R418). Writing GO starts a RESYNC summary into the buffer. -/
  | resyncGo (module : Nat) (val : Nat)
  /-- Event CONTROL_REGISTER_WRITE (R15). A system or host write to a control-space register with no behaviour of its own. -/
  | controlRegisterWrite (addr : Nat) (val : Nat)
  /-- Event FROZEN_ANNOUNCEMENT (R405). A peer receives a module's FROZEN announcement and starts counting the 2 s within which THAWED must follow. -/
  | frozenAnnouncement (module : Nat) (peer : Nat)
  /-- Event THAWED_ANNOUNCEMENT (R407). A peer receives a module's THAWED announcement and stops the count that would declare that module lost. -/
  | thawedAnnouncement (module : Nat) (peer : Nat)
  /-- Event HOLD_ANSWER_ARRIVAL (R210). The grant or refusal of a remote stall-word request or CTRL packet reaches the requesting Parlour agent, which sends the next request, or ends the attempt and releases what it holds. -/
  | holdAnswerArrival (msg : Nat)
  /-- Event EXPERT_LEVEL_ENABLE (R417). Firmware enables the expert level of a function for a launch through the management port. -/
  | expertLevelEnable (module : Nat) (launch : Nat) (function : Nat)
  deriving DecidableEq, Repr

end Sys2Proof
end

