-- ==== Sys2Proof/Machine/Forms.lean ====
section
/-! DEFINITION. The operand form of every instruction: which operand slots it uses as data, its predicate,
its targets and its LSID (R267 to R270, R282), and its kind: which of them an instance waits for before
it completes (R181, R333). -/

namespace Sys2Proof.Machine

/-- What completion asks of an instruction (R181, R242, R333). -/
inductive Kind where
  /-- nothing of its own -/
  | plain
  /-- a PUT (R180) -/
  | put
  /-- an exit (R275) -/
  | exit
  /-- a wait (R333) -/
  | wait
  /-- a deferred action (R333) -/
  | deferred
  /-- a matrix or Separator operation (R242) -/
  | matrix
  /-- an event of an agent: no instruction word -/
  | event
  deriving DecidableEq, Repr, Inhabited

/-- The operand form of an instruction. -/
structure Form where
  pred : Pred := .always
  left : Bool := false
  right : Bool := false
  /-- the third slot is used as data (R282); it is used as the predicate when `pred` is not `always` -/
  third : Bool := false
  t : Tgt := .none
  u : Tgt := .none
  /-- LD128 sends to two consecutive consumers (R322) -/
  pair : Bool := false
  lsid : Option (BitVec 5) := none
  kind : Kind := .plain
  deriving DecidableEq, Repr, Inhabited

/-- The form of every instruction. -/
def formOf : Instr → Form
  | .get p t u _ => { pred := p, t := t, u := u }
  | .put p _ => { pred := p, left := true, kind := .put }
  | .const p t _ => { pred := p, t := t }
  | .consth p t _ => { pred := p, left := true, t := t }
  | .mov p t u => { pred := p, left := true, t := t, u := u }
  | .null p t u => { pred := p, t := t, u := u }
  | .test p t u _ => { pred := p, left := true, t := t, u := u }
  | .br p _ _ => { pred := p, kind := .exit }
  | .brr p _ => { pred := p, left := true, kind := .exit }
  | .call p _ _ => { pred := p, kind := .exit }
  | .callr p _ => { pred := p, left := true, kind := .exit }
  | .done p _ => { pred := p, kind := .exit }
  | .trap p _ => { pred := p, left := true, kind := .exit }
  | .add p t u _ => { pred := p, left := true, right := true, t := t, u := u }
  | .sub p t u _ => { pred := p, left := true, right := true, t := t, u := u }
  | .addi p t u _ => { pred := p, left := true, t := t, u := u }
  | .mul p t u _ => { pred := p, left := true, right := true, t := t, u := u }
  | .mulh p t u _ => { pred := p, left := true, right := true, t := t, u := u }
  | .mulhu p t u _ => { pred := p, left := true, right := true, t := t, u := u }
  | .div p t u _ => { pred := p, left := true, right := true, t := t, u := u }
  | .divu p t u _ => { pred := p, left := true, right := true, t := t, u := u }
  | .rem p t u _ => { pred := p, left := true, right := true, t := t, u := u }
  | .remu p t u _ => { pred := p, left := true, right := true, t := t, u := u }
  | .and p t u _ => { pred := p, left := true, right := true, t := t, u := u }
  | .or p t u _ => { pred := p, left := true, right := true, t := t, u := u }
  | .xor p t u _ => { pred := p, left := true, right := true, t := t, u := u }
  | .andn p t u _ => { pred := p, left := true, right := true, t := t, u := u }
  | .lut3 t u _ => { left := true, right := true, third := true, t := t, u := u }
  | .orn p t u _ => { pred := p, left := true, right := true, t := t, u := u }
  | .shl p t u _ => { pred := p, left := true, right := true, t := t, u := u }
  | .shr p t u _ => { pred := p, left := true, right := true, t := t, u := u }
  | .sar p t u _ => { pred := p, left := true, right := true, t := t, u := u }
  | .shli p t u _ _ => { pred := p, left := true, t := t, u := u }
  | .shri p t u _ _ => { pred := p, left := true, t := t, u := u }
  | .sari p t u _ _ => { pred := p, left := true, t := t, u := u }
  | .fshl t u _ => { left := true, right := true, third := true, t := t, u := u }
  | .fshr t u _ => { left := true, right := true, third := true, t := t, u := u }
  | .rol p t u _ => { pred := p, left := true, right := true, t := t, u := u }
  | .clz p t u _ => { pred := p, left := true, t := t, u := u }
  | .ctz p t u _ => { pred := p, left := true, t := t, u := u }
  | .popc p t u _ => { pred := p, left := true, t := t, u := u }
  | .brev p t u _ => { pred := p, left := true, t := t, u := u }
  | .bswap p t u _ => { pred := p, left := true, t := t, u := u }
  | .ext p t u _ _ => { pred := p, left := true, right := true, t := t, u := u }
  | .ins p t u _ _ => { pred := p, left := true, right := true, t := t, u := u }
  | .min p t u _ => { pred := p, left := true, right := true, t := t, u := u }
  | .max p t u _ => { pred := p, left := true, right := true, t := t, u := u }
  | .minu p t u _ => { pred := p, left := true, right := true, t := t, u := u }
  | .maxu p t u _ => { pred := p, left := true, right := true, t := t, u := u }
  | .cmp p t u _ _ => { pred := p, left := true, right := true, t := t, u := u }
  | .sel t u => { left := true, right := true, third := true, t := t, u := u }
  | .sext p t u _ => { pred := p, left := true, t := t, u := u }
  | .zext p t u _ => { pred := p, left := true, t := t, u := u }
  | .lea p t u _ _ => { pred := p, left := true, right := true, t := t, u := u }
  | .cell t u => { left := true, right := true, third := true, t := t, u := u }
  | .hasha p t u => { pred := p, left := true, right := true, t := t, u := u }
  | .absd p t u _ => { pred := p, left := true, right := true, t := t, u := u }
  | .padd p t u _ _ => { pred := p, left := true, right := true, t := t, u := u }
  | .psub p t u _ _ => { pred := p, left := true, right := true, t := t, u := u }
  | .pmul p t u _ _ => { pred := p, left := true, right := true, t := t, u := u }
  | .pmax p t u _ _ => { pred := p, left := true, right := true, t := t, u := u }
  | .fadd p t u _ _ => { pred := p, left := true, right := true, t := t, u := u }
  | .fsub p t u _ _ => { pred := p, left := true, right := true, t := t, u := u }
  | .fmul p t u _ _ => { pred := p, left := true, right := true, t := t, u := u }
  | .ffma t u _ _ => { left := true, right := true, third := true, t := t, u := u }
  | .fmin p t u _ => { pred := p, left := true, right := true, t := t, u := u }
  | .fmax p t u _ => { pred := p, left := true, right := true, t := t, u := u }
  | .fsgn p t u _ _ => { pred := p, left := true, right := true, t := t, u := u }
  | .fcmp p t u _ _ => { pred := p, left := true, right := true, t := t, u := u }
  | .fcvt p t u _ _ _ _ => { pred := p, left := true, t := t, u := u }
  | .frnd p t u _ _ => { pred := p, left := true, t := t, u := u }
  | .ftoi p t u _ _ _ => { pred := p, left := true, t := t, u := u }
  | .itof p t u _ _ _ => { pred := p, left := true, t := t, u := u }
  | .fclass p t u _ => { pred := p, left := true, t := t, u := u }
  | .fscale p t u _ _ => { pred := p, left := true, right := true, t := t, u := u }
  | .frcp p t u _ _ => { pred := p, left := true, t := t, u := u }
  | .frsq p t u _ _ => { pred := p, left := true, t := t, u := u }
  | .fexp2s p t u _ _ => { pred := p, left := true, t := t, u := u }
  | .flog2s p t u _ _ => { pred := p, left := true, t := t, u := u }
  | .vadd2 p t u _ => { pred := p, left := true, right := true, t := t, u := u }
  | .vsub2 p t u _ => { pred := p, left := true, right := true, t := t, u := u }
  | .vmul2 p t u _ => { pred := p, left := true, right := true, t := t, u := u }
  | .vfma2 t u _ => { left := true, right := true, third := true, t := t, u := u }
  | .vdot2 p t u _ => { pred := p, left := true, right := true, t := t, u := u }
  | .vcvt2 p t u _ _ _ => { pred := p, left := true, t := t, u := u }
  | .ld8 p t l _ _ => { pred := p, left := true, t := t, lsid := some l }
  | .ld8u p t l _ _ => { pred := p, left := true, t := t, lsid := some l }
  | .ld16 p t l _ _ => { pred := p, left := true, t := t, lsid := some l }
  | .ld16u p t l _ _ => { pred := p, left := true, t := t, lsid := some l }
  | .ld32 p t l _ _ => { pred := p, left := true, t := t, lsid := some l }
  | .ld32u p t l _ _ => { pred := p, left := true, t := t, lsid := some l }
  | .ld64 p t l _ _ => { pred := p, left := true, t := t, lsid := some l }
  | .ld128 p t l _ _ => { pred := p, left := true, t := t, pair := true, lsid := some l }
  | .st8 p l _ _ => { pred := p, left := true, right := true, lsid := some l }
  | .st16 p l _ _ => { pred := p, left := true, right := true, lsid := some l }
  | .st32 p l _ _ => { pred := p, left := true, right := true, lsid := some l }
  | .st64 p l _ _ => { pred := p, left := true, right := true, lsid := some l }
  | .st128 l _ _ => { left := true, right := true, third := true, lsid := some l }
  | .ldsync p t l _ => { pred := p, left := true, t := t, lsid := some l }
  | .stsync p l _ => { pred := p, left := true, right := true, lsid := some l }
  | .ldff p t l _ => { pred := p, left := true, t := t, lsid := some l }
  | .stff p l _ => { pred := p, left := true, right := true, lsid := some l }
  | .sete p l _ => { pred := p, left := true, lsid := some l }
  | .festat p t l _ => { pred := p, left := true, t := t, lsid := some l }
  | .fence p l _ => { pred := p, lsid := some l }
  | .amadd p t l _ _ _ => { pred := p, left := true, right := true, t := t, lsid := some l }
  | .rsv p t l _ _ => { pred := p, left := true, t := t, lsid := some l }
  | .rel p l _ _ => { pred := p, left := true, right := true, lsid := some l }
  | .reln p l _ _ => { pred := p, left := true, lsid := some l }
  | .cas t l _ _ => { left := true, right := true, third := true, t := t, lsid := some l }
  | .swap p t l _ _ => { pred := p, left := true, right := true, t := t, lsid := some l }
  | .amin p t l _ _ _ => { pred := p, left := true, right := true, t := t, lsid := some l }
  | .amax p t l _ _ _ => { pred := p, left := true, right := true, t := t, lsid := some l }
  | .mwait p t l _ => { pred := p, left := true, right := true, t := t, lsid := some l }
  | .barj p l _ => { pred := p, left := true, lsid := some l }
  | .bara p l _ => { pred := p, left := true, lsid := some l }
  | .barw p t l _ => { pred := p, left := true, right := true, t := t, lsid := some l }
  | .barx p l _ => { pred := p, left := true, lsid := some l }
  | .phase p l _ => { pred := p, lsid := some l }
  | .tlwait p t u _ => { pred := p, left := true, t := t, u := u }
  | .tlrd p t u _ _ => { pred := p, t := t, u := u }
  | .mbxw p t u => { pred := p, left := true, right := true, t := t, u := u, kind := .deferred }
  | .mbxr p t u => { pred := p, t := t, u := u, kind := .wait }
  | .cpy p l _ _ => { pred := p, left := true, lsid := some l }
  | .cpyx p l _ _ => { pred := p, left := true, lsid := some l }
  | .cpyt p l _ _ => { pred := p, left := true, lsid := some l }
  | .cpys p l _ _ => { pred := p, left := true, lsid := some l }
  | .lzrsv p t l => { pred := p, left := true, right := true, t := t, lsid := some l }
  | .lzsend p l _ => { pred := p, left := true, lsid := some l }
  | .lzarm p l _ => { pred := p, left := true, lsid := some l }
  | .lzfree p l _ _ => { pred := p, lsid := some l }
  | .qpop p t u => { pred := p, left := true, t := t, u := u, kind := .wait }
  | .qpush p t u => { pred := p, left := true, right := true, t := t, u := u }
  | .post p t u _ => { pred := p, left := true, right := true, t := t, u := u, kind := .deferred }
  | .postc p t u _ => { pred := p, left := true, right := true, t := t, u := u, kind := .deferred }
  | .dec p t u => { pred := p, left := true, t := t, u := u, kind := .deferred }
  | .spawn p t u => { pred := p, left := true, right := true, t := t, u := u, kind := .deferred }
  | .join p t u => { pred := p, t := t, u := u, kind := .wait }
  | .migr p t u => { pred := p, left := true, t := t, u := u, kind := .deferred }
  | .elem p t u _ => { pred := p, left := true, t := t, u := u }
  | .nbr p t u => { pred := p, left := true, right := true, t := t, u := u }
  | .nbrn p t u => { pred := p, left := true, t := t, u := u }
  | .repost p _ => { pred := p, left := true, kind := .exit }
  | .tretry p t u => { pred := p, left := true, t := t, u := u, kind := .deferred }
  | .tdrop p t u => { pred := p, left := true, t := t, u := u, kind := .deferred }
  | .prio p t u _ => { pred := p, left := true, t := t, u := u, kind := .deferred }
  | .colourCur p t u => { pred := p, t := t, u := u }
  | .colourSet p t u => { pred := p, left := true, right := true, t := t, u := u, kind := .deferred }
  | .deadl p t u keep => { pred := p, left := true, right := !keep, t := t, u := u, kind := .deferred }
  | .tld p t _ => { pred := p, left := true, right := true, t := t, kind := .matrix }
  | .tst p t _ => { pred := p, left := true, right := true, t := t, kind := .matrix }
  | .tzero p t _ => { pred := p, t := t, kind := .matrix }
  | .ttrn p t _ _ => { pred := p, t := t, kind := .matrix }
  | .mma p t _ _ _ _ => { pred := p, t := t, kind := .matrix }
  | .mmas p t _ _ _ _ => { pred := p, t := t, kind := .matrix }
  | .mmak p t _ _ _ _ => { pred := p, t := t, kind := .matrix }
  | .accrd p t _ _ _ _ => { pred := p, t := t, kind := .matrix }
  | .accz p t _ _ => { pred := p, t := t, kind := .matrix }
  | .accld p t _ _ => { pred := p, left := true, right := true, t := t, kind := .matrix }
  | .tdeq p t _ _ _ _ => { pred := p, t := t, kind := .matrix }
  | .topk p t _ _ _ _ => { pred := p, left := true, t := t, kind := .matrix }
  | .tred p t _ _ _ _ _ => { pred := p, left := true, t := t, kind := .matrix }
  | .scld p t => { pred := p, left := true, right := true, t := t, kind := .matrix }
  | .scst p t => { pred := p, left := true, right := true, t := t, kind := .matrix }
  | .gld p t _ _ => { pred := p, left := true, t := t, kind := .matrix }
  | .gst p t _ => { pred := p, left := true, t := t, kind := .matrix }
  | .gacc p t _ _ => { pred := p, t := t, kind := .matrix }
  | .gelim p t _ _ => { pred := p, t := t, kind := .matrix }
  | .gdamp p t _ _ => { pred := p, left := true, t := t, kind := .matrix }
  | .gsolve p t _ => { pred := p, t := t, kind := .matrix }
  | .gchk p t => { pred := p, left := true, t := t, kind := .matrix }
  | .gshift p t => { pred := p, left := true, t := t, kind := .matrix }
  | .gzero p t _ _ => { pred := p, t := t, kind := .matrix }
  | .rld p t l _ _ => { pred := p, left := true, t := t, lsid := some l }
  | .rst p l _ => { pred := p, left := true, right := true, lsid := some l }
  | .rat p t l _ _ => { pred := p, left := true, t := t, lsid := some l }
  | .radd p l _ _ => { pred := p, left := true, right := true, lsid := some l }
  | .inj p t u => { pred := p, left := true, t := t, u := u, kind := .deferred }
  | .rcvpTake p t u => { pred := p, t := t, u := u, kind := .wait }
  | .rcvpFree p t u => { pred := p, left := true, t := t, u := u, kind := .deferred }
  | .coll p t _ _ _ _ => { pred := p, left := true, t := t, kind := .deferred }
  | .rank p t u _ _ => { pred := p, t := t, u := u }
  | .mfc p t u _ => { pred := p, t := t, u := u }
  | .mtc p _ => { pred := p, left := true, kind := .deferred }
  | .eret p redirect => { pred := p, left := true, right := redirect, kind := .deferred }
  | .swaps p t u => { pred := p, left := true, right := true, t := t, u := u, kind := .deferred }
  | .tlbiPage p t u _ => { pred := p, left := true, right := true, t := t, u := u, kind := .deferred }
  | .tlbiAsid p t u _ => { pred := p, right := true, t := t, u := u, kind := .deferred }
  | .tlbiAll p t u _ => { pred := p, t := t, u := u, kind := .deferred }
  | .park p t u => { pred := p, left := true, t := t, u := u, kind := .deferred }
  | .wake p t u => { pred := p, left := true, t := t, u := u, kind := .deferred }
  | .pwrq p t u => { pred := p, left := true, t := t, u := u, kind := .deferred }
  | .csync p t u => { pred := p, t := t, u := u, kind := .deferred }
  | .trqpop p t u _ => { pred := p, left := true, t := t, u := u }
  | .kregSeal p t u => { pred := p, left := true, t := t, u := u, kind := .deferred }
  | .kregCheck p t u => { pred := p, left := true, t := t, u := u }
  | .halts p t u => { pred := p, left := true, t := t, u := u, kind := .deferred }
  | .blockFetch _ => { kind := .event }
  | .commit _ => { kind := .event }
  | .normaliserServiceEnd _ => { kind := .event }
  | .threadEnd _ => { kind := .event }
  | .pageWalkStart _ => { kind := .event }
  | .pageWalkComplete _ => { kind := .event }
  | .tlbiComplete _ => { kind := .event }
  | .memoryRequestArrival _ => { kind := .event }
  | .holdRelease _ => { kind := .event }
  | .requestCancel _ => { kind := .event }
  | .memoryReplyArrival _ => { kind := .event }
  | .nackResend _ => { kind := .event }
  | .notReadyResend _ => { kind := .event }
  | .reservationTimeout _ => { kind := .event }
  | .amaddCombine _ _ => { kind := .event }
  | .amaddReplySplit _ => { kind := .event }
  | .barrierOpArrival _ => { kind := .event }
  | .phaseTreeArrival _ => { kind := .event }
  | .phaseRelease _ => { kind := .event }
  | .mailboxHandoff _ => { kind := .event }
  | .copySubmit _ => { kind := .event }
  | .engineRefusalResubmit _ _ => { kind := .event }
  | .copyRowTransfer _ => { kind := .event }
  | .copyRetire _ => { kind := .event }
  | .trapTake _ => { kind := .event }
  | .trapRecordQueue _ => { kind := .event }
  | .handlerThreadStart _ => { kind := .event }
  | .lzReservation _ => { kind := .event }
  | .landingPacket _ => { kind := .event }
  | .slotLanded _ _ => { kind := .event }
  | .zoneSlotTimeout _ _ => { kind := .event }
  | .senderAbort _ => { kind := .event }
  | .lzfreePerform _ => { kind := .event }
  | .landingSendRetire _ => { kind := .event }
  | .landingAckTimeout _ => { kind := .event }
  | .remoteRequestArrival _ => { kind := .event }
  | .fabricTimeout _ => { kind := .event }
  | .linkStateChange _ _ => { kind := .event }
  | .injSend _ => { kind := .event }
  | .messageArrival _ => { kind := .event }
  | .collectiveResult _ => { kind := .event }
  | .refillStart _ _ => { kind := .event }
  | .refillComplete _ => { kind := .event }
  | .migrationComplete _ => { kind := .event }
  | .spawnChildStart _ => { kind := .event }
  | .matrixOpComplete _ => { kind := .event }
  | .grantPeriod _ => { kind := .event }
  | .thermalThrottle _ _ => { kind := .event }
  | .lqDoor _ _ _ => { kind := .event }
  | .lqRing _ _ _ => { kind := .event }
  | .launchDecision _ => { kind := .event }
  | .reserve _ => { kind := .event }
  | .reserveAnswer _ => { kind := .event }
  | .start _ => { kind := .event }
  | .release _ => { kind := .event }
  | .endedReport _ => { kind := .event }
  | .parlourDispatchAttempt _ => { kind := .event }
  | .parlourRetryTimer _ _ => { kind := .event }
  | .stallWordRequest _ => { kind := .event }
  | .holdReleaseParlour _ => { kind := .event }
  | .quarantineMessage _ => { kind := .event }
  | .colourPhaseStart _ => { kind := .event }
  | .deadlineExpiry _ => { kind := .event }
  | .timeBeacon _ _ => { kind := .event }
  | .patrolScrub _ _ => { kind := .event }
  | .watchdogRestart _ _ => { kind := .event }
  | .watchdogExpiry _ => { kind := .event }
  | .kernelCrashReport _ => { kind := .event }
  | .warmReboot _ => { kind := .event }
  | .reAdoption _ => { kind := .event }
  | .moduleDeclaredLost _ _ => { kind := .event }
  | .coldBoot _ => { kind := .event }
  | .tqBase _ _ => { kind := .event }
  | .resyncGo _ _ => { kind := .event }
  | .controlRegisterWrite _ _ => { kind := .event }
  | .frozenAnnouncement _ _ => { kind := .event }
  | .thawedAnnouncement _ _ => { kind := .event }
  | .holdAnswerArrival _ => { kind := .event }
  | .expertLevelEnable _ _ _ => { kind := .event }

end Sys2Proof.Machine
end

