-- ==== Sys2Proof/WellFormed.lean ====
section
/-! DEFINITION. Well-formed instructions: the limits that a word's own fields must meet whatever block
it stands in (checks 9 and 14 of R277). Limits that an operand's type already carries (a condition, a
mode, a lane width) need no check here. -/

namespace Sys2Proof

/-- Why an instruction is ill-formed. -/
inductive Ill where
  /-- T0 and T1 name the same slot of the same consumer (check 9 of R277) -/
  | sameTarget
  /-- the field of INS runs past bit 63 (R305) -/
  | insField
  /-- an exact FCVT or a reading VCVT2 carries a mode (R316, R319) -/
  | exactMode
  /-- LD128 has no T0, or no instruction follows its consumer (R322) -/
  | noPairTarget
  /-- T0 of AMADD or COLL is not a left slot (R327, R361) -/
  | notPutLeft
  /-- a copy names TL6 or TL7 (R124) -/
  | copyContext
  /-- TLBI with a scope above TIER (R383) -/
  | tlbiScope
  /-- a pair names an odd accumulator (R241, R364, R369) -/
  | oddPair
  /-- TTRN with D equal to A (R367) -/
  | sameTile
  /-- GELIM with m = 7 (R375) -/
  | eliminate
  /-- GZERO with d = 0 or 7 (R375) -/
  | dimension
  deriving DecidableEq, Repr

/-- Check 9 of R277. -/
def illTargets (t u : Tgt) : Option Ill := if t = u ∧ t ≠ .none then some .sameTarget else none

/-- The field length of INS (R305). -/
def InsLen.bits : InsLen → Nat
  | .bit => 1 | .byte => 8 | .half => 16 | .word => 32

/-- An FCVT form that is always exact (R316). -/
def exactFcvt (f : FForm) (fromP : Bool) (q : Partner) : Bool :=
  if fromP then !(f = .e8m23 && q = .other) else f = .e8m23 && q = .other

/-- T0 of AMADD and COLL: none, or a left slot (R327, R361). -/
def illPut : Tgt → Option Ill
  | .none => none
  | .to .left _ => none
  | .to .right _ => some .notPutLeft
  | .to .third _ => some .notPutLeft

/-- T0 of LD128: a slot of a consumer that another instruction can follow (R322). -/
def illPair : Tgt → Option Ill
  | .none => some .noPairTarget
  | .to _ i => if i = 31#5 then some .noPairTarget else none

/-- Contexts TL0 to TL5 are for copies (R124). -/
def illCopy (c : BitVec 3) : Option Ill := if c ≥ 6#3 then some .copyContext else none

/-- Scopes that TLBI takes (R383). -/
def Scope.tlbi : Scope → Bool
  | .slot | .core | .clus | .die | .mod | .tier => true
  | .grp | .fab | .host | .hood | .zone | .eng => false

/-- First of two reasons. -/
def Ill.first (a b : Option Ill) : Option Ill := match a with | some x => some x | none => b

/-- A condition that makes an instruction ill-formed. -/
def Ill.when (c : Bool) (x : Ill) : Option Ill := if c then some x else none

/-- An odd number names no pair (R241). -/
def oddReg (d : BitVec 3) : Bool := d.toNat % 2 == 1

/-- Why an instruction is ill-formed, none when it is well-formed. -/
def Instr.ill : Instr → Option Ill
  | .get _ t u _ => illTargets t u
  | .put _ _ => none
  | .const _ _ _ => none
  | .consth _ _ _ => none
  | .mov _ t u => illTargets t u
  | .null _ t u => illTargets t u
  | .test _ t u _ => illTargets t u
  | .br _ _ _ => none
  | .brr _ _ => none
  | .call _ _ _ => none
  | .callr _ _ => none
  | .done _ _ => none
  | .trap _ _ => none
  | .add _ t u _ => illTargets t u
  | .sub _ t u _ => illTargets t u
  | .addi _ t u _ => illTargets t u
  | .mul _ t u _ => illTargets t u
  | .mulh _ t u _ => illTargets t u
  | .mulhu _ t u _ => illTargets t u
  | .div _ t u _ => illTargets t u
  | .divu _ t u _ => illTargets t u
  | .rem _ t u _ => illTargets t u
  | .remu _ t u _ => illTargets t u
  | .and _ t u _ => illTargets t u
  | .or _ t u _ => illTargets t u
  | .xor _ t u _ => illTargets t u
  | .andn _ t u _ => illTargets t u
  | .lut3 t u _ => illTargets t u
  | .orn _ t u _ => illTargets t u
  | .shl _ t u _ => illTargets t u
  | .shr _ t u _ => illTargets t u
  | .sar _ t u _ => illTargets t u
  | .shli _ t u _ _ => illTargets t u
  | .shri _ t u _ _ => illTargets t u
  | .sari _ t u _ _ => illTargets t u
  | .fshl t u _ => illTargets t u
  | .fshr t u _ => illTargets t u
  | .rol _ t u _ => illTargets t u
  | .clz _ t u _ => illTargets t u
  | .ctz _ t u _ => illTargets t u
  | .popc _ t u _ => illTargets t u
  | .brev _ t u _ => illTargets t u
  | .bswap _ t u _ => illTargets t u
  | .ext _ t u _ _ => illTargets t u
  | .ins _ t u l n => Ill.first (illTargets t u) (Ill.when (n.toNat + l.bits > 64) .insField)
  | .min _ t u _ => illTargets t u
  | .max _ t u _ => illTargets t u
  | .minu _ t u _ => illTargets t u
  | .maxu _ t u _ => illTargets t u
  | .cmp _ t u _ _ => illTargets t u
  | .sel t u => illTargets t u
  | .sext _ t u _ => illTargets t u
  | .zext _ t u _ => illTargets t u
  | .lea _ t u _ _ => illTargets t u
  | .cell t u => illTargets t u
  | .hasha _ t u => illTargets t u
  | .absd _ t u _ => illTargets t u
  | .padd _ t u _ _ => illTargets t u
  | .psub _ t u _ _ => illTargets t u
  | .pmul _ t u _ _ => illTargets t u
  | .pmax _ t u _ _ => illTargets t u
  | .fadd _ t u _ _ => illTargets t u
  | .fsub _ t u _ _ => illTargets t u
  | .fmul _ t u _ _ => illTargets t u
  | .ffma t u _ _ => illTargets t u
  | .fmin _ t u _ => illTargets t u
  | .fmax _ t u _ => illTargets t u
  | .fsgn _ t u _ _ => illTargets t u
  | .fcmp _ t u _ _ => illTargets t u
  | .fcvt _ t u f fromP q r => Ill.first (illTargets t u) (Ill.when (exactFcvt f fromP q && r != .fixed .rne) .exactMode)
  | .frnd _ t u _ _ => illTargets t u
  | .ftoi _ t u _ _ _ => illTargets t u
  | .itof _ t u _ _ _ => illTargets t u
  | .fclass _ t u _ => illTargets t u
  | .fscale _ t u _ _ => illTargets t u
  | .frcp _ t u _ _ => illTargets t u
  | .frsq _ t u _ _ => illTargets t u
  | .fexp2s _ t u _ _ => illTargets t u
  | .flog2s _ t u _ _ => illTargets t u
  | .vadd2 _ t u _ => illTargets t u
  | .vsub2 _ t u _ => illTargets t u
  | .vmul2 _ t u _ => illTargets t u
  | .vfma2 t u _ => illTargets t u
  | .vdot2 _ t u _ => illTargets t u
  | .vcvt2 _ t u fromP _ r => Ill.first (illTargets t u) (Ill.when (fromP && r != .fixed .rne) .exactMode)
  | .ld8 _ _ _ _ _ => none
  | .ld8u _ _ _ _ _ => none
  | .ld16 _ _ _ _ _ => none
  | .ld16u _ _ _ _ _ => none
  | .ld32 _ _ _ _ _ => none
  | .ld32u _ _ _ _ _ => none
  | .ld64 _ _ _ _ _ => none
  | .ld128 _ t _ _ _ => illPair t
  | .st8 _ _ _ _ => none
  | .st16 _ _ _ _ => none
  | .st32 _ _ _ _ => none
  | .st64 _ _ _ _ => none
  | .st128 _ _ _ => none
  | .ldsync _ _ _ _ => none
  | .stsync _ _ _ => none
  | .ldff _ _ _ _ => none
  | .stff _ _ _ => none
  | .sete _ _ _ => none
  | .festat _ _ _ _ => none
  | .fence _ _ _ => none
  | .amadd _ t _ _ _ _ => illPut t
  | .rsv _ _ _ _ _ => none
  | .rel _ _ _ _ => none
  | .reln _ _ _ _ => none
  | .cas _ _ _ _ => none
  | .swap _ _ _ _ _ => none
  | .amin _ _ _ _ _ _ => none
  | .amax _ _ _ _ _ _ => none
  | .mwait _ _ _ _ => none
  | .barj _ _ _ => none
  | .bara _ _ _ => none
  | .barw _ _ _ _ => none
  | .barx _ _ _ => none
  | .phase _ _ _ => none
  | .tlwait _ t u _ => illTargets t u
  | .tlrd _ t u _ _ => illTargets t u
  | .mbxw _ t u => illTargets t u
  | .mbxr _ t u => illTargets t u
  | .cpy _ _ _ c => illCopy c
  | .cpyx _ _ _ c => illCopy c
  | .cpyt _ _ _ c => illCopy c
  | .cpys _ _ _ c => illCopy c
  | .lzrsv _ _ _ => none
  | .lzsend _ _ _ => none
  | .lzarm _ _ _ => none
  | .lzfree _ _ _ _ => none
  | .qpop _ t u => illTargets t u
  | .qpush _ t u => illTargets t u
  | .post _ t u _ => illTargets t u
  | .postc _ t u _ => illTargets t u
  | .dec _ t u => illTargets t u
  | .spawn _ t u => illTargets t u
  | .join _ t u => illTargets t u
  | .migr _ t u => illTargets t u
  | .elem _ t u _ => illTargets t u
  | .nbr _ t u => illTargets t u
  | .nbrn _ t u => illTargets t u
  | .repost _ _ => none
  | .tretry _ t u => illTargets t u
  | .tdrop _ t u => illTargets t u
  | .prio _ t u _ => illTargets t u
  | .colourCur _ t u => illTargets t u
  | .colourSet _ t u => illTargets t u
  | .deadl _ t u _ => illTargets t u
  | .tld _ _ _ => none
  | .tst _ _ _ => none
  | .tzero _ _ _ => none
  | .ttrn _ _ d a => Ill.when (d = a) .sameTile
  | .mma _ _ _ _ _ _ => none
  | .mmas _ _ _ _ _ _ => none
  | .mmak _ _ _ _ _ _ => none
  | .accrd _ _ _ a b _ => Ill.when (b = .pair && oddReg a) .oddPair
  | .accz _ _ d pair => Ill.when (pair && oddReg d) .oddPair
  | .accld _ _ d pair => Ill.when (pair && oddReg d) .oddPair
  | .tdeq _ _ _ _ _ _ => none
  | .topk _ _ _ _ _ _ => none
  | .tred _ _ _ _ _ _ _ => none
  | .scld _ _ => none
  | .scst _ _ => none
  | .gld _ _ _ _ => none
  | .gst _ _ _ => none
  | .gacc _ _ _ _ => none
  | .gelim _ _ _ m => Ill.when (m = 7#3) .eliminate
  | .gdamp _ _ _ _ => none
  | .gsolve _ _ _ => none
  | .gchk _ _ => none
  | .gshift _ _ => none
  | .gzero _ _ _ m => Ill.when (m = 0#3 || m = 7#3) .dimension
  | .rld _ _ _ _ _ => none
  | .rst _ _ _ => none
  | .rat _ _ _ _ _ => none
  | .radd _ _ _ _ => none
  | .inj _ t u => illTargets t u
  | .rcvpTake _ t u => illTargets t u
  | .rcvpFree _ t u => illTargets t u
  | .coll _ t _ _ _ _ => illPut t
  | .rank _ t u _ _ => illTargets t u
  | .mfc _ t u _ => illTargets t u
  | .mtc _ _ => none
  | .eret _ _ => none
  | .swaps _ t u => illTargets t u
  | .tlbiPage _ t u sc => Ill.first (illTargets t u) (Ill.when (!sc.tlbi) .tlbiScope)
  | .tlbiAsid _ t u sc => Ill.first (illTargets t u) (Ill.when (!sc.tlbi) .tlbiScope)
  | .tlbiAll _ t u sc => Ill.first (illTargets t u) (Ill.when (!sc.tlbi) .tlbiScope)
  | .park _ t u => illTargets t u
  | .wake _ t u => illTargets t u
  | .pwrq _ t u => illTargets t u
  | .csync _ t u => illTargets t u
  | .trqpop _ t u _ => illTargets t u
  | .kregSeal _ t u => illTargets t u
  | .kregCheck _ t u => illTargets t u
  | .halts _ t u => illTargets t u
  | .blockFetch _ => none
  | .commit _ => none
  | .normaliserServiceEnd _ => none
  | .threadEnd _ => none
  | .pageWalkStart _ => none
  | .pageWalkComplete _ => none
  | .tlbiComplete _ => none
  | .memoryRequestArrival _ => none
  | .holdRelease _ => none
  | .requestCancel _ => none
  | .memoryReplyArrival _ => none
  | .nackResend _ => none
  | .notReadyResend _ => none
  | .reservationTimeout _ => none
  | .amaddCombine _ _ => none
  | .amaddReplySplit _ => none
  | .barrierOpArrival _ => none
  | .phaseTreeArrival _ => none
  | .phaseRelease _ => none
  | .mailboxHandoff _ => none
  | .copySubmit _ => none
  | .engineRefusalResubmit _ _ => none
  | .copyRowTransfer _ => none
  | .copyRetire _ => none
  | .trapTake _ => none
  | .trapRecordQueue _ => none
  | .handlerThreadStart _ => none
  | .lzReservation _ => none
  | .landingPacket _ => none
  | .slotLanded _ _ => none
  | .zoneSlotTimeout _ _ => none
  | .senderAbort _ => none
  | .lzfreePerform _ => none
  | .landingSendRetire _ => none
  | .landingAckTimeout _ => none
  | .remoteRequestArrival _ => none
  | .fabricTimeout _ => none
  | .linkStateChange _ _ => none
  | .injSend _ => none
  | .messageArrival _ => none
  | .collectiveResult _ => none
  | .refillStart _ _ => none
  | .refillComplete _ => none
  | .migrationComplete _ => none
  | .spawnChildStart _ => none
  | .matrixOpComplete _ => none
  | .grantPeriod _ => none
  | .thermalThrottle _ _ => none
  | .lqDoor _ _ _ => none
  | .lqRing _ _ _ => none
  | .launchDecision _ => none
  | .reserve _ => none
  | .reserveAnswer _ => none
  | .start _ => none
  | .release _ => none
  | .endedReport _ => none
  | .parlourDispatchAttempt _ => none
  | .parlourRetryTimer _ _ => none
  | .stallWordRequest _ => none
  | .holdReleaseParlour _ => none
  | .quarantineMessage _ => none
  | .colourPhaseStart _ => none
  | .deadlineExpiry _ => none
  | .timeBeacon _ _ => none
  | .patrolScrub _ _ => none
  | .watchdogRestart _ _ => none
  | .watchdogExpiry _ => none
  | .kernelCrashReport _ => none
  | .warmReboot _ => none
  | .reAdoption _ => none
  | .moduleDeclaredLost _ _ => none
  | .coldBoot _ => none
  | .tqBase _ _ => none
  | .resyncGo _ _ => none
  | .controlRegisterWrite _ _ => none
  | .frozenAnnouncement _ _ => none
  | .thawedAnnouncement _ _ => none
  | .holdAnswerArrival _ => none
  | .expertLevelEnable _ _ _ => none

/-- A well-formed instruction. -/
def Instr.wf (i : Instr) : Bool := i.ill.isNone

end Sys2Proof
end

