-- ==== Sys2Proof/Decode.lean ====
section
/-! DEFINITION. Decoding an instruction word into an `Instr`, total on every word and rejecting by
the number of the fetch check (R267 to R278, R280 to R288), and the encoder. Every 32-bit word splits
into OP, PM and three fields of 7, 7 and 8 bits; each format reads its own fields out of those. -/

namespace Sys2Proof

/-- The checks of R277, by name. -/
inductive Reject where
  /-- check 1: header word 0 lacks the mark -/
  | mark
  /-- check 2: NLSID above 32 -/
  | tooManyLsids
  /-- check 3: a reserved FLAGS bit -/
  | flags
  /-- check 4: an SMASK bit at NLSID or above -/
  | smaskHigh
  /-- check 5: a reserved opcode -/
  | opcode
  /-- check 6: PM = 11 -/
  | pm
  /-- check 7: a predicate on an instruction with three data inputs -/
  | pmThree
  /-- check 8: a malformed target -/
  | target
  /-- check 9: T0 and T1 name one slot -/
  | sameTarget
  /-- check 10: a reserved field is not 0, or a target where nothing is sent -/
  | reserved
  /-- check 11: a register that the file lacks -/
  | register
  /-- check 12: an LSID at NLSID or above, or used twice -/
  | lsid
  /-- check 13: RLX where R64 forbids it -/
  | rlx
  /-- check 14: a limit of the instruction's description -/
  | limit
  /-- check 15: the number of format-M words differs from NLSID -/
  | lsidCount
  /-- check 16: the number of PUT words differs from NPUT -/
  | putCount
  /-- check 17: SMASK differs from the set of R274 -/
  | smaskSet
  /-- check 18: no exit -/
  | noExit
  deriving DecidableEq, Repr

/-- The number of a check (R277), as TRAP.INFO reports it (R278). -/
def Reject.number : Reject → Nat
  | .mark => 1 | .tooManyLsids => 2 | .flags => 3 | .smaskHigh => 4 | .opcode => 5 | .pm => 6
  | .pmThree => 7 | .target => 8 | .sameTarget => 9 | .reserved => 10 | .register => 11
  | .lsid => 12 | .rlx => 13 | .limit => 14 | .lsidCount => 15 | .putCount => 16
  | .smaskSet => 17 | .noExit => 18

/-- A word cut into OP, PM, T0, T1 and I8 (R267, R270 format A). -/
structure Raw where
  op : Nat
  pm : Nat
  t0 : Nat
  t1 : Nat
  i8 : Nat
  deriving DecidableEq, Repr

/-- Cut a word (R267, R270). -/
def Raw.split (w : Nat) : Raw :=
  { op := fld w 24 8, pm := fld w 22 2, t0 := fld w 15 7, t1 := fld w 8 7, i8 := fld w 0 8 }

/-- Join the five fields into the word. -/
def Raw.word (r : Raw) : Nat :=
  r.op * 16777216 + r.pm * 4194304 + r.t0 * 32768 + r.t1 * 256 + r.i8

/-- LSID of format M (R270). -/
def Raw.lsid (r : Raw) : Nat := r.t1 / 4
/-- RLX of format M. -/
def Raw.rlx (r : Raw) : Nat := r.t1 / 2 % 2
/-- I15 of format B. -/
def Raw.i15 (r : Raw) : Nat := r.t1 * 256 + r.i8
/-- EXN of format X. -/
def Raw.exn (r : Raw) : Nat := r.t0 / 2
/-- OFF16 of format X. -/
def Raw.off16 (r : Raw) : Nat := r.t0 % 2 * 32768 + r.t1 * 256 + r.i8
/-- D of format Q. -/
def Raw.d (r : Raw) : Nat := r.t1 / 16
/-- A of format Q. -/
def Raw.a (r : Raw) : Nat := r.t1 / 2 % 8
/-- B of format Q. -/
def Raw.b (r : Raw) : Nat := r.t1 % 2 * 4 + r.i8 / 64
/-- MOD of format Q. -/
def Raw.mod (r : Raw) : Nat := r.i8 % 64
/-- The 22 bits below PM. -/
def Raw.low (r : Raw) : Nat := r.t0 * 32768 + r.t1 * 256 + r.i8

/-- The six formats (R270). -/
inductive Format where
  | A | B | G | M | X | Q
  deriving DecidableEq, Repr

/-- Row 0 of the grid (R280). -/
def gridRow0 : List (Option Format) :=
  [none, some .G, some .G, some .B, some .B, some .A, some .A, some .A,
   some .X, some .A, some .X, some .A, some .X, some .A, none, none]

/-- Row 1 of the grid (R280). -/
def gridRow1 : List (Option Format) :=
  [some .A, some .A, some .A, some .A, some .A, some .A, some .A, some .A,
   some .A, some .A, some .A, some .A, some .A, some .A, some .A, some .A]

/-- Row 2 of the grid (R280). -/
def gridRow2 : List (Option Format) :=
  [some .A, some .A, some .A, some .A, some .A, some .A, some .A, some .A,
   some .A, some .A, some .A, some .A, some .A, some .A, some .A, some .A]

/-- Row 3 of the grid (R280). -/
def gridRow3 : List (Option Format) :=
  [some .A, some .A, some .A, some .A, some .A, some .A, some .A, some .A,
   some .A, some .A, some .A, some .A, some .A, some .A, some .A, some .A]

/-- Row 4 of the grid (R280). -/
def gridRow4 : List (Option Format) :=
  [some .A, some .A, some .A, some .A, some .A, some .A, some .A, some .A,
   some .A, some .A, some .A, some .A, some .A, some .A, some .A, some .A]

/-- Row 5 of the grid (R280). -/
def gridRow5 : List (Option Format) :=
  [some .A, some .A, some .A, some .A, some .A, some .A, some .A, some .A,
   none, none, none, none, none, none, none, none]

/-- Row 6 of the grid (R280). -/
def gridRow6 : List (Option Format) :=
  [some .M, some .M, some .M, some .M, some .M, some .M, some .M, some .M,
   some .M, some .M, some .M, some .M, some .M, some .M, some .M, some .M]

/-- Row 7 of the grid (R280). -/
def gridRow7 : List (Option Format) :=
  [some .M, some .M, some .M, some .M, some .M, some .M, some .M, some .M,
   some .M, some .M, some .M, some .M, some .M, some .M, some .M, some .M]

/-- Row 8 of the grid (R280). -/
def gridRow8 : List (Option Format) :=
  [some .M, some .M, some .A, some .A, some .A, some .A, some .M, some .M,
   some .M, some .M, some .M, some .M, some .M, some .M, some .A, some .A]

/-- Row 9 of the grid (R280). -/
def gridRow9 : List (Option Format) :=
  [some .A, some .A, some .A, some .A, some .A, some .A, some .A, some .A,
   some .A, some .A, some .A, some .A, some .A, some .A, some .A, none]

/-- Row A of the grid (R280). -/
def gridRowA : List (Option Format) :=
  [some .Q, some .Q, some .Q, some .Q, some .Q, some .Q, some .Q, some .Q,
   some .Q, some .Q, some .Q, some .Q, some .Q, some .Q, some .Q, none]

/-- Row B of the grid (R280). -/
def gridRowB : List (Option Format) :=
  [some .Q, some .Q, some .Q, some .Q, some .Q, some .Q, some .Q, some .Q,
   some .Q, none, none, none, none, none, none, none]

/-- Row C of the grid (R280). -/
def gridRowC : List (Option Format) :=
  [some .M, some .M, some .M, some .M, some .A, some .A, some .A, some .A,
   none, none, none, none, none, none, none, none]

/-- Row D of the grid (R280). -/
def gridRowD : List (Option Format) :=
  [none, none, none, none, none, none, none, none,
   none, none, none, none, none, none, none, none]

/-- Row E of the grid (R280). -/
def gridRowE : List (Option Format) :=
  [some .A, some .A, some .A, some .A, some .A, some .A, some .A, some .A,
   some .A, some .A, some .A, some .A, none, none, none, none]

/-- Row F of the grid (R280). -/
def gridRowF : List (Option Format) :=
  [none, none, none, none, none, none, none, none,
   none, none, none, none, none, none, none, none]

/-- The grid of R280: the format of each assigned opcode. -/
def grid : List (Option Format) :=
  gridRow0 ++ gridRow1 ++ gridRow2 ++ gridRow3 ++ gridRow4 ++ gridRow5 ++ gridRow6 ++ gridRow7 ++
  gridRow8 ++ gridRow9 ++ gridRowA ++ gridRowB ++ gridRowC ++ gridRowD ++ gridRowE ++ gridRowF

/-- The format of an opcode, none for a reserved cell (R280, R281). -/
def formatOf (op : Nat) : Option Format := (grid[op]?).getD none

/-- Fields of row 0 that must be 0 (check 10 of R277). -/
def reservedRow0 : List Nat :=
  [0x000000, 0x0000C0, 0x3FFFC0, 0x000000, 0x000000, 0x0000FF, 0x0000FF, 0x000000,
   0x000000, 0x3FFFC0, 0x000000, 0x3FFFC0, 0x00FFFF, 0x3FFF00, 0x000000, 0x000000]

/-- Fields of row 1 that must be 0 (check 10 of R277). -/
def reservedRow1 : List Nat :=
  [0x00007F, 0x00007F, 0x000000, 0x00007F, 0x00007F, 0x00007F, 0x00007F, 0x00007F,
   0x00007F, 0x00007F, 0x00007F, 0x00007F, 0x00007F, 0x00007F, 0x000000, 0x00007F]

/-- Fields of row 2 that must be 0 (check 10 of R277). -/
def reservedRow2 : List Nat :=
  [0x00007F, 0x00007F, 0x00007F, 0x000040, 0x000040, 0x000040, 0x00007F, 0x00007F,
   0x00007F, 0x00007F, 0x00007F, 0x00007F, 0x00007F, 0x00007F, 0x000080, 0x000000]

/-- Fields of row 3 that must be 0 (check 10 of R277). -/
def reservedRow3 : List Nat :=
  [0x00007F, 0x00007F, 0x00007F, 0x00007F, 0x000078, 0x0000FF, 0x0000C0, 0x0000C0,
   0x000040, 0x0000FF, 0x0000FF, 0x00007F, 0x0000F0, 0x0000F0, 0x0000F0, 0x0000F8]

/-- Fields of row 4 that must be 0 (check 10 of R277). -/
def reservedRow4 : List Nat :=
  [0x000078, 0x000078, 0x000078, 0x000078, 0x00007F, 0x00007F, 0x00004F, 0x00000F,
   0x000000, 0x000078, 0x000018, 0x000018, 0x00007F, 0x000078, 0x000078, 0x000078]

/-- Fields of row 5 that must be 0 (check 10 of R277). -/
def reservedRow5 : List Nat :=
  [0x000078, 0x000078, 0x000078, 0x000078, 0x000078, 0x000078, 0x000078, 0x000000,
   0x000000, 0x000000, 0x000000, 0x000000, 0x000000, 0x000000, 0x000000, 0x000000]

/-- Fields of row 6 that must be 0 (check 10 of R277). -/
def reservedRow6 : List Nat :=
  [0x000100, 0x000100, 0x000100, 0x000100, 0x000100, 0x000100, 0x000100, 0x000100,
   0x3F8100, 0x3F8100, 0x3F8100, 0x3F8100, 0x3F8100, 0x000300, 0x3F8300, 0x000300]

/-- Fields of row 7 that must be 0 (check 10 of R277). -/
def reservedRow7 : List Nat :=
  [0x3F8300, 0x3F8300, 0x000300, 0x3F83F0, 0x000140, 0x000340, 0x3F8340, 0x3F8340,
   0x000340, 0x000340, 0x000300, 0x000300, 0x000300, 0x3F8300, 0x3F8300, 0x000300]

/-- Fields of row 8 that must be 0 (check 10 of R277). -/
def reservedRow8 : List Nat :=
  [0x3F8300, 0x3F83F8, 0x0000F8, 0x0000F0, 0x0000FF, 0x0000FF, 0x3F83F0, 0x3F83F0,
   0x3F83F0, 0x3F83F0, 0x0003FF, 0x3F83F7, 0x3F83FC, 0x3F83C0, 0x0000FF, 0x0000FF]

/-- Fields of row 9 that must be 0 (check 10 of R277). -/
def reservedRow9 : List Nat :=
  [0x0000FC, 0x000000, 0x0000FF, 0x0000FF, 0x0000FF, 0x0000FF, 0x0000F8, 0x0000FF,
   0x0000FF, 0x3FFFC0, 0x0000FF, 0x0000FF, 0x0000FC, 0x0000FE, 0x0000FE, 0x000000]

/-- Fields of row A that must be 0 (check 10 of R277). -/
def reservedRowA : List Nat :=
  [0x000FFF, 0x0071FF, 0x000FFF, 0x0001FF, 0x000000, 0x000000, 0x000000, 0x000000,
   0x000FFE, 0x000FFE, 0x000000, 0x0001F0, 0x0001C0, 0x007FFF, 0x007FFF, 0x000000]

/-- Fields of row B that must be 0 (check 10 of R277). -/
def reservedRowB : List Nat :=
  [0x000FFE, 0x0071FF, 0x0001FF, 0x000FF8, 0x000FFE, 0x000FFF, 0x007FFF, 0x007FFF,
   0x000FF8, 0x000000, 0x000000, 0x000000, 0x000000, 0x000000, 0x000000, 0x000000]

/-- Fields of row C that must be 0 (check 10 of R277). -/
def reservedRowC : List Nat :=
  [0x000100, 0x3F8300, 0x000340, 0x3F8340, 0x0000FF, 0x0000FE, 0x007F00, 0x0000E0,
   0x000000, 0x000000, 0x000000, 0x000000, 0x000000, 0x000000, 0x000000, 0x000000]

/-- Fields of row D that must be 0 (check 10 of R277). -/
def reservedRowD : List Nat :=
  [0, 0, 0, 0, 0, 0, 0, 0,
   0, 0, 0, 0, 0, 0, 0, 0]

/-- Fields of row E that must be 0 (check 10 of R277). -/
def reservedRowE : List Nat :=
  [0x000000, 0x3FFF00, 0x3FFFFE, 0x0000FF, 0x0000C0, 0x0000FF, 0x0000FF, 0x0000FF,
   0x0000FF, 0x0000FE, 0x0000FE, 0x0000FF, 0x000000, 0x000000, 0x000000, 0x000000]

/-- Fields of row F that must be 0 (check 10 of R277). -/
def reservedRowF : List Nat :=
  [0, 0, 0, 0, 0, 0, 0, 0,
   0, 0, 0, 0, 0, 0, 0, 0]

/-- The bits below PM that an opcode leaves reserved, targets of instructions that send nothing
among them (check 10 of R277; R270, R271 and the descriptions). -/
def reservedTable : List Nat :=
  reservedRow0 ++ reservedRow1 ++ reservedRow2 ++ reservedRow3 ++ reservedRow4 ++ reservedRow5 ++
  reservedRow6 ++ reservedRow7 ++ reservedRow8 ++ reservedRow9 ++ reservedRowA ++ reservedRowB ++
  reservedRowC ++ reservedRowD ++ reservedRowE ++ reservedRowF

/-- The reserved bits of an opcode. RLX, bit 9 of a format-M word, is no reserved field: check 13 is its own
(R277). -/
def reservedOf (op : Nat) : Nat :=
  let m := (reservedTable[op]?).getD 0
  if formatOf op = some .M then Nat.land m 0x3FFDFF else m

/-- The nine opcodes with three data inputs (R282). -/
def threeInputs (op : Nat) : Bool :=
  op == 0x1E || op == 0x26 || op == 0x27 || op == 0x35 || op == 0x39 || op == 0x43 || op == 0x55 ||
  op == 0x6C || op == 0x78

/-- Format-M opcodes on which RLX = 1 is permitted (R64, R321, R325, R354). -/
def rlxAllowed (op : Nat) : Bool := (0x60 ≤ op && op ≤ 0x6C) || op == 0x74 || op == 0xC0

/-- Opcodes whose LSIDs stand in SMASK: the commit-time operations, copies, LZSEND, LZARM and LZFREE
(R64, R274). -/
def smaskOp (op : Nat) : Bool :=
  (0x68 ≤ op && op ≤ 0x6C) || op == 0x70 || op == 0x71 || op == 0x74 || op == 0x76 || op == 0x77 ||
  op == 0x7D || op == 0x7E || op == 0x80 || op == 0x81 || (0x86 ≤ op && op ≤ 0x89) ||
  (0x8B ≤ op && op ≤ 0x8D) || op == 0xC1 || op == 0xC3

/-- The seven exits (R275). -/
def exitOp (op : Nat) : Bool := (0x08 ≤ op && op ≤ 0x0D) || op == 0x99

/-- The code of an operand slot (R268). -/
def Side.code : Side → Nat | .left => 1 | .right => 2 | .third => 3

/-- The 7 bits of a target field (R268). -/
def Tgt.code : Tgt → Nat
  | .none => 0
  | .to sd i => sd.code * 32 + i.toNat

/-- A target field's meaning; SLOT 00 is none (R268). -/
def Tgt.ofCode (c : Nat) : Tgt :=
  match c / 32 with
  | 1 => .to .left (BitVec.ofNat 5 c)
  | 2 => .to .right (BitVec.ofNat 5 c)
  | 3 => .to .third (BitVec.ofNat 5 c)
  | _ => .none

/-- The code of a `Pred`. -/
def Pred.code : Pred → Nat
  | .always => 0 | .onTrue => 1 | .onFalse => 2

/-- The `Pred` of a code. -/
def Pred.ofCode : Nat → Option Pred
  | 0 => some .always | 1 => some .onTrue | 2 => some .onFalse | _ => none

/-- The code of a `Width`. -/
def Width.code : Width → Nat
  | .w64 => 0 | .w32 => 1

/-- The `Width` of a code. -/
def Width.ofCode : Nat → Width
  | 0 => .w64 | _ => .w32

/-- The code of a `FForm`. -/
def FForm.code : FForm → Nat
  | .e11m52 => 0 | .e8m23 => 1

/-- The `FForm` of a code. -/
def FForm.ofCode : Nat → FForm
  | 0 => .e11m52 | _ => .e8m23

/-- The code of a `Cond`. -/
def Cond.code : Cond → Nat
  | .eq => 0 | .ne => 1 | .lt => 2 | .le => 3 | .ltu => 4 | .leu => 5

/-- The `Cond` of a code. -/
def Cond.ofCode : Nat → Option Cond
  | 0 => some .eq | 1 => some .ne | 2 => some .lt | 3 => some .le | 4 => some .ltu | 5 => some .leu | _ => none

/-- The code of a `FCond`. -/
def FCond.code : FCond → Nat
  | .eq => 0 | .lt => 1 | .le => 2 | .un => 3 | .ne => 4

/-- The `FCond` of a code. -/
def FCond.ofCode : Nat → Option FCond
  | 0 => some .eq | 1 => some .lt | 2 => some .le | 3 => some .un | 4 => some .ne | _ => none

/-- The code of a `SgnOp`. -/
def SgnOp.code : SgnOp → Nat
  | .copy => 0 | .neg => 1 | .xor => 2

/-- The `SgnOp` of a code. -/
def SgnOp.ofCode : Nat → Option SgnOp
  | 0 => some .copy | 1 => some .neg | 2 => some .xor | _ => none

/-- The code of a `IntTy`. -/
def IntTy.code : IntTy → Nat
  | .s64 => 0 | .u64 => 1 | .s32 => 2 | .u32 => 3

/-- The `IntTy` of a code. -/
def IntTy.ofCode : Nat → IntTy
  | 0 => .s64 | 1 => .u64 | 2 => .s32 | _ => .u32

/-- The code of a `Partner`. -/
def Partner.code : Partner → Nat
  | .other => 0 | .e8m10 => 1 | .e5m10 => 2 | .e8m7 => 3 | .e4m3 => 4 | .e5m2 => 5 | .e3m2 => 6 | .e2m3 => 7

/-- The `Partner` of a code. -/
def Partner.ofCode : Nat → Partner
  | 0 => .other | 1 => .e8m10 | 2 => .e5m10 | 3 => .e8m7 | 4 => .e4m3 | 5 => .e5m2 | 6 => .e3m2 | _ => .e2m3

/-- The code of a `VPartner`. -/
def VPartner.code : VPartner → Nat
  | .e5m10 => 0 | .e8m7 => 1 | .e4m3 => 2 | .e5m2 => 3 | .e3m2 => 4 | .e2m3 => 5 | .e2m1 => 6

/-- The `VPartner` of a code. -/
def VPartner.ofCode : Nat → Option VPartner
  | 0 => some .e5m10 | 1 => some .e8m7 | 2 => some .e4m3 | 3 => some .e5m2 | 4 => some .e3m2 | 5 => some .e2m3 | 6 => some .e2m1 | _ => none

/-- The code of a `InsLen`. -/
def InsLen.code : InsLen → Nat
  | .bit => 0 | .byte => 1 | .half => 2 | .word => 3

/-- The `InsLen` of a code. -/
def InsLen.ofCode : Nat → InsLen
  | 0 => .bit | 1 => .byte | 2 => .half | _ => .word

/-- The code of a `PMode`. -/
def PMode.code : PMode → Nat
  | .wrap => 0 | .signedSat => 1 | .unsignedSat => 2

/-- The `PMode` of a code. -/
def PMode.ofCode : Nat → Option PMode
  | 0 => some .wrap | 1 => some .signedSat | 2 => some .unsignedSat | _ => none

/-- The code of a `Lanes`. -/
def Lanes.code : Lanes → Nat
  | .l8 => 0 | .l16 => 1 | .l32 => 2

/-- The `Lanes` of a code. -/
def Lanes.ofCode : Nat → Option Lanes
  | 0 => some .l8 | 1 => some .l16 | 2 => some .l32 | _ => none

/-- The code of a `Scope`. -/
def Scope.code : Scope → Nat
  | .slot => 0 | .core => 1 | .clus => 2 | .die => 3 | .mod => 4 | .tier => 5 | .grp => 6 | .fab => 7 | .host => 8 | .hood => 9 | .zone => 10 | .eng => 11

/-- The `Scope` of a code. -/
def Scope.ofCode : Nat → Option Scope
  | 0 => some .slot | 1 => some .core | 2 => some .clus | 3 => some .die | 4 => some .mod | 5 => some .tier | 6 => some .grp | 7 => some .fab | 8 => some .host | 9 => some .hood | 10 => some .zone | 11 => some .eng | _ => none

/-- The code of a `ElemMode`. -/
def ElemMode.code : ElemMode → Nat
  | .home => 0 | .local => 1 | .colour => 2 | .stall => 3 | .handle => 4

/-- The `ElemMode` of a code. -/
def ElemMode.ofCode : Nat → Option ElemMode
  | 0 => some .home | 1 => some .local | 2 => some .colour | 3 => some .stall | 4 => some .handle | _ => none

/-- The code of a `RankMode`. -/
def RankMode.code : RankMode → Nat
  | .rank => 0 | .size => 1 | .index => 2

/-- The `RankMode` of a code. -/
def RankMode.ofCode : Nat → Option RankMode
  | 0 => some .rank | 1 => some .size | 2 => some .index | _ => none

/-- The code of a `CollTy`. -/
def CollTy.code : CollTy → Nat
  | .e11m52 => 0 | .e8m23 => 1 | .s64 => 2 | .s32 => 3

/-- The `CollTy` of a code. -/
def CollTy.ofCode : Nat → CollTy
  | 0 => .e11m52 | 1 => .e8m23 | 2 => .s64 | _ => .s32

/-- The code of a `CollOp`. -/
def CollOp.code : CollOp → Nat
  | .add => 0 | .min => 1 | .max => 2

/-- The `CollOp` of a code. -/
def CollOp.ofCode : Nat → Option CollOp
  | 0 => some .add | 1 => some .min | 2 => some .max | _ => none

/-- The code of a `AccKind`. -/
def AccKind.code : AccKind → Nat
  | .e8m23 => 0 | .pair => 1 | .s32 => 2

/-- The `AccKind` of a code. -/
def AccKind.ofCode : Nat → Option AccKind
  | 0 => some .e8m23 | 1 => some .pair | 2 => some .s32 | _ => none

/-- The code of a `RedOp`. -/
def RedOp.code : RedOp → Nat
  | .sum => 0 | .max => 1 | .min => 2

/-- The `RedOp` of a code. -/
def RedOp.ofCode : Nat → Option RedOp
  | 0 => some .sum | 1 => some .max | 2 => some .min | _ => none

/-- The code of a `Rounding`. -/
def Rounding.code : Rounding → Nat
  | .rne => 0 | .rz => 1 | .ru => 2 | .rd => 3

/-- The `Rounding` of a code. -/
def Rounding.ofCode : Nat → Rounding
  | 0 => .rne | 1 => .rz | 2 => .ru | _ => .rd

/-- I8[2:0] of a floating instruction (R226, R312). -/
def FMode.code : FMode → Nat | .fixed m => m.code | .fpc => 4

/-- I8[2:0] read; 5, 6 and 7 fail check 14 (R312). -/
def FMode.ofCode (c : Nat) : Option FMode :=
  if c < 4 then some (.fixed (Rounding.ofCode c)) else if c = 4 then some .fpc else none

/-- I8 of TEST (R286, R298). -/
def TestMode.code : TestMode → Nat | .nz => 0 | .z => 64 | .neg => 128 | .bit k => 192 + k.toNat

/-- I8 of TEST read; modes 00 to 10 need I8[5:0] = 0 (R298). -/
def TestMode.ofCode (c : Nat) : Option TestMode :=
  if c = 0 then some .nz else if c = 64 then some .z else if c = 128 then some .neg
  else if c / 64 = 3 then some (.bit (BitVec.ofNat 6 c)) else none

/-- MOD[5:3]: RMEN and RM (R246). -/
def MatMode.code : MatMode → Nat | .rneDefault m => m.code | .enabled m => 4 + m.code

/-- MOD[5:3] read (R246). -/
def MatMode.ofCode (c : Nat) : MatMode :=
  if c < 4 then .rneDefault (Rounding.ofCode c) else .enabled (Rounding.ofCode (c - 4))

/-- A one-bit field. -/
def bitField (b : Bool) : Nat := if b then 1 else 0

/-- Row 0 of the grid, field by field (R280; the descriptions of its instructions). -/
def parseRow0 (p : Pred) (x : Raw) : Option Instr :=
  match x.op with
  | 0x01 => some (.get p (.ofCode x.t0) (.ofCode x.t1) (.ofNat _ (x.i8 % 64)))
  | 0x02 => some (.put p (.ofNat _ (x.i8 % 64)))
  | 0x03 => some (.const p (.ofCode x.t0) (.ofNat _ x.i15))
  | 0x04 => some (.consth p (.ofCode x.t0) (.ofNat _ x.i15))
  | 0x05 => some (.mov p (.ofCode x.t0) (.ofCode x.t1))
  | 0x06 => some (.null p (.ofCode x.t0) (.ofCode x.t1))
  | 0x07 => (TestMode.ofCode x.i8).map fun m => .test p (.ofCode x.t0) (.ofCode x.t1) m
  | 0x08 => some (.br p (.ofNat _ x.exn) (.ofNat _ x.off16))
  | 0x09 => some (.brr p (.ofNat _ (x.i8 % 64)))
  | 0x0A => some (.call p (.ofNat _ x.exn) (.ofNat _ x.off16))
  | 0x0B => some (.callr p (.ofNat _ (x.i8 % 64)))
  | 0x0C => some (.done p (.ofNat _ x.exn))
  | 0x0D => some (.trap p (.ofNat _ x.i8))
  | _ => none

/-- Row 1 of the grid, field by field (R280; the descriptions of its instructions). -/
def parseRow1 (p : Pred) (x : Raw) : Option Instr :=
  match x.op with
  | 0x10 => some (.add p (.ofCode x.t0) (.ofCode x.t1) (.ofCode (x.i8 / 128)))
  | 0x11 => some (.sub p (.ofCode x.t0) (.ofCode x.t1) (.ofCode (x.i8 / 128)))
  | 0x12 => some (.addi p (.ofCode x.t0) (.ofCode x.t1) (.ofNat _ x.i8))
  | 0x13 => some (.mul p (.ofCode x.t0) (.ofCode x.t1) (.ofCode (x.i8 / 128)))
  | 0x14 => some (.mulh p (.ofCode x.t0) (.ofCode x.t1) (.ofCode (x.i8 / 128)))
  | 0x15 => some (.mulhu p (.ofCode x.t0) (.ofCode x.t1) (.ofCode (x.i8 / 128)))
  | 0x16 => some (.div p (.ofCode x.t0) (.ofCode x.t1) (.ofCode (x.i8 / 128)))
  | 0x17 => some (.divu p (.ofCode x.t0) (.ofCode x.t1) (.ofCode (x.i8 / 128)))
  | 0x18 => some (.rem p (.ofCode x.t0) (.ofCode x.t1) (.ofCode (x.i8 / 128)))
  | 0x19 => some (.remu p (.ofCode x.t0) (.ofCode x.t1) (.ofCode (x.i8 / 128)))
  | 0x1A => some (.and p (.ofCode x.t0) (.ofCode x.t1) (.ofCode (x.i8 / 128)))
  | 0x1B => some (.or p (.ofCode x.t0) (.ofCode x.t1) (.ofCode (x.i8 / 128)))
  | 0x1C => some (.xor p (.ofCode x.t0) (.ofCode x.t1) (.ofCode (x.i8 / 128)))
  | 0x1D => some (.andn p (.ofCode x.t0) (.ofCode x.t1) (.ofCode (x.i8 / 128)))
  | 0x1E => some (.lut3 (.ofCode x.t0) (.ofCode x.t1) (.ofNat _ x.i8))
  | 0x1F => some (.orn p (.ofCode x.t0) (.ofCode x.t1) (.ofCode (x.i8 / 128)))
  | _ => none

/-- Row 2 of the grid, field by field (R280; the descriptions of its instructions). -/
def parseRow2 (p : Pred) (x : Raw) : Option Instr :=
  match x.op with
  | 0x20 => some (.shl p (.ofCode x.t0) (.ofCode x.t1) (.ofCode (x.i8 / 128)))
  | 0x21 => some (.shr p (.ofCode x.t0) (.ofCode x.t1) (.ofCode (x.i8 / 128)))
  | 0x22 => some (.sar p (.ofCode x.t0) (.ofCode x.t1) (.ofCode (x.i8 / 128)))
  | 0x23 => some (.shli p (.ofCode x.t0) (.ofCode x.t1) (.ofCode (x.i8 / 128)) (.ofNat _ (x.i8 % 64)))
  | 0x24 => some (.shri p (.ofCode x.t0) (.ofCode x.t1) (.ofCode (x.i8 / 128)) (.ofNat _ (x.i8 % 64)))
  | 0x25 => some (.sari p (.ofCode x.t0) (.ofCode x.t1) (.ofCode (x.i8 / 128)) (.ofNat _ (x.i8 % 64)))
  | 0x26 => some (.fshl (.ofCode x.t0) (.ofCode x.t1) (.ofCode (x.i8 / 128)))
  | 0x27 => some (.fshr (.ofCode x.t0) (.ofCode x.t1) (.ofCode (x.i8 / 128)))
  | 0x28 => some (.rol p (.ofCode x.t0) (.ofCode x.t1) (.ofCode (x.i8 / 128)))
  | 0x29 => some (.clz p (.ofCode x.t0) (.ofCode x.t1) (.ofCode (x.i8 / 128)))
  | 0x2A => some (.ctz p (.ofCode x.t0) (.ofCode x.t1) (.ofCode (x.i8 / 128)))
  | 0x2B => some (.popc p (.ofCode x.t0) (.ofCode x.t1) (.ofCode (x.i8 / 128)))
  | 0x2C => some (.brev p (.ofCode x.t0) (.ofCode x.t1) (.ofCode (x.i8 / 128)))
  | 0x2D => some (.bswap p (.ofCode x.t0) (.ofCode x.t1) (.ofCode (x.i8 / 128)))
  | 0x2E => some (.ext p (.ofCode x.t0) (.ofCode x.t1) (((x.i8 / 64) % 2) == 1) (.ofNat _ (x.i8 % 64)))
  | 0x2F => some (.ins p (.ofCode x.t0) (.ofCode x.t1) (.ofCode (x.i8 / 64)) (.ofNat _ (x.i8 % 64)))
  | _ => none

/-- Row 3 of the grid, field by field (R280; the descriptions of its instructions). -/
def parseRow3 (p : Pred) (x : Raw) : Option Instr :=
  match x.op with
  | 0x30 => some (.min p (.ofCode x.t0) (.ofCode x.t1) (.ofCode (x.i8 / 128)))
  | 0x31 => some (.max p (.ofCode x.t0) (.ofCode x.t1) (.ofCode (x.i8 / 128)))
  | 0x32 => some (.minu p (.ofCode x.t0) (.ofCode x.t1) (.ofCode (x.i8 / 128)))
  | 0x33 => some (.maxu p (.ofCode x.t0) (.ofCode x.t1) (.ofCode (x.i8 / 128)))
  | 0x34 => (Cond.ofCode (x.i8 % 8)).map fun c => .cmp p (.ofCode x.t0) (.ofCode x.t1) (.ofCode (x.i8 / 128)) c
  | 0x35 => some (.sel (.ofCode x.t0) (.ofCode x.t1))
  | 0x36 => some (.sext p (.ofCode x.t0) (.ofCode x.t1) (.ofNat _ (x.i8 % 64)))
  | 0x37 => some (.zext p (.ofCode x.t0) (.ofCode x.t1) (.ofNat _ (x.i8 % 64)))
  | 0x38 => some (.lea p (.ofCode x.t0) (.ofCode x.t1) (.ofCode (x.i8 / 128)) (.ofNat _ (x.i8 % 64)))
  | 0x39 => some (.cell (.ofCode x.t0) (.ofCode x.t1))
  | 0x3A => some (.hasha p (.ofCode x.t0) (.ofCode x.t1))
  | 0x3B => some (.absd p (.ofCode x.t0) (.ofCode x.t1) (.ofCode (x.i8 / 128)))
  | 0x3C => (PMode.ofCode ((x.i8 / 4) % 4)).bind fun m => (Lanes.ofCode (x.i8 % 4)).map fun l => .padd p (.ofCode x.t0) (.ofCode x.t1) m l
  | 0x3D => (PMode.ofCode ((x.i8 / 4) % 4)).bind fun m => (Lanes.ofCode (x.i8 % 4)).map fun l => .psub p (.ofCode x.t0) (.ofCode x.t1) m l
  | 0x3E => (PMode.ofCode ((x.i8 / 4) % 4)).bind fun m => (Lanes.ofCode (x.i8 % 4)).map fun l => .pmul p (.ofCode x.t0) (.ofCode x.t1) m l
  | 0x3F => (Lanes.ofCode (x.i8 % 4)).map fun l => .pmax p (.ofCode x.t0) (.ofCode x.t1) (((x.i8 / 4) % 2) == 1) l
  | _ => none

/-- Row 4 of the grid, field by field (R280; the descriptions of its instructions). -/
def parseRow4 (p : Pred) (x : Raw) : Option Instr :=
  match x.op with
  | 0x40 => (FMode.ofCode (x.i8 % 8)).map fun r => .fadd p (.ofCode x.t0) (.ofCode x.t1) (.ofCode (x.i8 / 128)) r
  | 0x41 => (FMode.ofCode (x.i8 % 8)).map fun r => .fsub p (.ofCode x.t0) (.ofCode x.t1) (.ofCode (x.i8 / 128)) r
  | 0x42 => (FMode.ofCode (x.i8 % 8)).map fun r => .fmul p (.ofCode x.t0) (.ofCode x.t1) (.ofCode (x.i8 / 128)) r
  | 0x43 => (FMode.ofCode (x.i8 % 8)).map fun r => .ffma (.ofCode x.t0) (.ofCode x.t1) (.ofCode (x.i8 / 128)) r
  | 0x44 => some (.fmin p (.ofCode x.t0) (.ofCode x.t1) (.ofCode (x.i8 / 128)))
  | 0x45 => some (.fmax p (.ofCode x.t0) (.ofCode x.t1) (.ofCode (x.i8 / 128)))
  | 0x46 => (SgnOp.ofCode ((x.i8 / 16) % 4)).map fun o => .fsgn p (.ofCode x.t0) (.ofCode x.t1) (.ofCode (x.i8 / 128)) o
  | 0x47 => (FCond.ofCode ((x.i8 / 16) % 8)).map fun c => .fcmp p (.ofCode x.t0) (.ofCode x.t1) (.ofCode (x.i8 / 128)) c
  | 0x48 => (FMode.ofCode (x.i8 % 8)).map fun r => .fcvt p (.ofCode x.t0) (.ofCode x.t1) (.ofCode (x.i8 / 128)) (((x.i8 / 64) % 2) == 1) (.ofCode ((x.i8 / 8) % 8)) r
  | 0x49 => (FMode.ofCode (x.i8 % 8)).map fun r => .frnd p (.ofCode x.t0) (.ofCode x.t1) (.ofCode (x.i8 / 128)) r
  | 0x4A => (FMode.ofCode (x.i8 % 8)).map fun r => .ftoi p (.ofCode x.t0) (.ofCode x.t1) (.ofCode (x.i8 / 128)) (.ofCode ((x.i8 / 32) % 4)) r
  | 0x4B => (FMode.ofCode (x.i8 % 8)).map fun r => .itof p (.ofCode x.t0) (.ofCode x.t1) (.ofCode (x.i8 / 128)) (.ofCode ((x.i8 / 32) % 4)) r
  | 0x4C => some (.fclass p (.ofCode x.t0) (.ofCode x.t1) (.ofCode (x.i8 / 128)))
  | 0x4D => (FMode.ofCode (x.i8 % 8)).map fun r => .fscale p (.ofCode x.t0) (.ofCode x.t1) (.ofCode (x.i8 / 128)) r
  | 0x4E => (FMode.ofCode (x.i8 % 8)).map fun r => .frcp p (.ofCode x.t0) (.ofCode x.t1) (.ofCode (x.i8 / 128)) r
  | 0x4F => (FMode.ofCode (x.i8 % 8)).map fun r => .frsq p (.ofCode x.t0) (.ofCode x.t1) (.ofCode (x.i8 / 128)) r
  | _ => none

/-- Row 5 of the grid, field by field (R280; the descriptions of its instructions). -/
def parseRow5 (p : Pred) (x : Raw) : Option Instr :=
  match x.op with
  | 0x50 => (FMode.ofCode (x.i8 % 8)).map fun r => .fexp2s p (.ofCode x.t0) (.ofCode x.t1) (.ofCode (x.i8 / 128)) r
  | 0x51 => (FMode.ofCode (x.i8 % 8)).map fun r => .flog2s p (.ofCode x.t0) (.ofCode x.t1) (.ofCode (x.i8 / 128)) r
  | 0x52 => (FMode.ofCode (x.i8 % 8)).map fun r => .vadd2 p (.ofCode x.t0) (.ofCode x.t1) r
  | 0x53 => (FMode.ofCode (x.i8 % 8)).map fun r => .vsub2 p (.ofCode x.t0) (.ofCode x.t1) r
  | 0x54 => (FMode.ofCode (x.i8 % 8)).map fun r => .vmul2 p (.ofCode x.t0) (.ofCode x.t1) r
  | 0x55 => (FMode.ofCode (x.i8 % 8)).map fun r => .vfma2 (.ofCode x.t0) (.ofCode x.t1) r
  | 0x56 => (FMode.ofCode (x.i8 % 8)).map fun r => .vdot2 p (.ofCode x.t0) (.ofCode x.t1) r
  | 0x57 => (VPartner.ofCode ((x.i8 / 8) % 8)).bind fun q => (FMode.ofCode (x.i8 % 8)).map fun r => .vcvt2 p (.ofCode x.t0) (.ofCode x.t1) (((x.i8 / 64) % 2) == 1) q r
  | _ => none

/-- Row 6 of the grid, field by field (R280; the descriptions of its instructions). -/
def parseRow6 (p : Pred) (x : Raw) : Option Instr :=
  match x.op with
  | 0x60 => some (.ld8 p (.ofCode x.t0) (.ofNat _ x.lsid) (x.rlx == 1) (.ofNat _ x.i8))
  | 0x61 => some (.ld8u p (.ofCode x.t0) (.ofNat _ x.lsid) (x.rlx == 1) (.ofNat _ x.i8))
  | 0x62 => some (.ld16 p (.ofCode x.t0) (.ofNat _ x.lsid) (x.rlx == 1) (.ofNat _ x.i8))
  | 0x63 => some (.ld16u p (.ofCode x.t0) (.ofNat _ x.lsid) (x.rlx == 1) (.ofNat _ x.i8))
  | 0x64 => some (.ld32 p (.ofCode x.t0) (.ofNat _ x.lsid) (x.rlx == 1) (.ofNat _ x.i8))
  | 0x65 => some (.ld32u p (.ofCode x.t0) (.ofNat _ x.lsid) (x.rlx == 1) (.ofNat _ x.i8))
  | 0x66 => some (.ld64 p (.ofCode x.t0) (.ofNat _ x.lsid) (x.rlx == 1) (.ofNat _ x.i8))
  | 0x67 => some (.ld128 p (.ofCode x.t0) (.ofNat _ x.lsid) (x.rlx == 1) (.ofNat _ x.i8))
  | 0x68 => some (.st8 p (.ofNat _ x.lsid) (x.rlx == 1) (.ofNat _ x.i8))
  | 0x69 => some (.st16 p (.ofNat _ x.lsid) (x.rlx == 1) (.ofNat _ x.i8))
  | 0x6A => some (.st32 p (.ofNat _ x.lsid) (x.rlx == 1) (.ofNat _ x.i8))
  | 0x6B => some (.st64 p (.ofNat _ x.lsid) (x.rlx == 1) (.ofNat _ x.i8))
  | 0x6C => some (.st128 (.ofNat _ x.lsid) (x.rlx == 1) (.ofNat _ x.i8))
  | 0x6D => some (.ldsync p (.ofCode x.t0) (.ofNat _ x.lsid) (.ofNat _ x.i8))
  | 0x6E => some (.stsync p (.ofNat _ x.lsid) (.ofNat _ x.i8))
  | 0x6F => some (.ldff p (.ofCode x.t0) (.ofNat _ x.lsid) (.ofNat _ x.i8))
  | _ => none

/-- Row 7 of the grid, field by field (R280; the descriptions of its instructions). -/
def parseRow7 (p : Pred) (x : Raw) : Option Instr :=
  match x.op with
  | 0x70 => some (.stff p (.ofNat _ x.lsid) (.ofNat _ x.i8))
  | 0x71 => some (.sete p (.ofNat _ x.lsid) (.ofNat _ x.i8))
  | 0x72 => some (.festat p (.ofCode x.t0) (.ofNat _ x.lsid) (.ofNat _ x.i8))
  | 0x73 => (Scope.ofCode (x.i8 % 16)).map fun sc => .fence p (.ofNat _ x.lsid) sc
  | 0x74 => some (.amadd p (.ofCode x.t0) (.ofNat _ x.lsid) (x.rlx == 1) (.ofCode (x.i8 / 128)) (.ofNat _ (x.i8 % 64)))
  | 0x75 => some (.rsv p (.ofCode x.t0) (.ofNat _ x.lsid) (.ofCode (x.i8 / 128)) (.ofNat _ (x.i8 % 64)))
  | 0x76 => some (.rel p (.ofNat _ x.lsid) (.ofCode (x.i8 / 128)) (.ofNat _ (x.i8 % 64)))
  | 0x77 => some (.reln p (.ofNat _ x.lsid) (.ofCode (x.i8 / 128)) (.ofNat _ (x.i8 % 64)))
  | 0x78 => some (.cas (.ofCode x.t0) (.ofNat _ x.lsid) (.ofCode (x.i8 / 128)) (.ofNat _ (x.i8 % 64)))
  | 0x79 => some (.swap p (.ofCode x.t0) (.ofNat _ x.lsid) (.ofCode (x.i8 / 128)) (.ofNat _ (x.i8 % 64)))
  | 0x7A => some (.amin p (.ofCode x.t0) (.ofNat _ x.lsid) (.ofCode (x.i8 / 128)) (((x.i8 / 64) % 2) == 1) (.ofNat _ (x.i8 % 64)))
  | 0x7B => some (.amax p (.ofCode x.t0) (.ofNat _ x.lsid) (.ofCode (x.i8 / 128)) (((x.i8 / 64) % 2) == 1) (.ofNat _ (x.i8 % 64)))
  | 0x7C => some (.mwait p (.ofCode x.t0) (.ofNat _ x.lsid) (.ofNat _ x.i8))
  | 0x7D => some (.barj p (.ofNat _ x.lsid) (.ofNat _ x.i8))
  | 0x7E => some (.bara p (.ofNat _ x.lsid) (.ofNat _ x.i8))
  | 0x7F => some (.barw p (.ofCode x.t0) (.ofNat _ x.lsid) (.ofNat _ x.i8))
  | _ => none

/-- Row 8 of the grid, field by field (R280; the descriptions of its instructions). -/
def parseRow8 (p : Pred) (x : Raw) : Option Instr :=
  match x.op with
  | 0x80 => some (.barx p (.ofNat _ x.lsid) (.ofNat _ x.i8))
  | 0x81 => some (.phase p (.ofNat _ x.lsid) (.ofNat _ (x.i8 % 8)))
  | 0x82 => some (.tlwait p (.ofCode x.t0) (.ofCode x.t1) (.ofNat _ (x.i8 % 8)))
  | 0x83 => some (.tlrd p (.ofCode x.t0) (.ofCode x.t1) (((x.i8 / 8) % 2) == 1) (.ofNat _ (x.i8 % 8)))
  | 0x84 => some (.mbxw p (.ofCode x.t0) (.ofCode x.t1))
  | 0x85 => some (.mbxr p (.ofCode x.t0) (.ofCode x.t1))
  | 0x86 => some (.cpy p (.ofNat _ x.lsid) (((x.i8 / 8) % 2) == 1) (.ofNat _ (x.i8 % 8)))
  | 0x87 => some (.cpyx p (.ofNat _ x.lsid) (((x.i8 / 8) % 2) == 1) (.ofNat _ (x.i8 % 8)))
  | 0x88 => some (.cpyt p (.ofNat _ x.lsid) (((x.i8 / 8) % 2) == 1) (.ofNat _ (x.i8 % 8)))
  | 0x89 => some (.cpys p (.ofNat _ x.lsid) (((x.i8 / 8) % 2) == 1) (.ofNat _ (x.i8 % 8)))
  | 0x8A => some (.lzrsv p (.ofCode x.t0) (.ofNat _ x.lsid))
  | 0x8B => some (.lzsend p (.ofNat _ x.lsid) (((x.i8 / 8) % 2) == 1))
  | 0x8C => some (.lzarm p (.ofNat _ x.lsid) (.ofNat _ (x.i8 % 4)))
  | 0x8D => some (.lzfree p (.ofNat _ x.lsid) (.ofNat _ ((x.i8 / 16) % 4)) (.ofNat _ (x.i8 % 16)))
  | 0x8E => some (.qpop p (.ofCode x.t0) (.ofCode x.t1))
  | 0x8F => some (.qpush p (.ofCode x.t0) (.ofCode x.t1))
  | _ => none

/-- Row 9 of the grid, field by field (R280; the descriptions of its instructions). -/
def parseRow9 (p : Pred) (x : Raw) : Option Instr :=
  match x.op with
  | 0x90 => some (.post p (.ofCode x.t0) (.ofCode x.t1) (.ofNat _ (x.i8 % 4)))
  | 0x91 => some (.postc p (.ofCode x.t0) (.ofCode x.t1) (.ofNat _ x.i8))
  | 0x92 => some (.dec p (.ofCode x.t0) (.ofCode x.t1))
  | 0x93 => some (.spawn p (.ofCode x.t0) (.ofCode x.t1))
  | 0x94 => some (.join p (.ofCode x.t0) (.ofCode x.t1))
  | 0x95 => some (.migr p (.ofCode x.t0) (.ofCode x.t1))
  | 0x96 => (ElemMode.ofCode (x.i8 % 8)).map fun m => .elem p (.ofCode x.t0) (.ofCode x.t1) m
  | 0x97 => some (.nbr p (.ofCode x.t0) (.ofCode x.t1))
  | 0x98 => some (.nbrn p (.ofCode x.t0) (.ofCode x.t1))
  | 0x99 => some (.repost p (.ofNat _ (x.i8 % 64)))
  | 0x9A => some (.tretry p (.ofCode x.t0) (.ofCode x.t1))
  | 0x9B => some (.tdrop p (.ofCode x.t0) (.ofCode x.t1))
  | 0x9C => some (.prio p (.ofCode x.t0) (.ofCode x.t1) (.ofNat _ (x.i8 % 4)))
  | 0x9D => if x.i8 = 0 then some (.colourCur p (.ofCode x.t0) (.ofCode x.t1)) else some (.colourSet p (.ofCode x.t0) (.ofCode x.t1))
  | 0x9E => some (.deadl p (.ofCode x.t0) (.ofCode x.t1) ((x.i8 % 2) == 1))
  | _ => none

/-- Row A of the grid, field by field (R280; the descriptions of its instructions). -/
def parseRowA (p : Pred) (x : Raw) : Option Instr :=
  match x.op with
  | 0xA0 => some (.tld p (.ofCode x.t0) (.ofNat _ x.d))
  | 0xA1 => some (.tst p (.ofCode x.t0) (.ofNat _ x.a))
  | 0xA2 => some (.tzero p (.ofCode x.t0) (.ofNat _ x.d))
  | 0xA3 => some (.ttrn p (.ofCode x.t0) (.ofNat _ x.d) (.ofNat _ x.a))
  | 0xA4 => some (.mma p (.ofCode x.t0) (.ofNat _ x.d) (.ofNat _ x.a) (.ofNat _ x.b) (.ofNat _ (x.i8 % 64)))
  | 0xA5 => some (.mmas p (.ofCode x.t0) (.ofNat _ x.d) (.ofNat _ x.a) (.ofNat _ x.b) (.ofNat _ (x.i8 % 64)))
  | 0xA6 => some (.mmak p (.ofCode x.t0) (.ofNat _ x.d) (.ofNat _ x.a) (.ofNat _ x.b) (.ofNat _ (x.i8 % 64)))
  | 0xA7 => (AccKind.ofCode x.b).map fun b => .accrd p (.ofCode x.t0) (.ofNat _ x.d) (.ofNat _ x.a) b (.ofCode ((x.i8 / 8) % 8))
  | 0xA8 => some (.accz p (.ofCode x.t0) (.ofNat _ x.d) ((x.i8 % 2) == 1))
  | 0xA9 => some (.accld p (.ofCode x.t0) (.ofNat _ x.d) ((x.i8 % 2) == 1))
  | 0xAA => some (.tdeq p (.ofCode x.t0) (.ofNat _ x.d) (.ofNat _ x.a) (.ofNat _ x.b) (.ofNat _ (x.i8 % 64)))
  | 0xAB => some (.topk p (.ofCode x.t0) (.ofNat _ x.d) (.ofNat _ x.a) (((x.i8 / 8) % 2) == 1) (.ofNat _ (x.i8 % 8)))
  | 0xAC => (RedOp.ofCode ((x.i8 / 16) % 4)).map fun o => .tred p (.ofCode x.t0) (.ofNat _ x.d) (.ofNat _ x.a) o (((x.i8 / 8) % 2) == 1) (.ofNat _ (x.i8 % 8))
  | 0xAD => some (.scld p (.ofCode x.t0))
  | 0xAE => some (.scst p (.ofCode x.t0))
  | _ => none

/-- Row B of the grid, field by field (R280; the descriptions of its instructions). -/
def parseRowB (p : Pred) (x : Raw) : Option Instr :=
  match x.op with
  | 0xB0 => some (.gld p (.ofCode x.t0) (.ofNat _ (x.d % 4)) ((x.i8 % 2) == 1))
  | 0xB1 => some (.gst p (.ofCode x.t0) (.ofNat _ (x.a % 4)))
  | 0xB2 => some (.gacc p (.ofCode x.t0) (.ofNat _ (x.d % 4)) (.ofNat _ (x.a % 4)))
  | 0xB3 => some (.gelim p (.ofCode x.t0) (.ofNat _ (x.d % 4)) (.ofNat _ (x.i8 % 8)))
  | 0xB4 => some (.gdamp p (.ofCode x.t0) (.ofNat _ (x.d % 4)) ((x.i8 % 2) == 1))
  | 0xB5 => some (.gsolve p (.ofCode x.t0) (.ofNat _ (x.d % 4)))
  | 0xB6 => some (.gchk p (.ofCode x.t0))
  | 0xB7 => some (.gshift p (.ofCode x.t0))
  | 0xB8 => some (.gzero p (.ofCode x.t0) (.ofNat _ (x.d % 4)) (.ofNat _ (x.i8 % 8)))
  | _ => none

/-- Row C of the grid, field by field (R280; the descriptions of its instructions). -/
def parseRowC (p : Pred) (x : Raw) : Option Instr :=
  match x.op with
  | 0xC0 => some (.rld p (.ofCode x.t0) (.ofNat _ x.lsid) (x.rlx == 1) (.ofNat _ x.i8))
  | 0xC1 => some (.rst p (.ofNat _ x.lsid) (.ofNat _ x.i8))
  | 0xC2 => some (.rat p (.ofCode x.t0) (.ofNat _ x.lsid) (.ofCode (x.i8 / 128)) (.ofNat _ (x.i8 % 64)))
  | 0xC3 => some (.radd p (.ofNat _ x.lsid) (.ofCode (x.i8 / 128)) (.ofNat _ (x.i8 % 64)))
  | 0xC4 => some (.inj p (.ofCode x.t0) (.ofCode x.t1))
  | 0xC5 => if x.i8 = 0 then some (.rcvpTake p (.ofCode x.t0) (.ofCode x.t1)) else some (.rcvpFree p (.ofCode x.t0) (.ofCode x.t1))
  | 0xC6 => (CollOp.ofCode ((x.i8 / 8) % 4)).map fun o => .coll p (.ofCode x.t0) ((x.i8 / 128) == 1) (.ofCode ((x.i8 / 32) % 4)) o (.ofNat _ (x.i8 % 8))
  | 0xC7 => (RankMode.ofCode ((x.i8 / 8) % 4)).map fun m => .rank p (.ofCode x.t0) (.ofCode x.t1) m (.ofNat _ (x.i8 % 8))
  | _ => none

/-- Row E of the grid, field by field (R280; the descriptions of its instructions). -/
def parseRowE (p : Pred) (x : Raw) : Option Instr :=
  match x.op with
  | 0xE0 => some (.mfc p (.ofCode x.t0) (.ofCode x.t1) (.ofNat _ x.i8))
  | 0xE1 => some (.mtc p (.ofNat _ x.i8))
  | 0xE2 => some (.eret p ((x.i8 % 2) == 1))
  | 0xE3 => some (.swaps p (.ofCode x.t0) (.ofCode x.t1))
  | 0xE4 =>
    (Scope.ofCode (x.i8 % 16)).bind fun sc =>
      match x.i8 / 16 with
      | 0 => some (.tlbiPage p (.ofCode x.t0) (.ofCode x.t1) sc)
      | 1 => some (.tlbiAsid p (.ofCode x.t0) (.ofCode x.t1) sc)
      | 2 => some (.tlbiAll p (.ofCode x.t0) (.ofCode x.t1) sc)
      | _ => none
  | 0xE5 => some (.park p (.ofCode x.t0) (.ofCode x.t1))
  | 0xE6 => some (.wake p (.ofCode x.t0) (.ofCode x.t1))
  | 0xE7 => some (.pwrq p (.ofCode x.t0) (.ofCode x.t1))
  | 0xE8 => some (.csync p (.ofCode x.t0) (.ofCode x.t1))
  | 0xE9 => some (.trqpop p (.ofCode x.t0) (.ofCode x.t1) ((x.i8 % 2) == 1))
  | 0xEA => if x.i8 = 0 then some (.kregSeal p (.ofCode x.t0) (.ofCode x.t1)) else some (.kregCheck p (.ofCode x.t0) (.ofCode x.t1))
  | 0xEB => some (.halts p (.ofCode x.t0) (.ofCode x.t1))
  | _ => none

/-- The fields of a word as an instruction, where its codes name one (R280). -/
def Raw.parse (r : Raw) : Option Instr :=
  (Pred.ofCode r.pm).bind fun p =>
    match r.op / 16 with
    | 0 => parseRow0 p r
    | 1 => parseRow1 p r
    | 2 => parseRow2 p r
    | 3 => parseRow3 p r
    | 4 => parseRow4 p r
    | 5 => parseRow5 p r
    | 6 => parseRow6 p r
    | 7 => parseRow7 p r
    | 8 => parseRow8 p r
    | 9 => parseRow9 p r
    | 10 => parseRowA p r
    | 11 => parseRowB p r
    | 12 => parseRowC p r
    | 14 => parseRowE p r
    | _ => none

/-- The fields of an instruction's word (R270 and the descriptions); none for an event, which has no
word. -/
def Instr.raw : Instr → Option Raw
  | .get p t u r => some ⟨0x01, p.code, t.code, u.code, r.toNat⟩
  | .put p r => some ⟨0x02, p.code, 0, 0, r.toNat⟩
  | .const p t k => some ⟨0x03, p.code, t.code, k.toNat / 256, k.toNat % 256⟩
  | .consth p t k => some ⟨0x04, p.code, t.code, k.toNat / 256, k.toNat % 256⟩
  | .mov p t u => some ⟨0x05, p.code, t.code, u.code, 0⟩
  | .null p t u => some ⟨0x06, p.code, t.code, u.code, 0⟩
  | .test p t u m => some ⟨0x07, p.code, t.code, u.code, m.code⟩
  | .br p e s => some ⟨0x08, p.code, e.toNat * 2 + s.toNat / 32768, s.toNat / 256 % 128, s.toNat % 256⟩
  | .brr p e => some ⟨0x09, p.code, 0, 0, e.toNat⟩
  | .call p e s => some ⟨0x0A, p.code, e.toNat * 2 + s.toNat / 32768, s.toNat / 256 % 128, s.toNat % 256⟩
  | .callr p e => some ⟨0x0B, p.code, 0, 0, e.toNat⟩
  | .done p e => some ⟨0x0C, p.code, e.toNat * 2, 0, 0⟩
  | .trap p c => some ⟨0x0D, p.code, 0, 0, c.toNat⟩
  | .add p t u w => some ⟨0x10, p.code, t.code, u.code, w.code * 128⟩
  | .sub p t u w => some ⟨0x11, p.code, t.code, u.code, w.code * 128⟩
  | .addi p t u i => some ⟨0x12, p.code, t.code, u.code, i.toNat⟩
  | .mul p t u w => some ⟨0x13, p.code, t.code, u.code, w.code * 128⟩
  | .mulh p t u w => some ⟨0x14, p.code, t.code, u.code, w.code * 128⟩
  | .mulhu p t u w => some ⟨0x15, p.code, t.code, u.code, w.code * 128⟩
  | .div p t u w => some ⟨0x16, p.code, t.code, u.code, w.code * 128⟩
  | .divu p t u w => some ⟨0x17, p.code, t.code, u.code, w.code * 128⟩
  | .rem p t u w => some ⟨0x18, p.code, t.code, u.code, w.code * 128⟩
  | .remu p t u w => some ⟨0x19, p.code, t.code, u.code, w.code * 128⟩
  | .and p t u w => some ⟨0x1A, p.code, t.code, u.code, w.code * 128⟩
  | .or p t u w => some ⟨0x1B, p.code, t.code, u.code, w.code * 128⟩
  | .xor p t u w => some ⟨0x1C, p.code, t.code, u.code, w.code * 128⟩
  | .andn p t u w => some ⟨0x1D, p.code, t.code, u.code, w.code * 128⟩
  | .lut3 t u i => some ⟨0x1E, 0, t.code, u.code, i.toNat⟩
  | .orn p t u w => some ⟨0x1F, p.code, t.code, u.code, w.code * 128⟩
  | .shl p t u w => some ⟨0x20, p.code, t.code, u.code, w.code * 128⟩
  | .shr p t u w => some ⟨0x21, p.code, t.code, u.code, w.code * 128⟩
  | .sar p t u w => some ⟨0x22, p.code, t.code, u.code, w.code * 128⟩
  | .shli p t u w n => some ⟨0x23, p.code, t.code, u.code, w.code * 128 + n.toNat⟩
  | .shri p t u w n => some ⟨0x24, p.code, t.code, u.code, w.code * 128 + n.toNat⟩
  | .sari p t u w n => some ⟨0x25, p.code, t.code, u.code, w.code * 128 + n.toNat⟩
  | .fshl t u w => some ⟨0x26, 0, t.code, u.code, w.code * 128⟩
  | .fshr t u w => some ⟨0x27, 0, t.code, u.code, w.code * 128⟩
  | .rol p t u w => some ⟨0x28, p.code, t.code, u.code, w.code * 128⟩
  | .clz p t u w => some ⟨0x29, p.code, t.code, u.code, w.code * 128⟩
  | .ctz p t u w => some ⟨0x2A, p.code, t.code, u.code, w.code * 128⟩
  | .popc p t u w => some ⟨0x2B, p.code, t.code, u.code, w.code * 128⟩
  | .brev p t u w => some ⟨0x2C, p.code, t.code, u.code, w.code * 128⟩
  | .bswap p t u w => some ⟨0x2D, p.code, t.code, u.code, w.code * 128⟩
  | .ext p t u signed n => some ⟨0x2E, p.code, t.code, u.code, bitField signed * 64 + n.toNat⟩
  | .ins p t u l n => some ⟨0x2F, p.code, t.code, u.code, l.code * 64 + n.toNat⟩
  | .min p t u w => some ⟨0x30, p.code, t.code, u.code, w.code * 128⟩
  | .max p t u w => some ⟨0x31, p.code, t.code, u.code, w.code * 128⟩
  | .minu p t u w => some ⟨0x32, p.code, t.code, u.code, w.code * 128⟩
  | .maxu p t u w => some ⟨0x33, p.code, t.code, u.code, w.code * 128⟩
  | .cmp p t u w c => some ⟨0x34, p.code, t.code, u.code, w.code * 128 + c.code⟩
  | .sel t u => some ⟨0x35, 0, t.code, u.code, 0⟩
  | .sext p t u n => some ⟨0x36, p.code, t.code, u.code, n.toNat⟩
  | .zext p t u n => some ⟨0x37, p.code, t.code, u.code, n.toNat⟩
  | .lea p t u w n => some ⟨0x38, p.code, t.code, u.code, w.code * 128 + n.toNat⟩
  | .cell t u => some ⟨0x39, 0, t.code, u.code, 0⟩
  | .hasha p t u => some ⟨0x3A, p.code, t.code, u.code, 0⟩
  | .absd p t u w => some ⟨0x3B, p.code, t.code, u.code, w.code * 128⟩
  | .padd p t u m l => some ⟨0x3C, p.code, t.code, u.code, m.code * 4 + l.code⟩
  | .psub p t u m l => some ⟨0x3D, p.code, t.code, u.code, m.code * 4 + l.code⟩
  | .pmul p t u m l => some ⟨0x3E, p.code, t.code, u.code, m.code * 4 + l.code⟩
  | .pmax p t u unsigned l => some ⟨0x3F, p.code, t.code, u.code, bitField unsigned * 4 + l.code⟩
  | .fadd p t u f r => some ⟨0x40, p.code, t.code, u.code, f.code * 128 + r.code⟩
  | .fsub p t u f r => some ⟨0x41, p.code, t.code, u.code, f.code * 128 + r.code⟩
  | .fmul p t u f r => some ⟨0x42, p.code, t.code, u.code, f.code * 128 + r.code⟩
  | .ffma t u f r => some ⟨0x43, 0, t.code, u.code, f.code * 128 + r.code⟩
  | .fmin p t u f => some ⟨0x44, p.code, t.code, u.code, f.code * 128⟩
  | .fmax p t u f => some ⟨0x45, p.code, t.code, u.code, f.code * 128⟩
  | .fsgn p t u f o => some ⟨0x46, p.code, t.code, u.code, f.code * 128 + o.code * 16⟩
  | .fcmp p t u f c => some ⟨0x47, p.code, t.code, u.code, f.code * 128 + c.code * 16⟩
  | .fcvt p t u f fromP q r => some ⟨0x48, p.code, t.code, u.code, f.code * 128 + bitField fromP * 64 + q.code * 8 + r.code⟩
  | .frnd p t u f r => some ⟨0x49, p.code, t.code, u.code, f.code * 128 + r.code⟩
  | .ftoi p t u f y r => some ⟨0x4A, p.code, t.code, u.code, f.code * 128 + y.code * 32 + r.code⟩
  | .itof p t u f y r => some ⟨0x4B, p.code, t.code, u.code, f.code * 128 + y.code * 32 + r.code⟩
  | .fclass p t u f => some ⟨0x4C, p.code, t.code, u.code, f.code * 128⟩
  | .fscale p t u f r => some ⟨0x4D, p.code, t.code, u.code, f.code * 128 + r.code⟩
  | .frcp p t u f r => some ⟨0x4E, p.code, t.code, u.code, f.code * 128 + r.code⟩
  | .frsq p t u f r => some ⟨0x4F, p.code, t.code, u.code, f.code * 128 + r.code⟩
  | .fexp2s p t u f r => some ⟨0x50, p.code, t.code, u.code, f.code * 128 + r.code⟩
  | .flog2s p t u f r => some ⟨0x51, p.code, t.code, u.code, f.code * 128 + r.code⟩
  | .vadd2 p t u r => some ⟨0x52, p.code, t.code, u.code, 128 + r.code⟩
  | .vsub2 p t u r => some ⟨0x53, p.code, t.code, u.code, 128 + r.code⟩
  | .vmul2 p t u r => some ⟨0x54, p.code, t.code, u.code, 128 + r.code⟩
  | .vfma2 t u r => some ⟨0x55, 0, t.code, u.code, 128 + r.code⟩
  | .vdot2 p t u r => some ⟨0x56, p.code, t.code, u.code, 128 + r.code⟩
  | .vcvt2 p t u fromP q r => some ⟨0x57, p.code, t.code, u.code, 128 + bitField fromP * 64 + q.code * 8 + r.code⟩
  | .ld8 p t l rlx o => some ⟨0x60, p.code, t.code, l.toNat * 4 + bitField rlx * 2, o.toNat⟩
  | .ld8u p t l rlx o => some ⟨0x61, p.code, t.code, l.toNat * 4 + bitField rlx * 2, o.toNat⟩
  | .ld16 p t l rlx o => some ⟨0x62, p.code, t.code, l.toNat * 4 + bitField rlx * 2, o.toNat⟩
  | .ld16u p t l rlx o => some ⟨0x63, p.code, t.code, l.toNat * 4 + bitField rlx * 2, o.toNat⟩
  | .ld32 p t l rlx o => some ⟨0x64, p.code, t.code, l.toNat * 4 + bitField rlx * 2, o.toNat⟩
  | .ld32u p t l rlx o => some ⟨0x65, p.code, t.code, l.toNat * 4 + bitField rlx * 2, o.toNat⟩
  | .ld64 p t l rlx o => some ⟨0x66, p.code, t.code, l.toNat * 4 + bitField rlx * 2, o.toNat⟩
  | .ld128 p t l rlx o => some ⟨0x67, p.code, t.code, l.toNat * 4 + bitField rlx * 2, o.toNat⟩
  | .st8 p l rlx o => some ⟨0x68, p.code, 0, l.toNat * 4 + bitField rlx * 2, o.toNat⟩
  | .st16 p l rlx o => some ⟨0x69, p.code, 0, l.toNat * 4 + bitField rlx * 2, o.toNat⟩
  | .st32 p l rlx o => some ⟨0x6A, p.code, 0, l.toNat * 4 + bitField rlx * 2, o.toNat⟩
  | .st64 p l rlx o => some ⟨0x6B, p.code, 0, l.toNat * 4 + bitField rlx * 2, o.toNat⟩
  | .st128 l rlx o => some ⟨0x6C, 0, 0, l.toNat * 4 + bitField rlx * 2, o.toNat⟩
  | .ldsync p t l o => some ⟨0x6D, p.code, t.code, l.toNat * 4, o.toNat⟩
  | .stsync p l o => some ⟨0x6E, p.code, 0, l.toNat * 4, o.toNat⟩
  | .ldff p t l o => some ⟨0x6F, p.code, t.code, l.toNat * 4, o.toNat⟩
  | .stff p l o => some ⟨0x70, p.code, 0, l.toNat * 4, o.toNat⟩
  | .sete p l o => some ⟨0x71, p.code, 0, l.toNat * 4, o.toNat⟩
  | .festat p t l o => some ⟨0x72, p.code, t.code, l.toNat * 4, o.toNat⟩
  | .fence p l sc => some ⟨0x73, p.code, 0, l.toNat * 4, sc.code⟩
  | .amadd p t l rlx w n => some ⟨0x74, p.code, t.code, l.toNat * 4 + bitField rlx * 2, w.code * 128 + n.toNat⟩
  | .rsv p t l w n => some ⟨0x75, p.code, t.code, l.toNat * 4, w.code * 128 + n.toNat⟩
  | .rel p l w n => some ⟨0x76, p.code, 0, l.toNat * 4, w.code * 128 + n.toNat⟩
  | .reln p l w n => some ⟨0x77, p.code, 0, l.toNat * 4, w.code * 128 + n.toNat⟩
  | .cas t l w n => some ⟨0x78, 0, t.code, l.toNat * 4, w.code * 128 + n.toNat⟩
  | .swap p t l w n => some ⟨0x79, p.code, t.code, l.toNat * 4, w.code * 128 + n.toNat⟩
  | .amin p t l w unsigned n => some ⟨0x7A, p.code, t.code, l.toNat * 4, w.code * 128 + bitField unsigned * 64 + n.toNat⟩
  | .amax p t l w unsigned n => some ⟨0x7B, p.code, t.code, l.toNat * 4, w.code * 128 + bitField unsigned * 64 + n.toNat⟩
  | .mwait p t l o => some ⟨0x7C, p.code, t.code, l.toNat * 4, o.toNat⟩
  | .barj p l o => some ⟨0x7D, p.code, 0, l.toNat * 4, o.toNat⟩
  | .bara p l o => some ⟨0x7E, p.code, 0, l.toNat * 4, o.toNat⟩
  | .barw p t l o => some ⟨0x7F, p.code, t.code, l.toNat * 4, o.toNat⟩
  | .barx p l o => some ⟨0x80, p.code, 0, l.toNat * 4, o.toNat⟩
  | .phase p l v => some ⟨0x81, p.code, 0, l.toNat * 4, v.toNat⟩
  | .tlwait p t u c => some ⟨0x82, p.code, t.code, u.code, c.toNat⟩
  | .tlrd p t u issue c => some ⟨0x83, p.code, t.code, u.code, bitField issue * 8 + c.toNat⟩
  | .mbxw p t u => some ⟨0x84, p.code, t.code, u.code, 0⟩
  | .mbxr p t u => some ⟨0x85, p.code, t.code, u.code, 0⟩
  | .cpy p l reuse c => some ⟨0x86, p.code, 0, l.toNat * 4, bitField reuse * 8 + c.toNat⟩
  | .cpyx p l reuse c => some ⟨0x87, p.code, 0, l.toNat * 4, bitField reuse * 8 + c.toNat⟩
  | .cpyt p l reuse c => some ⟨0x88, p.code, 0, l.toNat * 4, bitField reuse * 8 + c.toNat⟩
  | .cpys p l reuse c => some ⟨0x89, p.code, 0, l.toNat * 4, bitField reuse * 8 + c.toNat⟩
  | .lzrsv p t l => some ⟨0x8A, p.code, t.code, l.toNat * 4, 0⟩
  | .lzsend p l reuse => some ⟨0x8B, p.code, 0, l.toNat * 4, bitField reuse * 8⟩
  | .lzarm p l z => some ⟨0x8C, p.code, 0, l.toNat * 4, z.toNat⟩
  | .lzfree p l z s => some ⟨0x8D, p.code, 0, l.toNat * 4, z.toNat * 16 + s.toNat⟩
  | .qpop p t u => some ⟨0x8E, p.code, t.code, u.code, 0⟩
  | .qpush p t u => some ⟨0x8F, p.code, t.code, u.code, 0⟩
  | .post p t u y => some ⟨0x90, p.code, t.code, u.code, y.toNat⟩
  | .postc p t u c => some ⟨0x91, p.code, t.code, u.code, c.toNat⟩
  | .dec p t u => some ⟨0x92, p.code, t.code, u.code, 0⟩
  | .spawn p t u => some ⟨0x93, p.code, t.code, u.code, 0⟩
  | .join p t u => some ⟨0x94, p.code, t.code, u.code, 0⟩
  | .migr p t u => some ⟨0x95, p.code, t.code, u.code, 0⟩
  | .elem p t u m => some ⟨0x96, p.code, t.code, u.code, m.code⟩
  | .nbr p t u => some ⟨0x97, p.code, t.code, u.code, 0⟩
  | .nbrn p t u => some ⟨0x98, p.code, t.code, u.code, 0⟩
  | .repost p e => some ⟨0x99, p.code, 0, 0, e.toNat⟩
  | .tretry p t u => some ⟨0x9A, p.code, t.code, u.code, 0⟩
  | .tdrop p t u => some ⟨0x9B, p.code, t.code, u.code, 0⟩
  | .prio p t u y => some ⟨0x9C, p.code, t.code, u.code, y.toNat⟩
  | .colourCur p t u => some ⟨0x9D, p.code, t.code, u.code, 0⟩
  | .colourSet p t u => some ⟨0x9D, p.code, t.code, u.code, 1⟩
  | .deadl p t u keep => some ⟨0x9E, p.code, t.code, u.code, bitField keep⟩
  | .tld p t d => some ⟨0xA0, p.code, t.code, d.toNat * 16, 0⟩
  | .tst p t a => some ⟨0xA1, p.code, t.code, a.toNat * 2, 0⟩
  | .tzero p t d => some ⟨0xA2, p.code, t.code, d.toNat * 16, 0⟩
  | .ttrn p t d a => some ⟨0xA3, p.code, t.code, d.toNat * 16 + a.toNat * 2, 0⟩
  | .mma p t d a b m => some ⟨0xA4, p.code, t.code, d.toNat * 16 + a.toNat * 2 + b.toNat / 4, b.toNat % 4 * 64 + m.toNat⟩
  | .mmas p t d a b m => some ⟨0xA5, p.code, t.code, d.toNat * 16 + a.toNat * 2 + b.toNat / 4, b.toNat % 4 * 64 + m.toNat⟩
  | .mmak p t d a b m => some ⟨0xA6, p.code, t.code, d.toNat * 16 + a.toNat * 2 + b.toNat / 4, b.toNat % 4 * 64 + m.toNat⟩
  | .accrd p t d a b m => some ⟨0xA7, p.code, t.code, d.toNat * 16 + a.toNat * 2 + b.code / 4, b.code % 4 * 64 + m.code * 8⟩
  | .accz p t d pair => some ⟨0xA8, p.code, t.code, d.toNat * 16, bitField pair⟩
  | .accld p t d pair => some ⟨0xA9, p.code, t.code, d.toNat * 16, bitField pair⟩
  | .tdeq p t d a b m => some ⟨0xAA, p.code, t.code, d.toNat * 16 + a.toNat * 2 + b.toNat / 4, b.toNat % 4 * 64 + m.toNat⟩
  | .topk p t d a mag c => some ⟨0xAB, p.code, t.code, d.toNat * 16 + a.toNat * 2, bitField mag * 8 + c.toNat⟩
  | .tred p t d a o acc c => some ⟨0xAC, p.code, t.code, d.toNat * 16 + a.toNat * 2, o.code * 16 + bitField acc * 8 + c.toNat⟩
  | .scld p t => some ⟨0xAD, p.code, t.code, 0, 0⟩
  | .scst p t => some ⟨0xAE, p.code, t.code, 0, 0⟩
  | .gld p t d prev => some ⟨0xB0, p.code, t.code, d.toNat * 16, bitField prev⟩
  | .gst p t a => some ⟨0xB1, p.code, t.code, a.toNat * 2, 0⟩
  | .gacc p t d a => some ⟨0xB2, p.code, t.code, d.toNat * 16 + a.toNat * 2, 0⟩
  | .gelim p t d m => some ⟨0xB3, p.code, t.code, d.toNat * 16, m.toNat⟩
  | .gdamp p t d fromReg => some ⟨0xB4, p.code, t.code, d.toNat * 16, bitField fromReg⟩
  | .gsolve p t d => some ⟨0xB5, p.code, t.code, d.toNat * 16, 0⟩
  | .gchk p t => some ⟨0xB6, p.code, t.code, 0, 0⟩
  | .gshift p t => some ⟨0xB7, p.code, t.code, 0, 0⟩
  | .gzero p t d m => some ⟨0xB8, p.code, t.code, d.toNat * 16, m.toNat⟩
  | .rld p t l rlx o => some ⟨0xC0, p.code, t.code, l.toNat * 4 + bitField rlx * 2, o.toNat⟩
  | .rst p l o => some ⟨0xC1, p.code, 0, l.toNat * 4, o.toNat⟩
  | .rat p t l w n => some ⟨0xC2, p.code, t.code, l.toNat * 4, w.code * 128 + n.toNat⟩
  | .radd p l w n => some ⟨0xC3, p.code, 0, l.toNat * 4, w.code * 128 + n.toNat⟩
  | .inj p t u => some ⟨0xC4, p.code, t.code, u.code, 0⟩
  | .rcvpTake p t u => some ⟨0xC5, p.code, t.code, u.code, 0⟩
  | .rcvpFree p t u => some ⟨0xC5, p.code, t.code, u.code, 1⟩
  | .coll p t rmSrc y o l => some ⟨0xC6, p.code, t.code, 0, bitField rmSrc * 128 + y.code * 32 + o.code * 8 + l.toNat⟩
  | .rank p t u m l => some ⟨0xC7, p.code, t.code, u.code, m.code * 8 + l.toNat⟩
  | .mfc p t u i => some ⟨0xE0, p.code, t.code, u.code, i.toNat⟩
  | .mtc p i => some ⟨0xE1, p.code, 0, 0, i.toNat⟩
  | .eret p redirect => some ⟨0xE2, p.code, 0, 0, bitField redirect⟩
  | .swaps p t u => some ⟨0xE3, p.code, t.code, u.code, 0⟩
  | .tlbiPage p t u sc => some ⟨0xE4, p.code, t.code, u.code, sc.code⟩
  | .tlbiAsid p t u sc => some ⟨0xE4, p.code, t.code, u.code, 16 + sc.code⟩
  | .tlbiAll p t u sc => some ⟨0xE4, p.code, t.code, u.code, 32 + sc.code⟩
  | .park p t u => some ⟨0xE5, p.code, t.code, u.code, 0⟩
  | .wake p t u => some ⟨0xE6, p.code, t.code, u.code, 0⟩
  | .pwrq p t u => some ⟨0xE7, p.code, t.code, u.code, 0⟩
  | .csync p t u => some ⟨0xE8, p.code, t.code, u.code, 0⟩
  | .trqpop p t u latch => some ⟨0xE9, p.code, t.code, u.code, bitField latch⟩
  | .kregSeal p t u => some ⟨0xEA, p.code, t.code, u.code, 0⟩
  | .kregCheck p t u => some ⟨0xEA, p.code, t.code, u.code, 1⟩
  | .halts p t u => some ⟨0xEB, p.code, t.code, u.code, 0⟩
  | .blockFetch _ => none
  | .commit _ => none
  | .normaliserServiceEnd _ => none
  | .threadEnd _ => none
  | .pageWalkStart _ => none
  | .pageWalkComplete _ => none
  | .tlbiComplete _ => none
  | .memoryRequestArrival _ => none
  | .holdRelease _ => none
  | .requestCancel _ => none
  | .memoryReplyArrival _ => none
  | .nackResend _ => none
  | .notReadyResend _ => none
  | .reservationTimeout _ => none
  | .amaddCombine _ _ => none
  | .amaddReplySplit _ => none
  | .barrierOpArrival _ => none
  | .phaseTreeArrival _ => none
  | .phaseRelease _ => none
  | .mailboxHandoff _ => none
  | .copySubmit _ => none
  | .engineRefusalResubmit _ _ => none
  | .copyRowTransfer _ => none
  | .copyRetire _ => none
  | .trapTake _ => none
  | .trapRecordQueue _ => none
  | .handlerThreadStart _ => none
  | .lzReservation _ => none
  | .landingPacket _ => none
  | .slotLanded _ _ => none
  | .zoneSlotTimeout _ _ => none
  | .senderAbort _ => none
  | .lzfreePerform _ => none
  | .landingSendRetire _ => none
  | .landingAckTimeout _ => none
  | .remoteRequestArrival _ => none
  | .fabricTimeout _ => none
  | .linkStateChange _ _ => none
  | .injSend _ => none
  | .messageArrival _ => none
  | .collectiveResult _ => none
  | .refillStart _ _ => none
  | .refillComplete _ => none
  | .migrationComplete _ => none
  | .spawnChildStart _ => none
  | .matrixOpComplete _ => none
  | .grantPeriod _ => none
  | .thermalThrottle _ _ => none
  | .lqDoor _ _ _ => none
  | .lqRing _ _ _ => none
  | .launchDecision _ => none
  | .reserve _ => none
  | .reserveAnswer _ => none
  | .start _ => none
  | .release _ => none
  | .endedReport _ => none
  | .parlourDispatchAttempt _ => none
  | .parlourRetryTimer _ _ => none
  | .stallWordRequest _ => none
  | .holdReleaseParlour _ => none
  | .quarantineMessage _ => none
  | .colourPhaseStart _ => none
  | .deadlineExpiry _ => none
  | .timeBeacon _ _ => none
  | .patrolScrub _ _ => none
  | .watchdogRestart _ _ => none
  | .watchdogExpiry _ => none
  | .kernelCrashReport _ => none
  | .warmReboot _ => none
  | .reAdoption _ => none
  | .moduleDeclaredLost _ _ => none
  | .coldBoot _ => none
  | .tqBase _ _ => none
  | .resyncGo _ _ => none
  | .controlRegisterWrite _ _ => none
  | .frozenAnnouncement _ _ => none
  | .thawedAnnouncement _ _ => none
  | .holdAnswerArrival _ => none
  | .expertLevelEnable _ _ _ => none

/-- The encoder: the word of an instruction (R270 and the descriptions). -/
def Instr.encode (i : Instr) : Option Nat := i.raw.map Raw.word

/-- What fetch validation knows of the block a word stands in (R277). -/
structure BlockCtx where
  /-- NI -/
  ni : Nat
  /-- the word's own index; a number at 32 or above stands for none -/
  own : Nat
  /-- the size of the slot's register file, 8 × REG (R43) -/
  file : Nat
  /-- NLSID -/
  nlsid : Nat
  /-- LSIDs of words of lower index -/
  used : List Nat
  /-- the opcodes of the block's words; none where the word stands alone -/
  ops : Option (List Nat)
  deriving DecidableEq, Repr

/-- A word on its own: the widest block, the largest file, every LSID free. -/
def BlockCtx.alone : BlockCtx := { ni := 32, own := 32, file := 64, nlsid := 32, used := [], ops := none }

/-- Check 8 on one target field (R277, R268). -/
def badTarget (c : BlockCtx) (code : Nat) : Bool :=
  if code / 32 = 0 then code % 32 != 0 else code % 32 ≥ c.ni || code % 32 == c.own

/-- The target fields of a format (R270). -/
def Raw.targets (r : Raw) : Format → List Nat
  | .A | .G => [r.t0, r.t1]
  | .B | .M | .Q => [r.t0]
  | .X => []

/-- A general register that a file of the given size lacks: g0 to g(size − 2) and g63 exist (R43). -/
def lacksRegister (file reg : Nat) : Bool := reg != 63 && file < reg + 2

/-- T0 is none or the left slot of a PUT of the block (R327, R361). -/
def putTarget (c : BlockCtx) (t0 : Nat) : Bool :=
  t0 == 0 || (t0 / 32 == 1 && match c.ops with
    | none => true
    | some ops => ops[t0 % 32]? == some 0x02)

/-- The limits that need the block: LD128's second consumer (R322) and the PUT of AMADD and COLL
(R327, R361). -/
def Raw.blockLimit (c : BlockCtx) (r : Raw) : Bool :=
  if r.op = 0x67 then r.t0 / 32 == 0 || r.t0 % 32 + 1 ≥ c.ni || r.t0 % 32 + 1 == c.own
  else if r.op = 0x74 || r.op = 0xC6 then !putTarget c r.t0
  else false

/-- I8[2:0] of VCVT2 is reserved when it reads P (R319). -/
def Raw.reservedMode (r : Raw) : Bool := r.op == 0x57 && r.i8 / 64 % 2 == 1 && r.i8 % 8 != 0

/-- Limits that the operand types of `Instr` carry and a word may break: I8[7] of the packed pairs
(R318), s-register fields of 4 to 7 (R375), COFF of ACCRD (R369). -/
def Raw.formLimit (r : Raw) : Bool :=
  (0x52 ≤ r.op && r.op ≤ 0x57 && r.i8 / 128 == 0) ||
  (0xB0 ≤ r.op && r.op ≤ 0xB8 && (r.d ≥ 4 || r.a ≥ 4)) ||
  (r.op == 0xA7 && r.mod % 8 != 0)

/-- Check 14 on a word: its codes name no instruction, or the instruction breaks a limit of its
description (R277, `Instr.ill`). -/
def Raw.limit (c : BlockCtx) (r : Raw) : Bool :=
  match r.parse with
  | none => true
  | some i => i.ill.isSome || r.formLimit || r.blockLimit c

/-- Checks 5 to 14 of R277 on one word, the first that fails. -/
def Raw.check (c : BlockCtx) (r : Raw) : Option Reject :=
  match formatOf r.op with
  | none => some .opcode
  | some f =>
    if r.pm = 3 then some .pm
    else if threeInputs r.op && r.pm != 0 then some .pmThree
    else if (r.targets f).any (badTarget c) then some .target
    else if (f = .A ∨ f = .G) ∧ r.t0 = r.t1 ∧ r.t0 ≠ 0 then some .sameTarget
    else if Nat.land r.low (reservedOf r.op) ≠ 0 || r.reservedMode then some .reserved
    else if f = .G ∧ lacksRegister c.file (r.i8 % 64) then some .register
    else if f = .M ∧ (r.lsid ≥ c.nlsid || c.used.contains r.lsid) then some .lsid
    else if f = .M ∧ r.rlx = 1 ∧ !rlxAllowed r.op then some .rlx
    else if r.limit c then some .limit
    else none

/-- Decode a word within a block: the instruction, or the check that refuses it (R277, R279). -/
def decodeIn (c : BlockCtx) (w : Nat) : Except Reject Instr :=
  match (Raw.split w).check c with
  | some e => .error e
  | none => match (Raw.split w).parse with
    | some i => .ok i
    | none => .error .limit

/-- Decode a word on its own, with no limit that only its block could set. [DEDUCED: log 20] -/
def decodeWord (w : Nat) : Except Reject Instr := decodeIn .alone w

/-- A block header (R272). -/
structure Header where
  ni : Nat
  nput : Nat
  nlsid : Nat
  drain : Bool
  smask : Nat
  deriving DecidableEq, Repr

/-- NI as header word 0 gives it, which fixes how many words a fetch reads (R272, R276). -/
def headerNI (w0 : Nat) : Nat := fld w0 19 5 + 1

/-- Checks 1 to 4 and the fields of the header (R272, R277). -/
def decodeHeader (w0 w1 : Nat) : Except Reject Header :=
  if fld w0 24 8 ≠ 0xFF then .error .mark
  else if fld w0 7 6 > 32 then .error .tooManyLsids
  else if fld w0 1 6 ≠ 0 then .error .flags
  else if w1 / 2 ^ fld w0 7 6 ≠ 0 then .error .smaskHigh
  else .ok { ni := headerNI w0, nput := fld w0 13 6, nlsid := fld w0 7 6, drain := bitOf w0 0, smask := w1 }

/-- The header words of a header (R272). -/
def Header.words (h : Header) : Nat × Nat :=
  (0xFF000000 + (h.ni - 1) * 524288 + h.nput * 8192 + h.nlsid * 128 + bitField h.drain, h.smask)

/-- WORD of R278 for each check, an instruction's index for checks 5 to 14. -/
def Reject.reportWord (e : Reject) (idx : Nat) : Nat :=
  match e with
  | .mark | .tooManyLsids | .flags => 0xFE
  | .smaskHigh => 0xFF
  | .lsidCount | .putCount | .smaskSet | .noExit => 0xFD
  | .opcode | .pm | .pmThree | .target | .sameTarget | .reserved | .register | .lsid | .rlx | .limit => idx

/-- Checks 5 to 14 on the words from index `k` on (R277). -/
def checkWords (c : BlockCtx) : Nat → List Nat → Option (Reject × Nat)
  | _, [] => none
  | k, w :: ws =>
    match (Raw.split w).check { c with own := k } with
    | some e => some (e, k)
    | none =>
      let used := if formatOf (fld w 24 8) = some .M then (Raw.split w).lsid :: c.used else c.used
      checkWords { c with used := used } (k + 1) ws

/-- The SMASK that R274 fixes for the words. -/
def smaskOf : List Nat → Nat
  | [] => 0
  | w :: ws => if smaskOp (fld w 24 8) then 2 ^ (Raw.split w).lsid + smaskOf ws else smaskOf ws

/-- Validate a block's snapshot (R277): the header, or the first check that fails with the WORD that
R278 reports. `file` is the slot's register count. [DEDUCED: log 20, 21] -/
def validateBlock (file w0 w1 : Nat) (ws : List Nat) : Except (Reject × Nat) Header :=
  match decodeHeader w0 w1 with
  | .error e => .error (e, e.reportWord 0)
  | .ok h =>
    let ops := ws.map fun w => fld w 24 8
    match checkWords { ni := h.ni, own := 0, file := file, nlsid := h.nlsid, used := [], ops := some ops } 0 ws with
    | some (e, k) => .error (e, e.reportWord k)
    | none =>
      if (ops.filter fun o => formatOf o == some .M).length ≠ h.nlsid then .error (.lsidCount, 0xFD)
      else if (ops.filter fun o => o == 0x02).length ≠ h.nput then .error (.putCount, 0xFD)
      else if smaskOf ws ≠ h.smask then .error (.smaskSet, 0xFD)
      else if !(ops.any exitOp) then .error (.noExit, 0xFD)
      else .ok h

/-- The four bytes of an instruction word, little-endian (R5). -/
def wordBytes (w : Nat) : List Byte :=
  [BitVec.ofNat 8 w, BitVec.ofNat 8 (w / 256), BitVec.ofNat 8 (w / 65536), BitVec.ofNat 8 (w / 16777216)]

/-- The instruction word that four bytes make, the first at the lowest address (R5, R175). -/
def bytesWord : List Byte → Nat
  | [] => 0
  | b :: bs => b.toNat + 256 * bytesWord bs

/-- Decode the bytes of an instruction as the hardware stores them. -/
def decodeBytes (bs : List Byte) : Except Reject Instr :=
  if bs.length = 4 then decodeWord (bytesWord bs) else .error .opcode

/-- The instruction read from a word whose bits are `w`: every row of the opcode table that has a word
has 32 bits, one word, stored little-endian (R5, R267). -/
def decodeTableWord (nbits w : Nat) : Option Instr :=
  if nbits ≤ 32 then
    match decodeBytes (wordBytes (w % 2 ^ nbits)) with
    | .ok i => some i
    | .error _ => none
  else none

end Sys2Proof
end

