-- ==== Sys2Proof/Machine/Operands.lean ====
section
/-! DEFINITION. The operand forms of the instructions and the integer bodies: which operand slots an
instruction uses (R268, R269, R282), widths (R291), conditions (R286), the bodies of R296 to R311, and
the addresses of format M (R271, R284, R285). -/

namespace Sys2Proof.Machine

/-- The width in bits of a W instruction (R291). -/
def widthBits : Width → Nat
  | .w64 => 64
  | .w32 => 32

/-- The low N bits of an operand, unsigned: u(x) of R291. -/
def uOf (w : Width) (x : Word) : Nat := x.toNat % 2 ^ widthBits w

/-- `x` below 2^n read as an n-bit two's-complement number: s(x) of R291. -/
def signedOf (n x : Nat) : Int := if x < 2 ^ (n - 1) then (x : Int) else (x : Int) - 2 ^ n

/-- The low N bits of an operand, signed (R291). -/
def sOf (w : Width) (x : Word) : Int := signedOf (widthBits w) (uOf w x)

/-- res(x) of R291: 64 bits, or 32 bits sign-extended. -/
def resOf (w : Width) (x : Int) : Word :=
  match w with
  | .w64 => BitVec.ofInt 64 x
  | .w32 => (BitVec.ofInt 32 x).signExtend 64

/-- 1 or 0 as a token. -/
def boolWord (b : Bool) : Word := if b then 1#64 else 0#64

/-- ADD (R301). -/
def addOp (w : Width) (l r : Word) : Word := resOf w (uOf w l + uOf w r : Nat)
/-- SUB (R301). -/
def subOp (w : Width) (l r : Word) : Word := resOf w ((uOf w l : Int) - uOf w r)
/-- ADDI (R301). -/
def addiOp (i : BitVec 8) (l : Word) : Word := l + i.signExtend 64
/-- MUL (R301). -/
def mulOp (w : Width) (l r : Word) : Word := resOf w (uOf w l * uOf w r : Nat)
/-- MULH: the high half of the signed product (R230, R301). -/
def mulhOp (w : Width) (l r : Word) : Word := resOf w (Int.fdiv (sOf w l * sOf w r) (2 ^ widthBits w))
/-- MULHU (R230, R301). -/
def mulhuOp (w : Width) (l r : Word) : Word := resOf w (uOf w l * uOf w r / 2 ^ widthBits w : Nat)
/-- DIV, truncated; all ones by 0, also in 32-bit mode (R230). -/
def divOp (w : Width) (l r : Word) : Word :=
  if uOf w r = 0 then BitVec.allOnes 64 else resOf w (Int.tdiv (sOf w l) (sOf w r))
/-- DIVU (R230). -/
def divuOp (w : Width) (l r : Word) : Word :=
  if uOf w r = 0 then BitVec.allOnes 64 else resOf w (uOf w l / uOf w r : Nat)
/-- REM, with the sign of the dividend; the dividend by 0 (R230). -/
def remOp (w : Width) (l r : Word) : Word :=
  if uOf w r = 0 then resOf w (uOf w l : Nat) else resOf w (Int.tmod (sOf w l) (sOf w r))
/-- REMU (R230). -/
def remuOp (w : Width) (l r : Word) : Word :=
  if uOf w r = 0 then resOf w (uOf w l : Nat) else resOf w (uOf w l % uOf w r : Nat)
/-- AND (R301). -/
def andOp (w : Width) (l r : Word) : Word := resOf w ((l &&& r).toNat : Nat)
/-- OR (R301). -/
def orOp (w : Width) (l r : Word) : Word := resOf w ((l ||| r).toNat : Nat)
/-- XOR (R301). -/
def xorOp (w : Width) (l r : Word) : Word := resOf w ((l ^^^ r).toNat : Nat)
/-- ANDN: left AND NOT right (R301). -/
def andnOp (w : Width) (l r : Word) : Word := resOf w ((l &&& ~~~r).toNat : Nat)
/-- ORN: left OR NOT right (R301). -/
def ornOp (w : Width) (l r : Word) : Word := resOf w ((l ||| ~~~r).toNat : Nat)

/-- A shift amount, modulo the width (R230, R291). -/
def amountOf (w : Width) (r : Word) : Nat := uOf w r % widthBits w

/-- SHL by an amount (R301). -/
def shlBy (w : Width) (n : Nat) (l : Word) : Word := resOf w (uOf w l * 2 ^ n : Nat)
/-- SHR by an amount (R301). -/
def shrBy (w : Width) (n : Nat) (l : Word) : Word := resOf w (uOf w l / 2 ^ n : Nat)
/-- SAR by an amount (R301). -/
def sarBy (w : Width) (n : Nat) (l : Word) : Word := resOf w (Int.fdiv (sOf w l) (2 ^ n))
/-- ROL by an amount (R301). -/
def rolBy (w : Width) (n : Nat) (l : Word) : Word :=
  let N := widthBits w
  resOf w (uOf w l * 2 ^ n % 2 ^ N + uOf w l / 2 ^ (N - n) : Nat)

/-- FSHL and FSHR: the 2N-bit value left:right shifted (R303). -/
def fshlOp (w : Width) (l r t : Word) : Word :=
  let N := widthBits w
  resOf w ((uOf w l * 2 ^ N + uOf w r) * 2 ^ amountOf w t / 2 ^ N : Nat)
/-- FSHR (R303). -/
def fshrOp (w : Width) (l r t : Word) : Word :=
  let N := widthBits w
  resOf w ((uOf w l * 2 ^ N + uOf w r) / 2 ^ amountOf w t : Nat)

/-- The number of leading zeros of the low `n` bits of `x`. -/
def leadingZeros (x : Nat) : Nat → Nat
  | 0 => 0
  | n + 1 => if x / 2 ^ n % 2 = 1 then 0 else leadingZeros x n + 1

/-- The number of trailing zeros of `x`, at most `n`. -/
def trailingZeros (x : Nat) : Nat → Nat
  | 0 => 0
  | n + 1 => if x % 2 = 1 then 0 else trailingZeros (x / 2) n + 1

/-- The number of 1 bits among the low `n` bits. -/
def onesOf (x : Nat) : Nat → Nat
  | 0 => 0
  | n + 1 => x % 2 + onesOf (x / 2) n

/-- The low `n` bits reversed. -/
def bitsReversed (x : Nat) : Nat → Nat
  | 0 => 0
  | n + 1 => x % 2 * 2 ^ n + bitsReversed (x / 2) n

/-- The low `n` bytes reversed. -/
def bytesReversed (x : Nat) : Nat → Nat
  | 0 => 0
  | n + 1 => x % 256 * 256 ^ n + bytesReversed (x / 256) n

/-- CLZ (R301). -/
def clzOp (w : Width) (l : Word) : Word := resOf w (leadingZeros (uOf w l) (widthBits w) : Nat)
/-- CTZ (R301). -/
def ctzOp (w : Width) (l : Word) : Word := resOf w (trailingZeros (uOf w l) (widthBits w) : Nat)
/-- POPC (R301). -/
def popcOp (w : Width) (l : Word) : Word := resOf w (onesOf (uOf w l) (widthBits w) : Nat)
/-- BREV (R301). -/
def brevOp (w : Width) (l : Word) : Word := resOf w (bitsReversed (uOf w l) (widthBits w) : Nat)
/-- BSWAP (R301). -/
def bswapOp (w : Width) (l : Word) : Word := resOf w (bytesReversed (uOf w l) (widthBits w / 8) : Nat)

/-- The low `len` bits of `x`, sign-extended (R304, R306). -/
def signFrom (len x : Nat) : Word := BitVec.ofInt 64 (signedOf len (x % 2 ^ len))

/-- EXT (R304). -/
def extOp (signed : Bool) (n : BitVec 6) (l r : Word) : Word :=
  let f := l.toNat / 2 ^ (r.toNat % 64) % 2 ^ (n.toNat + 1)
  if signed then signFrom (n.toNat + 1) f else BitVec.ofNat 64 f

/-- INS (R305). -/
def insOp (len : InsLen) (n : BitVec 6) (l r : Word) : Word :=
  let m : Word := BitVec.ofNat 64 ((2 ^ len.bits - 1) * 2 ^ n.toNat)
  (l &&& ~~~m) ||| ((r <<< n.toNat) &&& m)

/-- SEXT (R306). -/
def sextOp (n : BitVec 6) (l : Word) : Word := signFrom (n.toNat + 1) l.toNat
/-- ZEXT (R306). -/
def zextOp (n : BitVec 6) (l : Word) : Word := BitVec.ofNat 64 (l.toNat % 2 ^ (n.toNat + 1))

/-- MIN and MAX, signed; equal operands give the left one (R230, R301). -/
def minOp (w : Width) (l r : Word) : Word := resOf w (if sOf w r < sOf w l then sOf w r else sOf w l)
/-- MAX (R301). -/
def maxOp (w : Width) (l r : Word) : Word := resOf w (if sOf w l < sOf w r then sOf w r else sOf w l)
/-- MINU (R301). -/
def minuOp (w : Width) (l r : Word) : Word := resOf w (if uOf w r < uOf w l then uOf w r else uOf w l : Nat)
/-- MAXU (R301). -/
def maxuOp (w : Width) (l r : Word) : Word := resOf w (if uOf w l < uOf w r then uOf w r else uOf w l : Nat)

/-- Whether a condition of CMP holds (R286). -/
def condHolds (c : Cond) (w : Width) (l r : Word) : Bool :=
  match c with
  | .eq => uOf w l = uOf w r
  | .ne => uOf w l ≠ uOf w r
  | .lt => sOf w l < sOf w r
  | .le => sOf w l ≤ sOf w r
  | .ltu => uOf w l < uOf w r
  | .leu => uOf w l ≤ uOf w r

/-- CMP (R286, R301). -/
def cmpOp (c : Cond) (w : Width) (l r : Word) : Word := boolWord (condHolds c w l r)

/-- TEST (R286, R298). -/
def testOp (m : TestMode) (l : Word) : Word :=
  boolWord (match m with
    | .nz => l ≠ 0#64
    | .z => l = 0#64
    | .neg => l.getLsbD 63
    | .bit k => l.getLsbD k.toNat)

/-- SEL (R301, R307). -/
def selOp (l r t : Word) : Word := if t ≠ 0#64 then l else r

/-- LEA (R301). -/
def leaOp (w : Width) (n : BitVec 6) (l r : Word) : Word :=
  resOf w (uOf w l + uOf w r * 2 ^ (n.toNat % widthBits w) : Nat)

/-- ABSD (R301). -/
def absdOp (w : Width) (l r : Word) : Word := resOf w ((sOf w l - sOf w r).natAbs : Nat)

/-- LUT3: the table bit that each bit position selects (R302). -/
def lut3Op (i : BitVec 8) (l r t : Word) : Word :=
  let pick (k : Nat) (v : Word) : Word := if i.getLsbD k then v else 0#64
  pick 0 (~~~l &&& ~~~r &&& ~~~t) ||| pick 1 (~~~l &&& ~~~r &&& t) ||| pick 2 (~~~l &&& r &&& ~~~t) |||
  pick 3 (~~~l &&& r &&& t) ||| pick 4 (l &&& ~~~r &&& ~~~t) ||| pick 5 (l &&& ~~~r &&& t) |||
  pick 6 (l &&& r &&& ~~~t) ||| pick 7 (l &&& r &&& t)

/-- HASHA (R310). -/
def hashaOp (l r : Word) : Word :=
  let h := l * 0xD6E8FEB86659FD93#64
  (h ^^^ (h >>> 32)) &&& r

/-- CONSTH (R296). -/
def consthOp (k : BitVec 15) (l : Word) : Word := BitVec.ofNat 64 (l.toNat * 32768 + k.toNat)

/-- The lane width in bits (R311). -/
def laneBits : Lanes → Nat
  | .l8 => 8
  | .l16 => 16
  | .l32 => 32

/-- A lane read as the mode implies (R311). -/
def laneOf (m : PMode) (n x : Nat) : Int :=
  match m with
  | .wrap => x
  | .signedSat => signedOf n x
  | .unsignedSat => x

/-- A lane's exact result reduced (R311). -/
def laneReduce (m : PMode) (n : Nat) (x : Int) : Nat :=
  match m with
  | .wrap => (x % 2 ^ n).toNat
  | .signedSat => ((max (-(2 ^ (n - 1))) (min x (2 ^ (n - 1) - 1))) % 2 ^ n).toNat
  | .unsignedSat => (max 0 (min x (2 ^ n - 1))).toNat

/-- The `k` lowest lanes of two operands combined lane by lane (R311). -/
def mapLanes (n : Nat) (f : Nat → Nat → Nat) : Nat → Nat → Nat → Nat
  | 0, _, _ => 0
  | k + 1, a, b => f (a % 2 ^ n) (b % 2 ^ n) + 2 ^ n * mapLanes n f k (a / 2 ^ n) (b / 2 ^ n)

/-- A packed instruction (R311). -/
def packedOp (l : Lanes) (f : Nat → Nat → Nat) (a b : Word) : Word :=
  BitVec.ofNat 64 (mapLanes (laneBits l) f (64 / laneBits l) a.toNat b.toNat)

/-- PADD (R311). -/
def paddOp (m : PMode) (l : Lanes) : Word → Word → Word :=
  packedOp l fun a b => laneReduce m (laneBits l) (laneOf m (laneBits l) a + laneOf m (laneBits l) b)
/-- PSUB (R311). -/
def psubOp (m : PMode) (l : Lanes) : Word → Word → Word :=
  packedOp l fun a b => laneReduce m (laneBits l) (laneOf m (laneBits l) a - laneOf m (laneBits l) b)
/-- PMUL (R311). -/
def pmulOp (m : PMode) (l : Lanes) : Word → Word → Word :=
  packedOp l fun a b => laneReduce m (laneBits l) (laneOf m (laneBits l) a * laneOf m (laneBits l) b)
/-- PMAX (R311). -/
def pmaxOp (unsigned : Bool) (l : Lanes) : Word → Word → Word :=
  packedOp l fun a b =>
    if unsigned then max a b
    else if signedOf (laneBits l) a < signedOf (laneBits l) b then b else a

/-- address := left + sign-extend(OFF) × N, modulo 2^64 (R271, R284, R285). -/
def offAddr (n : Nat) (off : Int) (left : Word) : Nat := (left + BitVec.ofInt 64 (off * n)).toNat

/-- N of the atomics (R285). -/
def atomicBytes : Width → Nat
  | .w64 => 8
  | .w32 => 4

/-- The next block's address of a direct exit (R271, R299). -/
def branchTarget (blk : Nat) (s : BitVec 16) : Nat := (BitVec.ofNat 64 blk + BitVec.ofInt 64 (s.toInt * 4)).toNat

/-- The next block in memory: block address + 4 × (NI + 2) (R175). -/
def blockAfter (blk ni : Nat) : Nat := (blk + 4 * (ni + 2)) % 2 ^ 64

end Sys2Proof.Machine
end

