-- ==== Sys2Proof/Machine/Flags.lean ====
section
/-! DEFINITION. Floating-point values, formats, rounding and the FPC flags (R221 to R234), and the
bodies of the floating instructions (R312 to R319) and of CELL (R309). Every result is the exact value
of its operation rounded once. -/

namespace Sys2Proof.Machine

/-- The flags of FPC that one operation raises (R226). -/
structure Flags where
  nv : Bool := false
  dz : Bool := false
  ofl : Bool := false
  uf : Bool := false
  nx : Bool := false
  deriving DecidableEq, Repr, Inhabited

/-- Flags ORed together (R227). -/
def Flags.or (a b : Flags) : Flags :=
  { nv := a.nv || b.nv, dz := a.dz || b.dz, ofl := a.ofl || b.ofl, uf := a.uf || b.uf, nx := a.nx || b.nx }

/-- The flag bits of FPC (R226). -/
def Flags.bits (f : Flags) : Word :=
  BitVec.ofNat 64 (bitField f.nv * 128 + bitField f.dz * 64 + bitField f.ofl * 32 + bitField f.uf * 16 +
    bitField f.nx * 8)

/-- An exact value: NaN, an infinity, or (−1)^neg × m × 2^e with a signed zero. -/
inductive Val where
  | nan
  | inf (neg : Bool)
  | fin (neg : Bool) (m : Nat) (e : Int)
  deriving DecidableEq, Repr, Inhabited

/-- Which patterns are NaN (R221, R223). -/
inductive NanKind where
  /-- exponent all ones, fraction not 0 -/
  | ieee
  /-- S.1111.111 only -/
  | top
  /-- the format has no NaN -/
  | absent
  deriving DecidableEq, Repr, Inhabited

/-- A floating format (R221). -/
structure FloatFmt where
  /-- exponent bits -/
  eb : Nat
  /-- fraction bits -/
  fb : Nat
  bias : Nat
  /-- ignored low bits of the container -/
  low : Nat
  nanKind : NanKind
  deriving DecidableEq, Repr, Inhabited

/-- E11M52 (R221). -/
def fmtE11M52 : FloatFmt := ⟨11, 52, 1023, 0, .ieee⟩
/-- E8M23 (R221). -/
def fmtE8M23 : FloatFmt := ⟨8, 23, 127, 0, .ieee⟩
/-- E8M10, in the high 19 bits of its container (R222). -/
def fmtE8M10 : FloatFmt := ⟨8, 10, 127, 13, .ieee⟩
/-- E5M10 (R221). -/
def fmtE5M10 : FloatFmt := ⟨5, 10, 15, 0, .ieee⟩
/-- E8M7 (R221). -/
def fmtE8M7 : FloatFmt := ⟨8, 7, 127, 0, .ieee⟩
/-- E4M3 (R221). -/
def fmtE4M3 : FloatFmt := ⟨4, 3, 7, 0, .top⟩
/-- E5M2 (R221). -/
def fmtE5M2 : FloatFmt := ⟨5, 2, 15, 0, .ieee⟩
/-- E3M2 (R221). -/
def fmtE3M2 : FloatFmt := ⟨3, 2, 3, 0, .absent⟩
/-- E2M3 (R221). -/
def fmtE2M3 : FloatFmt := ⟨2, 3, 1, 0, .absent⟩
/-- E2M1 (R221). -/
def fmtE2M1 : FloatFmt := ⟨2, 1, 1, 0, .absent⟩

/-- Formats with infinities (R221). -/
def FloatFmt.hasInf (f : FloatFmt) : Bool := f.nanKind = .ieee

/-- The format F of a scalar instruction (R312). -/
def formatF : FForm → FloatFmt
  | .e11m52 => fmtE11M52
  | .e8m23 => fmtE8M23

/-- The sign bit of a value's pattern. -/
def signBit (f : FloatFmt) (neg : Bool) : Nat := bitField neg * 2 ^ (f.low + f.fb + f.eb)

/-- The value of a pattern (R221, R222). -/
def valueOf (f : FloatFmt) (bits : Nat) : Val :=
  let x := bits / 2 ^ f.low
  let frac := x % 2 ^ f.fb
  let ex := x / 2 ^ f.fb % 2 ^ f.eb
  let neg := x / 2 ^ (f.fb + f.eb) % 2 == 1
  let fin : Val :=
    if ex = 0 then .fin neg frac (1 - (f.bias : Int) - f.fb)
    else .fin neg (2 ^ f.fb + frac) ((ex : Int) - f.bias - f.fb)
  match f.nanKind with
  | .ieee => if ex = 2 ^ f.eb - 1 then (if frac = 0 then .inf neg else .nan) else fin
  | .top => if ex = 2 ^ f.eb - 1 ∧ frac = 2 ^ f.fb - 1 then .nan else fin
  | .absent => fin

/-- The canonical NaN; a format without NaN has +0 in its place (R223, R229). -/
def canonicalNan (f : FloatFmt) : Nat :=
  match f.nanKind with
  | .ieee => ((2 ^ f.eb - 1) * 2 ^ f.fb + 2 ^ (f.fb - 1)) * 2 ^ f.low
  | .top => 2 ^ (f.eb + f.fb) - 1
  | .absent => 0

/-- The number of bits of `m`. -/
def bitLength (m : Nat) : Nat := if m = 0 then 0 else Nat.log2 m + 1

/-- The exponent of the unit of the largest finite value. -/
def topUnit (f : FloatFmt) : Int :=
  (if f.hasInf then (2 ^ f.eb - 2 : Int) else (2 ^ f.eb - 1 : Int)) - f.bias - f.fb

/-- The significand of the largest finite value (R221). -/
def topSig (f : FloatFmt) : Nat :=
  match f.nanKind with
  | .top => 2 ^ (f.fb + 1) - 2
  | .ieee => 2 ^ (f.fb + 1) - 1
  | .absent => 2 ^ (f.fb + 1) - 1

/-- Whether rounding away from zero follows, given the kept significand and how the rest compares with
half a unit (R225 step 3). `rest` is lt below half, eq at half, gt above; `zero` says nothing was cut. -/
def roundsUp (mode : Rounding) (neg : Bool) (kept : Nat) (zero : Bool) (rest : Ordering) : Bool :=
  match mode with
  | .rne => rest = .gt || (rest = .eq && kept % 2 == 1)
  | .rz => false
  | .ru => !neg && !zero
  | .rd => neg && !zero

/-- m × 2^−k cut to an integer: the kept part, whether nothing was cut, and the rest against a half. -/
def cut (m : Nat) (k : Int) : Nat × Bool × Ordering :=
  if k ≤ 0 then (m * 2 ^ (-k).toNat, true, .lt)
  else if k > bitLength m + 1 then (0, m = 0, .lt)
  else
    let d := 2 ^ k.toNat
    (m / d, m % d = 0, compare (2 * (m % d)) d)

/-- An integer significand rounded in a mode. -/
def roundCut (mode : Rounding) (neg : Bool) (c : Nat × Bool × Ordering) : Nat :=
  if roundsUp mode neg c.1 c.2.1 c.2.2 then c.1 + 1 else c.1

/-- A result rounded into a format: its pattern, the flags, and whether R228 counts it as subnormal. -/
structure Rounded where
  bits : Nat
  flags : Flags
  tiny : Bool
  deriving DecidableEq, Repr, Inhabited

/-- The pattern of a finite value with significand `m` and unit 2^q, `m` at most 2^(fb+1). -/
def packFinite (f : FloatFmt) (neg : Bool) (m : Nat) (q : Int) : Nat :=
  let body :=
    if m < 2 ^ f.fb then m
    else if m < 2 ^ (f.fb + 1) then (q + f.fb + f.bias).toNat * 2 ^ f.fb + (m - 2 ^ f.fb)
    else (q + 1 + f.fb + f.bias).toNat * 2 ^ f.fb
  signBit f neg + body * 2 ^ f.low

/-- The pattern of an infinity, in a format that has them. [DEDUCED: log 87] -/
def packInf (f : FloatFmt) (neg : Bool) : Nat := signBit f neg + (2 ^ f.eb - 1) * 2 ^ f.fb * 2 ^ f.low

/-- The pattern of ±max. -/
def packMax (f : FloatFmt) (neg : Bool) : Nat := packFinite f neg (topSig f) (topUnit f)

/-- An overflow's result (R225 steps 4 and 5). -/
def overflowBits (f : FloatFmt) (mode : Rounding) (neg : Bool) : Nat :=
  if f.hasInf then
    match mode, neg with
    | .rne, n => packInf f n
    | .rz, n => packMax f n
    | .ru, false => packInf f false
    | .ru, true => packMax f true
    | .rd, false => packMax f false
    | .rd, true => packInf f true
  else packMax f neg

/-- round(fmt, mode, x) with its flags (R225, R226, R229). [DEDUCED: log 89] -/
def roundTo (f : FloatFmt) (mode : Rounding) (x : Val) : Rounded :=
  match x with
  | .nan => ⟨canonicalNan f, { nv := f.nanKind = .absent }, false⟩
  | .inf neg =>
    if f.hasInf then ⟨packInf f neg, {}, false⟩ else ⟨packMax f neg, { ofl := true }, false⟩
  | .fin neg m e =>
    if m = 0 then ⟨signBit f neg, {}, false⟩
    else
      let qmin : Int := 1 - (f.bias : Int) - f.fb
      let q := max (e + (bitLength m : Int) - 1 - f.fb) qmin
      let c := cut m (q - e)
      let sig := roundCut mode neg c
      let inexact := !c.2.1
      if q > topUnit f ∨ (q = topUnit f ∧ sig > topSig f) then
        ⟨overflowBits f mode neg, { ofl := true, nx := true }, false⟩
      else
        let small := q == qmin && decide (sig < 2 ^ f.fb)
        ⟨packFinite f neg sig q, { nx := inexact, uf := inexact && small }, small⟩

/-- The sign of a value. -/
def Val.neg? : Val → Bool
  | .nan => false
  | .inf n => n
  | .fin n _ _ => n

/-- −x. -/
def Val.negate : Val → Val
  | .nan => .nan
  | .inf n => .inf (!n)
  | .fin n m e => .fin (!n) m e

/-- Whether a value is a zero. -/
def Val.isZero : Val → Bool
  | .fin _ m _ => m == 0
  | .nan => false
  | .inf _ => false

/-- An exact product, and whether it is invalid (R225). -/
def Val.mul (x y : Val) : Val × Bool :=
  match x, y with
  | .nan, _ => (.nan, false)
  | _, .nan => (.nan, false)
  | .inf a, .inf b => (.inf (a != b), false)
  | .inf a, .fin b m _ => if m = 0 then (.nan, true) else (.inf (a != b), false)
  | .fin a m _, .inf b => if m = 0 then (.nan, true) else (.inf (a != b), false)
  | .fin a m e, .fin b n g => (.fin (a != b) (m * n) (e + g), false)

/-- (−1)^neg × m as an integer. -/
def signedInt (neg : Bool) (m : Nat) : Int := if neg then -(m : Int) else m

/-- The least exponent of the finite addends, at most `e`. -/
def leastExp : List Val → Int → Int
  | [], e => e
  | .fin _ _ g :: xs, e => leastExp xs (min g e)
  | .nan :: xs, e => leastExp xs e
  | .inf _ :: xs, e => leastExp xs e

/-- The finite addends summed in units of 2^e. -/
def sumUnits (e : Int) : List Val → Int
  | [] => 0
  | .fin n m g :: xs => signedInt n m * 2 ^ (g - e).toNat + sumUnits e xs
  | .nan :: xs => sumUnits e xs
  | .inf _ :: xs => sumUnits e xs

/-- The exact sum of some addends, and whether it is invalid (R225, R236). A zero sum takes its sign
by R225: that of the addends when all are zeros of one sign, else +0, and −0 under RD. -/
def sumVals (mode : Rounding) (xs : List Val) : Val × Bool :=
  let up := xs.any fun x => x == .inf false
  let down := xs.any fun x => x == .inf true
  if xs.any (· == .nan) then (.nan, up && down)
  else if up && down then (.nan, true)
  else if up then (.inf false, false)
  else if down then (.inf true, false)
  else
    let e := leastExp xs 0
    let s := sumUnits e xs
    if s ≠ 0 then (.fin (s < 0) s.natAbs e, false)
    else if xs.all fun x => x.isZero && !x.neg? then (.fin false 0 0, false)
    else if xs.all fun x => x.isZero && x.neg? then (.fin true 0 0, false)
    else (.fin (mode = .rd) 0 0, false)

/-- The order of two values that are not NaN; −0 equals +0 (R287). -/
def Val.order (x y : Val) : Ordering :=
  match x, y with
  | .nan, _ => .eq
  | _, .nan => .eq
  | .inf a, .inf b => if a = b then .eq else if a then .lt else .gt
  | .inf a, .fin _ _ _ => if a then .lt else .gt
  | .fin _ _ _, .inf b => if b then .gt else .lt
  | .fin a m e, .fin b n g =>
    let k := min e g
    compare (signedInt a m * 2 ^ (e - k).toNat) (signedInt b n * 2 ^ (g - k).toNat)

/-- Whether a pattern is subnormal (R228). -/
def isSubnormal (f : FloatFmt) (bits : Nat) : Bool :=
  let x := bits / 2 ^ f.low
  x / 2 ^ f.fb % 2 ^ f.eb == 0 && x % 2 ^ f.fb != 0

/-- What a floating instruction computes: the token, its flags, and whether the normaliser serves it
(R228, R312). -/
structure FResult where
  v : Word
  flags : Flags
  slow : Bool
  deriving DecidableEq, Repr, Inhabited

/-- The bits of an operand read in F (R312). -/
def fBits (f : FForm) (x : Word) : Nat :=
  match f with
  | .e11m52 => x.toNat
  | .e8m23 => x.toNat % 2 ^ 32

/-- An operand read in F. -/
def fVal (f : FForm) (x : Word) : Val := valueOf (formatF f) (fBits f x)

/-- Whether an operand is subnormal in F. -/
def fSub (f : FForm) (x : Word) : Bool := isSubnormal (formatF f) (fBits f x)

/-- A rounded result in F with the operands' subnormals counted (R228). -/
def fRound (f : FForm) (mode : Rounding) (x : Val × Bool) (sub : Bool) : FResult :=
  let r := roundTo (formatF f) mode x.1
  ⟨BitVec.ofNat 64 r.bits, { r.flags with nv := r.flags.nv || x.2 }, sub || r.tiny⟩

/-- FADD (R314). -/
def faddOp (f : FForm) (mode : Rounding) (l r : Word) : FResult :=
  fRound f mode (sumVals mode [fVal f l, fVal f r]) (fSub f l || fSub f r)
/-- FSUB: the sum L + (−R) (R225, R314). -/
def fsubOp (f : FForm) (mode : Rounding) (l r : Word) : FResult :=
  fRound f mode (sumVals mode [fVal f l, (fVal f r).negate]) (fSub f l || fSub f r)
/-- FMUL (R314). -/
def fmulOp (f : FForm) (mode : Rounding) (l r : Word) : FResult :=
  fRound f mode ((fVal f l).mul (fVal f r)) (fSub f l || fSub f r)
/-- The exact L × R + T with its invalid cases (R225). [DEDUCED: log 88] -/
def fmaVal (mode : Rounding) (l r t : Val) : Val × Bool :=
  let p := l.mul r
  let s := sumVals mode [p.1, t]
  (s.1, p.2 || s.2)
/-- FFMA: an exact product and one rounding (R314). [DEDUCED: log 88] -/
def ffmaOp (f : FForm) (mode : Rounding) (l r t : Word) : FResult :=
  fRound f mode (fmaVal mode (fVal f l) (fVal f r) (fVal f t)) (fSub f l || fSub f r || fSub f t)

/-- Strictly below in the order of FMIN and FMAX, where −0 is below +0 (R314). -/
def Val.below (x y : Val) : Bool :=
  match x.order y with
  | .lt => true
  | .gt => false
  | .eq => x.isZero && y.isZero && x.neg? && !y.neg?

/-- A value unchanged, re-encoded in F: a NaN becomes canonical (R223). -/
def fKeep (f : FForm) (x : Word) : Word :=
  match fVal f x with
  | .nan => BitVec.ofNat 64 (canonicalNan (formatF f))
  | .inf _ => BitVec.ofNat 64 (fBits f x)
  | .fin _ _ _ => BitVec.ofNat 64 (fBits f x)

/-- FMIN (R314). -/
def fminOp (f : FForm) (l r : Word) : FResult :=
  let v := if fVal f l = .nan then r else if fVal f r = .nan then l
    else if (fVal f r).below (fVal f l) then r else l
  ⟨fKeep f v, {}, fSub f l || fSub f r⟩
/-- FMAX (R314). -/
def fmaxOp (f : FForm) (l r : Word) : FResult :=
  let v := if fVal f l = .nan then r else if fVal f r = .nan then l
    else if (fVal f l).below (fVal f r) then r else l
  ⟨fKeep f v, {}, fSub f l || fSub f r⟩

/-- FSGN: a bit operation (R314). -/
def fsgnOp (f : FForm) (o : SgnOp) (l r : Word) : FResult :=
  let k := match f with | .e11m52 => 63 | .e8m23 => 31
  let a := bitOf (fBits f l) k
  let b := bitOf (fBits f r) k
  let sgn := match o with | .copy => b | .neg => !b | .xor => a != b
  ⟨BitVec.ofNat 64 (fBits f l % 2 ^ k + bitField sgn * 2 ^ k), {}, fSub f l || fSub f r⟩

/-- FCMP (R287). -/
def fcmpOp (f : FForm) (c : FCond) (l r : Word) : FResult :=
  let x := fVal f l
  let y := fVal f r
  let slow := fSub f l || fSub f r
  if x = .nan ∨ y = .nan then
    match c with
    | .eq => ⟨0#64, {}, slow⟩
    | .lt => ⟨0#64, { nv := true }, slow⟩
    | .le => ⟨0#64, { nv := true }, slow⟩
    | .un => ⟨1#64, {}, slow⟩
    | .ne => ⟨1#64, {}, slow⟩
  else
    let o := x.order y
    ⟨boolWord (match c with
      | .eq => o = .eq
      | .lt => o = .lt
      | .le => o ≠ .gt
      | .un => false
      | .ne => o ≠ .eq), {}, slow⟩

/-- The format of a partner of FCVT (R316). -/
def partnerFmt (f : FForm) : Partner → FloatFmt
  | .other => (match f with | .e11m52 => fmtE8M23 | .e8m23 => fmtE11M52)
  | .e8m10 => fmtE8M10
  | .e5m10 => fmtE5M10
  | .e8m7 => fmtE8M7
  | .e4m3 => fmtE4M3
  | .e5m2 => fmtE5M2
  | .e3m2 => fmtE3M2
  | .e2m3 => fmtE2M3

/-- The container bits of a format's pattern (R221, R316). -/
def patternBits (f : FloatFmt) : Nat := f.low + f.fb + f.eb + 1

/-- A conversion between two formats (R229). [DEDUCED: log 87] -/
def convertFmt (src dst : FloatFmt) (mode : Rounding) (bits : Nat) : Rounded :=
  let b := bits % 2 ^ patternBits src
  let r := roundTo dst mode (valueOf src b)
  { r with tiny := r.tiny || isSubnormal src b }

/-- FCVT (R316). -/
def fcvtOp (f : FForm) (fromP : Bool) (q : Partner) (mode : Rounding) (l : Word) : FResult :=
  let p := partnerFmt f q
  let r := if fromP then convertFmt p (formatF f) mode l.toNat else convertFmt (formatF f) p mode l.toNat
  ⟨BitVec.ofNat 64 r.bits, r.flags, r.tiny⟩

/-- A finite value rounded to an integer, and whether that changed it. -/
def roundInt (mode : Rounding) (neg : Bool) (m : Nat) (e : Int) : Nat × Bool :=
  let c := cut m (-e)
  (roundCut mode neg c, !c.2.1)

/-- FRND (R314). -/
def frndOp (f : FForm) (mode : Rounding) (l : Word) : FResult :=
  match fVal f l with
  | .nan => ⟨fKeep f l, {}, false⟩
  | .inf _ => ⟨fKeep f l, {}, false⟩
  | .fin neg m e =>
    let r := roundInt mode neg m e
    ⟨BitVec.ofNat 64 (roundTo (formatF f) mode (.fin neg r.1 0)).bits, { nx := r.2 },
      fSub f l || (m != 0 && r.1 == 0)⟩

/-- The range of an integer type (R317). -/
def intRange : IntTy → Int × Int
  | .s64 => (-(2 ^ 63), 2 ^ 63 - 1)
  | .u64 => (0, 2 ^ 64 - 1)
  | .s32 => (-(2 ^ 31), 2 ^ 31 - 1)
  | .u32 => (0, 2 ^ 32 - 1)

/-- A value converted to an integer within a range, saturating (R229). -/
def toIntSat (mode : Rounding) (range : Int × Int) (x : Val) : Int × Flags :=
  match x with
  | .nan => (0, { nv := true })
  | .inf neg => (if neg then range.1 else range.2, { nv := true })
  | .fin neg m e =>
    let r := roundInt mode neg m e
    let v := signedInt neg r.1
    if v < range.1 then (range.1, { nv := true })
    else if range.2 < v then (range.2, { nv := true })
    else (v, { nx := r.2 })

/-- Whether a value is a non-zero one whose integer rounding gives 0 (R228). [DEDUCED: log 89] -/
def vanishes (mode : Rounding) : Val → Bool
  | .nan => false
  | .inf _ => false
  | .fin neg m e => m != 0 && (roundInt mode neg m e).1 == 0

/-- FTOI (R317). -/
def ftoiOp (f : FForm) (y : IntTy) (mode : Rounding) (l : Word) : FResult :=
  let r := toIntSat mode (intRange y) (fVal f l)
  ⟨BitVec.ofInt 64 r.1, r.2, fSub f l || vanishes mode (fVal f l)⟩

/-- The integer operand of ITOF (R317). -/
def itofInt (y : IntTy) (l : Word) : Int :=
  match y with
  | .s64 => l.toInt
  | .u64 => l.toNat
  | .s32 => signedOf 32 (l.toNat % 2 ^ 32)
  | .u32 => (l.toNat % 2 ^ 32 : Nat)

/-- An integer as a value; 0 is +0. -/
def intVal (v : Int) : Val := .fin (v < 0) v.natAbs 0

/-- ITOF (R317). -/
def itofOp (f : FForm) (y : IntTy) (mode : Rounding) (l : Word) : FResult :=
  fRound f mode (intVal (itofInt y l), false) false

/-- FCLASS (R315). -/
def fclassOp (f : FForm) (l : Word) : FResult :=
  let sub := fSub f l
  let k : Nat := match fVal f l with
    | .nan => 8
    | .inf neg => if neg then 0 else 7
    | .fin neg m _ =>
      if m = 0 then (if neg then 3 else 4)
      else if sub then (if neg then 2 else 5)
      else (if neg then 1 else 6)
  ⟨BitVec.ofNat 64 (2 ^ k), {}, sub⟩

/-- A value times 2^s. -/
def Val.scale (x : Val) (s : Int) : Val :=
  match x with
  | .nan => .nan
  | .inf n => .inf n
  | .fin n m e => .fin n m (e + s)

/-- FSCALE (R314). -/
def fscaleOp (f : FForm) (mode : Rounding) (l r : Word) : FResult :=
  fRound f mode ((fVal f l).scale r.toInt, false) (fSub f l)

/-- The greatest number below `2^n` with `p`, found bit by bit from the top. `p` holds downward. -/
def greatestBelow (p : Nat → Bool) : Nat → Nat → Nat
  | 0, acc => acc
  | n + 1, acc => if p (acc + 2 ^ n) then greatestBelow p n (acc + 2 ^ n) else greatestBelow p n acc

/-- rn12 of 1/sqrt(2^p × (1 + (k + 0.5)/128)), in units of 2^−12 (R231). -/
def frsqTable (p k : Nat) : Nat :=
  greatestBelow (fun q => (2 * q - 1) ^ 2 * (2 ^ p * (257 + 2 * k)) ≤ 256 * 2 ^ 26) 13 0

/-- rn12 of 1/(1 + (k + 0.5)/128), in units of 2^−12 (R231). -/
def frcpTable (k : Nat) : Nat := (2 * 4096 * 256 + (257 + 2 * k)) / (2 * (257 + 2 * k))

/-- `x` squared `n` times over. -/
def squared (x : Nat) : Nat → Nat
  | 0 => x
  | n + 1 => squared (x * x) n

/-- rn12 of 2^((j + 0.5)/128), in units of 2^−11 (R231): Q − ½ at most 2^(11 + (2j+1)/256). -/
def fexp2Table (j : Nat) : Nat :=
  greatestBelow (fun q => squared (2 * q - 1) 8 ≤ squared 4096 8 * 2 ^ (2 * j + 1)) 12 0

/-- rn12a of log2(1 + (k + 0.5)/128), in units of 2^−12 (R231): 2^(2Q−1) at most (a/256)^8192. -/
def flog2Table (k : Nat) : Nat :=
  let a := squared (257 + 2 * k) 13
  greatestBelow (fun q => 2 ^ (2 * q - 1) * squared 256 13 ≤ a) 13 0

/-- A finite non-zero value as 2^e × 1.m: e and the top 7 bits of m (R231). -/
def seedIndex (m : Nat) (e : Int) : Int × Nat :=
  let n := bitLength m
  (e + n - 1, if n ≤ 8 then m * 2 ^ (8 - n) - 128 else m / 2 ^ (n - 8) - 128)

/-- FRCP (R231, R232). -/
def frcpOp (f : FForm) (mode : Rounding) (l : Word) : FResult :=
  match fVal f l with
  | .nan => fRound f mode (.nan, false) false
  | .inf neg => fRound f mode (.fin neg 0 0, false) false
  | .fin neg m e =>
    if m = 0 then { fRound f mode (.inf neg, false) false with flags := { dz := true } }
    else
      let s := seedIndex m e
      fRound f mode (.fin neg (frcpTable s.2) (-12 - s.1), false) (fSub f l)

/-- FRSQ (R231, R232). -/
def frsqOp (f : FForm) (mode : Rounding) (l : Word) : FResult :=
  match fVal f l with
  | .nan => fRound f mode (.nan, false) false
  | .inf neg => if neg then fRound f mode (.nan, true) false else fRound f mode (.fin false 0 0, false) false
  | .fin neg m e =>
    if m = 0 then { fRound f mode (.inf neg, false) false with flags := { dz := true } }
    else if neg then fRound f mode (.nan, true) (fSub f l)
    else
      let s := seedIndex m e
      let p := (s.1 % 2).toNat
      fRound f mode (.fin false (frsqTable p s.2) (-12 - (s.1 - p) / 2), false) (fSub f l)

/-- FEXP2S (R231, R232). -/
def fexp2sOp (f : FForm) (mode : Rounding) (l : Word) : FResult :=
  match fVal f l with
  | .nan => fRound f mode (.nan, false) false
  | .inf neg => fRound f mode (if neg then .fin false 0 0 else .inf false, false) false
  | .fin neg m e =>
    if m = 0 then fRound f mode (.fin false 1 0, false) false
    else
      let x := signedInt neg m
      let n : Int := if 0 ≤ e then x * 2 ^ e.toNat else Int.fdiv x (2 ^ (-e).toNat)
      let j : Int :=
        if 0 ≤ e then 0
        else if -e > bitLength m + 8 then (if neg then 127 else 0)
        else Int.fdiv (128 * (x - n * 2 ^ (-e).toNat)) (2 ^ (-e).toNat)
      fRound f mode (.fin false (fexp2Table j.toNat) (n - 11), false) (fSub f l)

/-- FLOG2S (R231, R232). -/
def flog2sOp (f : FForm) (mode : Rounding) (l : Word) : FResult :=
  match fVal f l with
  | .nan => fRound f mode (.nan, false) false
  | .inf neg => if neg then fRound f mode (.nan, true) false else fRound f mode (.inf false, false) false
  | .fin neg m e =>
    if m = 0 then { fRound f mode (.inf true, false) false with flags := { dz := true } }
    else if neg then fRound f mode (.nan, true) (fSub f l)
    else
      let s := seedIndex m e
      let y : Int := s.1 * 4096 + flog2Table s.2
      fRound f mode (.fin (y < 0) y.natAbs (-12), false) (fSub f l)

/-- Lane `k` of a packed pair (R318). -/
def laneWord (k : Nat) (x : Word) : Word := BitVec.ofNat 64 (x.toNat / 2 ^ (32 * k) % 2 ^ 32)

/-- Two lane results packed, each with its own flags (R227, R318). -/
def packLanes (a b : FResult) : FResult :=
  ⟨BitVec.ofNat 64 (a.v.toNat + b.v.toNat * 2 ^ 32), a.flags.or b.flags, a.slow || b.slow⟩

/-- A two-operand E8M23 operation on both lanes (R318). -/
def lanes2 (g : Word → Word → FResult) (l r : Word) : FResult :=
  packLanes (g (laneWord 0 l) (laneWord 0 r)) (g (laneWord 1 l) (laneWord 1 r))

/-- VADD2 (R318). -/
def vadd2Op (mode : Rounding) : Word → Word → FResult := lanes2 (faddOp .e8m23 mode)
/-- VSUB2 (R318). -/
def vsub2Op (mode : Rounding) : Word → Word → FResult := lanes2 (fsubOp .e8m23 mode)
/-- VMUL2 (R318). -/
def vmul2Op (mode : Rounding) : Word → Word → FResult := lanes2 (fmulOp .e8m23 mode)
/-- VFMA2 (R318). -/
def vfma2Op (mode : Rounding) (l r t : Word) : FResult :=
  packLanes (ffmaOp .e8m23 mode (laneWord 0 l) (laneWord 0 r) (laneWord 0 t))
    (ffmaOp .e8m23 mode (laneWord 1 l) (laneWord 1 r) (laneWord 1 t))
/-- VDOT2: both products and the sum exact, one rounding (R318). -/
def vdot2Op (mode : Rounding) (l r : Word) : FResult :=
  let v (k : Nat) (x : Word) := fVal .e8m23 (laneWord k x)
  let p0 := (v 0 l).mul (v 0 r)
  let p1 := (v 1 l).mul (v 1 r)
  let s := sumVals mode [p0.1, p1.1]
  let sub (k : Nat) (x : Word) := fSub .e8m23 (laneWord k x)
  fRound .e8m23 mode (s.1, p0.2 || p1.2 || s.2) (sub 0 l || sub 1 l || sub 0 r || sub 1 r)

/-- The format of a partner of VCVT2 (R319). -/
def vpartnerFmt : VPartner → FloatFmt
  | .e5m10 => fmtE5M10
  | .e8m7 => fmtE8M7
  | .e4m3 => fmtE4M3
  | .e5m2 => fmtE5M2
  | .e3m2 => fmtE3M2
  | .e2m3 => fmtE2M3
  | .e2m1 => fmtE2M1

/-- The container width of an element of VCVT2 (R319). -/
def vpartnerBits : VPartner → Nat
  | .e5m10 => 16
  | .e8m7 => 16
  | .e4m3 => 8
  | .e5m2 => 8
  | .e3m2 => 8
  | .e2m3 => 8
  | .e2m1 => 4

/-- VCVT2 (R319). -/
def vcvt2Op (fromP : Bool) (q : VPartner) (mode : Rounding) (l : Word) : FResult :=
  let p := vpartnerFmt q
  let n := vpartnerBits q
  let one (k : Nat) : Rounded :=
    if fromP then convertFmt p fmtE8M23 mode (l.toNat / 2 ^ (n * k) % 2 ^ n)
    else convertFmt fmtE8M23 p mode (laneWord k l).toNat
  let a := one 0
  let b := one 1
  ⟨BitVec.ofNat 64 (a.bits + b.bits * 2 ^ (if fromP then 32 else n)), a.flags.or b.flags, a.tiny || b.tiny⟩

/-- One key component of CELL: floor of the exact product, clamped (R309). -/
def cellKey (c inv : Val) : Nat :=
  match (c.mul inv).1 with
  | .nan => 0
  | .inf neg => if neg then 0 else 2 ^ 21 - 1
  | .fin neg m e =>
    if neg && m != 0 then 0
    else if 0 ≤ e then (if e > 40 ∧ m ≠ 0 then 2 ^ 21 - 1 else min (m * 2 ^ e.toNat) (2 ^ 21 - 1))
    else min (m / 2 ^ (-e).toNat) (2 ^ 21 - 1)

/-- The bits of `x` spread to every third position, `n` of them. -/
def spread3 (x : Nat) : Nat → Nat
  | 0 => 0
  | n + 1 => x % 2 + 8 * spread3 (x / 2) n

/-- CELL: three key components interleaved (R309). `inv` is CELL.INV. -/
def cellOp (inv l r t : Word) : Word :=
  let k (x : Word) := spread3 (cellKey (fVal .e8m23 x) (fVal .e8m23 inv)) 21
  BitVec.ofNat 64 (k l + 2 * k r + 4 * k t)

/-- The mode of a floating instruction: its own, or FPC.RM as it stood when the instance started
(R226, R312). -/
def fmodeOf (fpc : Word) : FMode → Rounding
  | .fixed m => m
  | .fpc => Rounding.ofCode (fpc.toNat % 4)

end Sys2Proof.Machine
end

