-- ==== Sys2Proof/Config.lean ====
section
/-! DEFINITION. What an implementation fixes, and the free values. -/

namespace Sys2Proof.Config

/-- A value that the spec leaves open, fresh for each number: nothing constrains it. [DESIGN CHOICE: log 7] -/
opaque freeValue : Nat → BitVec 64

/-- Whether an access that finds an old translation cached uses the new one instead, by the number of the access and its
address (R36): nothing constrains it. [DESIGN CHOICE: log 29] -/
opaque newTranslation : Nat → Nat → Bool

end Sys2Proof.Config
end

