-- ==== Sys2Proof/Machine/State.lean ====
section
/-! DEFINITION. The state of a system of VCH-8A modules, as plain data: all that the spec gives the
machine, and the model's own fields `turns`, `focus`, `nextId` and `fresh`.
Things that exist many times over stand in tables sorted by key:
module m; die m·4 + d; cluster m·512 + 128·d + k; core m·8192 + c; slot 16·core + n. -/

namespace Sys2Proof.Machine

/-- A table by number, sorted, without repeats. -/
abbrev Tab (α : Type) := List (Nat × α)

/-- The value of a token (R269): 64 bits, perhaps poisoned, or NULL. -/
inductive Token where
  | null
  | data (v : Word) (poison : Bool)
  deriving DecidableEq, Repr, Inhabited

/-- A general register: its value, its poison (R59), and whether a reply to it is outstanding (R78,
R327, R361). [DESIGN CHOICE: log 6] -/
structure Reg where
  val : Word := 0#64
  poison : Bool := false
  pending : Bool := false
  deriving DecidableEq, Repr, Inhabited

/-- Where an instruction of an instance stands. -/
inductive NodeSt where
  /-- it has neither fired nor been resolved -/
  | idle
  /-- it has fired and waits for its event, reply or completion -/
  | waiting
  /-- it has fired and is done -/
  | fired
  /-- it was resolved without firing (R178); later tokens are absorbed -/
  | resolved
  deriving DecidableEq, Repr, Inhabited

/-- An instruction of a block instance: its word (R176) and its operand slots (R179). -/
structure Node where
  word : Nat
  left : Option Token := none
  right : Option Token := none
  third : Option Token := none
  st : NodeSt := .idle
  deriving DecidableEq, Repr, Inhabited

/-- A trap record that is pending, or being delivered (R390). -/
structure Trap where
  /-- CAUSE -/
  cause : Nat
  /-- TRAP.ADDR -/
  addr : Nat
  /-- TRAP.INFO -/
  info : Nat
  /-- ORIGIN: 0 to 3 -/
  origin : Nat := 0
  /-- REPLAY -/
  replay : Bool := false
  /-- TRAP.BLOCK.SEQ, of a copy, send or collective -/
  seq : Nat := 0
  /-- TRAP.BLOCK.ADDR where it is not the slot's own block -/
  block : Nat := 0
  /-- the block of the committed instance that it concerns, where a later one may stand in the slot (ORIGIN 01) -/
  own : Option Nat := none
  deriving DecidableEq, Repr, Inhabited

/-- The exit that has fired in an instance (R275, R299). -/
inductive Exit where
  | br (next : Nat)
  | call (next : Nat)
  | done
  | trap (code : Nat) (addr : Word)
  | repost (arg : Word)
  deriving DecidableEq, Repr, Inhabited

/-- A value for a control register that an MTC or DEADL of the instance writes at commit (R380). -/
structure CtlWrite where
  index : Nat
  val : Word
  /-- DEADL keeps FALLBACK (R352) -/
  keep : Bool := false
  /-- the system address that a watchpoint is armed at (R400) -/
  pa : Nat := 0
  deriving DecidableEq, Repr, Inhabited

/-- A deferred action that has fired and takes effect at commit (R333). -/
inductive Action where
  /-- MBXW: the mailbox and the engine (R338) -/
  | mbxw (mbx engine : Nat)
  /-- MBXR: the mailbox it has taken (R337) -/
  | mbxTaken (mbx : Nat)
  /-- a QPOP: its descriptor, how many of the instance's QPOPs on the queue came before it, and by how many items it moves HEAD:
  0 until it has one (R340) -/
  | popped (desc before n : Nat)
  /-- QPUSH: descriptor and item (R340) -/
  | push (desc : Nat) (item : Word)
  /-- POST and POSTC: the reserved entry (list key and entry), element, entry address, argument,
  priority and count (R345) -/
  | post (list entry element start : Nat) (arg : Word) (prio : Nat)
  /-- DEC (R346) -/
  | dec (ref : Word)
  /-- SPAWN: block address and g1 (R190) -/
  | spawn (start : Nat) (arg : Word)
  /-- MIGR: the target core's key (R191) -/
  | migr (core : Nat)
  /-- TRETRY (R353) -/
  | tretry (ref : Word)
  /-- TDROP (R353) -/
  | tdrop (ref : Word)
  /-- PRIO (R353) -/
  | prio (ref : Word) (prio : Nat)
  /-- COLOUR set: virtual and system address of the byte, and the colour (R351) -/
  | colour (va pa : Nat) (colour : Nat)
  /-- INJ: entry, and the instruction (R357) -/
  | inj (entry node : Nat)
  /-- RCVP take: entry taken (R358) -/
  | rcvTaken (entry : Nat)
  /-- RCVP free: entry (R358) -/
  | rcvFree (entry : Nat)
  /-- COLL: level, type, op, mode, value, and the register of the result or 0 (R361) -/
  | coll (level : Nat) (ty : CollTy) (op : CollOp) (mode : Rounding) (v : Word) (reg : Nat)
  /-- ERET: slot and where to continue (R381) -/
  | eret (slot : Nat) (back : Option Nat)
  /-- SWAPS: slot and entry (R382) -/
  | swaps (slot entry : Nat)
  /-- TLBI: kind 0 page, 1 ASID, 2 all; address, ASID, scope (R383) -/
  | tlbi (kind addr asid : Nat) (scope : Scope)
  /-- a TLBI that has acted and waits for its completion (R37): its message -/
  | tlbiWait (msg : Nat)
  /-- PARK (R384) -/
  | park (slot : Nat)
  /-- WAKE (R384) -/
  | wake (slot : Nat)
  /-- HALTS (R385) -/
  | halts (slot : Nat)
  /-- PWRQ (R386) -/
  | pwrq (units : Nat)
  /-- CSYNC (R387) -/
  | csync
  /-- TRQPOP: pail offset, die key, latch, and the record's queue position (R388) -/
  | trqpop (addr die : Nat) (latch : Bool) (pos : Nat)
  /-- KREG seal: virtual address of the entry (R389) -/
  | seal (va pa : Nat)
  /-- a KREG seal whose checksum is on its way: the access that stores it -/
  | sealed (acc : Nat)
  deriving DecidableEq, Repr, Inhabited

/-- What a memory access does at its point of coherence (R64, R99, R103). Offsets are bytes within the
aligned word or pair that holds the bytes accessed. -/
inductive MemOp where
  | load (size : Nat) (signed : Bool)
  | store (size : Nat) (v : Word) (hi : Word) (poison : Bool)
  | ldsync | ldff | festat | sete
  | stsync (v : Word) (poison : Bool)
  | stff (v : Word) (poison : Bool)
  | rsv (w : Width)
  | cas (w : Width) (cmp new : Word)
  | swap (w : Width) (v : Word)
  | amin (w : Width) (unsigned : Bool) (v : Word)
  | amax (w : Width) (unsigned : Bool) (v : Word)
  | amadd (w : Width) (v : Word) (reg : Option Nat)
  /-- release with a value into the named part of the word -/
  | rel (w : Width) (v : Word)
  /-- release unchanged -/
  | reln (w : Width)
  | mwait (v : Word)
  | barj | bara | barx
  | barw (gen : Nat)
  /-- LZARM's addition to PENDING (R150) -/
  | arm (bytes : Nat)
  /-- PHASE: the level (R121) -/
  | phase (level : Nat)
  /-- LZFREE: zone and zone slot (R150) -/
  | zfree (zone zslot : Nat)
  /-- LZRSV: payload bytes (R150) -/
  | zrsv (bytes : Nat)
  /-- a killed thread's barrier object breaks (R116) -/
  | breakBar
  /-- a place in a hold queue, for an access that its party makes itself when its turn has come (R77, R99) -/
  | turn
  /-- a write of raw bytes by a Q operation or a queue push; each byte with the poison of its word -/
  | bytes (bs : List Byte) (poison : Bool)
  deriving DecidableEq, Repr, Inhabited

/-- Where an access of a slot stands. -/
inductive AccSt where
  /-- its address waits for a page walk (R27) -/
  | walking
  /-- translated, not yet sent -/
  | ready
  /-- sent to its point of coherence; a reply is outstanding -/
  | sent
  /-- answered NACK: it is resent when its back-off is over (R100) -/
  | refused
  /-- answered NOT_READY: it is resent at the slot's next turn (R106) -/
  | unready
  /-- a holding access whose grant has arrived -/
  | granted
  /-- it has performed and been acknowledged -/
  | done
  deriving DecidableEq, Repr, Inhabited

/-- When an operation performs (R64). -/
inductive PerformKind where
  | inBlock | holding | commitTime
  deriving DecidableEq, Repr, Inhabited

/-- An access of a slot, from its firing until it is acknowledged (R64 to R73). -/
structure Acc where
  id : Nat
  /-- the instance that made it, counted per slot -/
  inst : Nat
  /-- its LSID; an access without one follows those that have one (R248, R349, R363) -/
  lsid : Nat
  /-- the instruction that made it -/
  node : Nat
  kind : PerformKind
  /-- ordered by R70; a relaxed or remote access is not -/
  ordered : Bool
  op : MemOp
  /-- the address operand, after its offset -/
  va : Nat
  /-- the system address of the location, once translated -/
  pa : Nat := 0
  /-- a global name's module, for remote accesses (R354) -/
  remote : Option Nat := none
  /-- the system address at which a remote hold was granted -/
  phys : Nat := 0
  st : AccSt := .ready
  /-- the instance has committed -/
  committed : Bool := false
  /-- bytes taken by forwarding (R68): offset from `va`, byte, poison -/
  forwarded : List (Nat × Byte × Bool) := []
  /-- parts of a torn access still to be answered (R57) -/
  parts : Nat := 1
  /-- the value that has come back: the word, or the two halves -/
  got : Word := 0#64
  gotHi : Word := 0#64
  gotPoison : Bool := false
  /-- NOT_READY answers so far (R106) -/
  tries : Nat := 0
  /-- NACKs so far (R100), and the parts to be resent (R57) -/
  nacks : Nat := 0
  again : List Nat := []
  /-- of the second request of a torn access: its NACKs, and the cycle from which it may be resent (R57, R100) -/
  nacksHi : Nat := 0
  notBeforeHi : Nat := 0
  /-- XLAT.ASID when it fired (R27, R31) -/
  asid : Nat := 0
  /-- the block of its instance (R390) -/
  blk : Nat := 0
  /-- sent as a park request (R106) -/
  park : Bool := false
  /-- the cycle from which it may be resent -/
  notBefore : Nat := 0
  /-- when it was sent, for FAB.TMO (R167) -/
  sentAt : Nat := 0
  /-- a RADD that its target cannot perform: width and addend of the add that the requester makes by a hold (R169) -/
  byHold : Option (Width × Word) := none
  deriving DecidableEq, Repr, Inhabited

/-- A FENCE of a committed instance that still holds accesses back (R75, R76). -/
structure Fence where
  inst : Nat
  lsid : Nat
  scope : Scope
  deriving DecidableEq, Repr, Inhabited

/-- A copy request or landing send of a slot not yet handed off (R123, R125, R153). -/
structure CopyReq where
  inst : Nat
  lsid : Nat
  /-- 0 CPY, 1 CPYX, 2 CPYT, 3 CPYS -/
  form : Nat
  land : Bool
  ctx : Nat
  reuse : Bool
  pba : Nat
  /-- a FENCE at ENG stands between it and the slot's earlier requests on its context (R82) -/
  eng : Bool := false
  deriving DecidableEq, Repr, Inhabited

/-- Where an LSID of an instance stands (R67). -/
inductive LsidSt where
  /-- its operation has fired -/
  | fired
  /-- resolved without firing -/
  | nullified
  deriving DecidableEq, Repr, Inhabited

/-- Values staged in the matrix unit by an instance (R243): bytes by system address, with poison of
their 4-byte unit. -/
structure Staged where
  bytes : Tab (Byte × Bool) := []
  /-- tiles and accumulators written -/
  tiles : List Nat := []
  accs : List Nat := []
  deriving DecidableEq, Repr, Inhabited

/-- A block instance (R175 to R184). -/
structure Inst where
  /-- its number in the slot -/
  num : Nat
  /-- block address -/
  blk : Nat
  nput : Nat := 0
  nlsid : Nat := 0
  drain : Bool := false
  smask : Nat := 0
  nodes : List Node
  /-- registers as they stood at the start (R180) -/
  regs0 : Tab Reg := []
  /-- slot control registers as they stood at the start (R226, R309, R379) -/
  fpc0 : Word := 0#64
  cellInv0 : Word := 0#64
  tcfg0 : Tab Word := []
  join0 : Nat := 0
  /-- the membership list as it stands for the listing checks of the instance (R331) -/
  members0 : List Nat := []
  /-- the exit that has fired, with its exit number -/
  exit : Option (Exit × Nat) := none
  /-- PUTs that have received a value: register, value, poison (R180) -/
  puts : List (Nat × Word × Bool) := []
  /-- PUTs that an AMADD or COLL will answer: register (R327, R361) -/
  pends : List Nat := []
  /-- resolved LSIDs (R67) -/
  lsids : Tab LsidSt := []
  /-- flags raised (R227) -/
  flags : Word := 0#64
  /-- control-register writes (R380) -/
  ctl : List CtlWrite := []
  /-- deferred actions by instruction index (R333) -/
  actions : Tab Action := []
  /-- copy requests queued (R123) -/
  copies : List CopyReq := []
  /-- the cycle of the first grant, for HOLD.LIMIT (R102) -/
  firstGrant : Option Nat := none
  staged : Staged := {}
  /-- a scale error to report after commit: byte offset, rows, column (R61) -/
  scaleError : Option (Nat × Nat × Nat) := none
  deriving DecidableEq, Repr, Inhabited

/-- Why a thread does not run (R399). -/
inductive Halt where
  | none
  /-- parked by PARK (R384) -/
  | parked
  /-- parked by a replayable fault; `dropped` when its record was dropped (R396) -/
  | replay (dropped : Bool)
  /-- stopped by a fatal trap -/
  | fatal
  /-- stopped by SOFTWARE -/
  | software
  deriving DecidableEq, Repr, Inhabited

/-- What a slot with a thread does next. -/
inductive Life where
  /-- no thread (R171) -/
  | free
  /-- the next block is to be fetched -/
  | fetch
  /-- an instance is there -/
  | run
  /-- the exit was DONE or REPOST; the end waits (R86, R190) -/
  | ending (repost : Option Word)
  /-- killed: what its committed instances owe still leaves, then the slot is free (R88, R385) -/
  | killed
  deriving DecidableEq, Repr, Inhabited

/-- A membership-list entry (R113): the object's system address, and the generation at the last
arrival. -/
structure Member where
  addr : Nat
  gen : Option Nat := none
  deriving DecidableEq, Repr, Inhabited

/-- What stands in a worker slot of an element level, or a cluster list's worker (R188, R208). -/
structure TaskInfo where
  /-- the list: the system address of a core's run list, or 2^80 + a cluster key -/
  list : Nat
  entry : Nat
  /-- the task handle (R189) -/
  handle : Nat
  /-- the bound element -/
  element : Option Nat := none
  /-- the cycle at which it was dispatched, for DEADLINE (R218) -/
  start : Nat := 0
  /-- elements held shared and exclusive (R210) -/
  held : List Nat := []
  colour : Bool := false
  deriving DecidableEq, Repr, Inhabited

/-- A slot of a core (R171). [DESIGN CHOICE: log 6] -/
structure Slot where
  life : Life := .free
  halt : Halt := .none
  /-- the next block's address -/
  next : Nat := 0
  /-- the block of the last instance (TRAP.BLOCK) -/
  blk : Nat := 0
  inst : Option Inst := none
  /-- the fetch of the next block waits for a page walk: the address of the word that missed (R27) -/
  fetchMiss : Option Nat := none
  /-- XLAT.ASID when that fetch was made -/
  fetchAsid : Nat := 0
  /-- instances so far -/
  count : Nat := 0
  regs : Tab Reg := []
  /-- FPC (R226) -/
  fpc : Word := 0#64
  /-- FE.RETRY (R106) -/
  feRetry : Word := 16#64
  /-- CELL.INV (R308) -/
  cellInv : Word := 0x3F800000#64
  /-- SEP.EPS and SEP.BETA (R251) -/
  sepEps : Word := 0x34000000#64
  sepBeta : Word := 0#64
  /-- DEADLINE (R218) -/
  deadline : Word := 0#64
  task : Option TaskInfo := none
  /-- it runs its die's handler thread: the registers of its file, as they were when the thread started (R398) -/
  handlerFile : Option Nat := none
  /-- the launch: its record's system address; 0 for none -/
  launch : Nat := 0
  /-- instance indices at each level, outermost first (R186, R360) -/
  ranks : List Nat := []
  /-- the thread that spawned this one: its slot key, or 2^64 + 64 × cluster + entry while it stands saved
  (R190) -/
  parent : Option Nat := none
  /-- join count (R190) -/
  join : Nat := 0
  members : List Member := []
  /-- exit number of the last committed instance (R275) -/
  exn : Nat := 0
  trapCause : Word := 0xFFFFFFFF00000000#64
  trapAddr : Word := 0#64
  trapBlock : Word := 0#64
  trapInfo : Word := 0#64
  trapVec : Word := 0#64
  /-- pending traps, in the order of R393 -/
  pending : List Trap := []
  /-- a record being drained and queued (R394) -/
  record : Option Trap := none
  /-- accesses not yet acknowledged, in program order -/
  accs : List Acc := []
  fences : List Fence := []
  /-- copy requests to hand off, and actions of committed instances with their instance -/
  copies : List CopyReq := []
  post : List (Nat × Action) := []
  /-- contexts on which no request has followed the last FENCE at ENG, and the numbers that requests of a
  context must let retire first (R82) -/
  engPend : List Nat := []
  engAfter : Tab Nat := []
  /-- the last cycle in which it issued (R172) -/
  lastIssue : Option Nat := none
  /-- served by the normaliser until this cycle (R174) -/
  slowUntil : Nat := 0
  /-- a matrix operation is under way (R242) -/
  matrix : Bool := false
  /-- copies of the thread not retired (R142) -/
  unretired : List Nat := []
  /-- collective results awaited: the contribution and the register, or 0 (R361, R402) -/
  collPending : List (Nat × Nat) := []
  /-- the k-th collective of each level (R361) -/
  collCount : Tab Nat := []
  /-- deadline expired, to take effect at the boundary (R219) -/
  expired : Bool := false
  /-- PARK waits for the boundary (R384) -/
  parkAtBoundary : Bool := false
  /-- SWAPS has stopped the thread (R382) -/
  swapping : Bool := false
  /-- trap records queued while the context stood saved, and the slot it was saved from (R403) -/
  queued : Nat := 0
  savedFrom : Nat := 0
  deriving DecidableEq, Repr, Inhabited

/-- A mailbox (R126): request, number, taken by MBXR (R337), submission refused until a cycle (R132). -/
structure Mailbox where
  full : Bool := false
  req : Option CopyReq := none
  slot : Nat := 0
  number : Nat := 0
  taken : Bool := false
  order : Nat := 0
  deriving DecidableEq, Repr, Inhabited

/-- A range-scoreboard entry (R143). -/
structure Range where
  copy : Nat
  lo : Nat
  hi : Nat
  write : Bool
  scale : Bool
  deriving DecidableEq, Repr, Inhabited

/-- The state of a landing-zone slot (R148). -/
inductive ZoneSt where
  | free | reserved | filling | landed | poisoned
  deriving DecidableEq, Repr, Inhabited

/-- A landing-zone slot (R149). -/
structure ZoneSlot where
  st : ZoneSt := .free
  /-- sender: slot key -/
  sender : Nat := 0
  seq : Nat := 0
  bytes : Nat := 0
  landed : Nat := 0
  /-- the cycle at which the timer expires -/
  timer : Option Nat := none
  /-- the send that fills it, once it has begun -/
  send : Nat := 0
  /-- the system addresses of its first byte, of its stamp, and of the arrival barrier, or 0 (R145, R146) -/
  base : Nat := 0
  stamp : Nat := 0
  bar : Nat := 0
  deriving DecidableEq, Repr, Inhabited

/-- A watchpoint (R400). -/
structure Watch where
  addr : Word := 0#64
  mask : Word := 0x0000FFFFFFFFFFF8#64
  /-- the system address armed, when EN = 1 -/
  pa : Nat := 0
  slot : Nat := 0
  deriving DecidableEq, Repr, Inhabited

/-- A state of a receive entry (R358). -/
inductive RcvSt where
  | empty | full | taken
  deriving DecidableEq, Repr, Inhabited

/-- A block-cache line: tag, the words as filled, and use order (R49). -/
structure CacheLine where
  addr : Nat
  bytes : List Byte
  used : Nat
  deriving DecidableEq, Repr, Inhabited

/-- An acquisition of the Parlour agent (R210). -/
structure Attempt where
  entry : Nat
  ball : List Nat
  granted : List Nat := []
  /-- requests outstanding -/
  waiting : List Nat := []
  sentAt : Nat := 0
  deriving DecidableEq, Repr, Inhabited

/-- A refill under way (R341). -/
structure Refill where
  /-- the owner, as a thread, and the slot from which it asked -/
  slot : Nat
  issuer : Nat := 0
  desc : Nat
  pool : Nat
  batch : Nat
  old : Option Nat := none
  /-- NACKs of its AMADD so far, and the cycle from which it asks again (R100) -/
  nacks : Nat := 0
  again : Option Nat := none
  /-- the fault that ends it, once its descriptor can be written (R342) -/
  failed : Option Trap := none
  deriving DecidableEq, Repr, Inhabited

/-- A core. [DESIGN CHOICE: log 6] -/
structure Core where
  /-- the launch that owns it: its record's system address; 0 for none (R14) -/
  launch : Nat := 0
  /-- PARTITION (R40) -/
  partition : Word := 0#64
  /-- OWN and SOWN of the launch record (R185) -/
  own : Word := 0xFFFFFFFFFFFFFFFF#64
  sown : Nat := 0xFFFF
  /-- XLAT.BASE, XLAT.ASID (R21) -/
  xlatBase : Word := 0#64
  xlatAsid : Word := 0#64
  /-- HOLD.LIMIT (R102) -/
  holdLimit : Word := 0x00100000#64
  /-- FAB.TMO (R167) -/
  fabTmo : Word := 3000#64
  /-- TCFG0 to TCFG7 (R239); unlisted: the reset value -/
  tcfg : Tab Word := []
  /-- issue counts and timeline counters (R127) -/
  issue : Tab Nat := []
  timeline : Tab Nat := []
  /-- numbers retired out of order, by context -/
  retired : List (Nat × Nat) := []
  /-- TLERR (R140) -/
  tlerr : Word := 0#64
  mailboxes : Tab Mailbox := []
  /-- the mailbox to be filled next (R125) -/
  nextMbx : Nat := 0
  handed : Nat := 0
  scoreboard : List Range := []
  /-- ZDESC0 to ZDESC3 (R145) -/
  zdesc : Tab Word := []
  /-- sequence counters, 1 when a launch takes the core (R147) -/
  zseq : Tab Nat := []
  /-- zone slots: 16·zone + slot (R149) -/
  zslots : Tab ZoneSlot := []
  watches : Tab Watch := []
  blockCache : List CacheLine := []
  /-- tiles written by copies under way (R135): tile and copy -/
  busyTiles : List (Nat × Nat) := []
  /-- the claim of the matrix unit: slot and cycle; and the slots that wait for it (R243) -/
  claim : Option (Nat × Nat) := none
  claimWait : List Nat := []
  /-- the Q operation under way: slot, node and token (R242) -/
  qbusy : Option (Nat × Nat × Word × Bool) := none
  /-- the slot that the normaliser serves, and those that wait (R174) -/
  normQueue : List Nat := []
  /-- receive entries and the next to fill (R358); entries claimed by uncommitted takes -/
  rcv : Tab RcvSt := []
  rcvNext : Nat := 0
  rcvClaimed : List Nat := []
  /-- FULL entries, the oldest first -/
  rcvOrder : List Nat := []
  /-- the power request, what it becomes next period, the grant and the share (R412, R414) -/
  pwrReq : Nat := 64
  pwrNext : Nat := 64
  pwrGrant : Nat := 0
  pwrCap : Nat := 0
  /-- the graph descriptor of the launch whose element level the core hosts, and the core's place among
  the home cores (R200, R201) -/
  desc : List Word := []
  home : Nat := 0
  attempt : Option Attempt := none
  /-- refused entries: entry and when they may be tried again (R204) -/
  refused : Tab Nat := []
  /-- refused entries that a word of the core refused, with that word's address (R204) -/
  wakeable : List (Nat × Nat) := []
  /-- entries whose task the launch posted, so that g8 comes from ARGS (R220) -/
  launchPosted : List Nat := []
  /-- shared holds granted to other modules: element word address, module (R212) -/
  lent : List (Nat × Nat) := []
  refills : List Refill := []
  /-- reservation NACKs and copy refusals (R100, R132) -/
  nacks : Nat := 0
  refusals : Nat := 0
  /-- packet sequence number (R162) -/
  packet : Nat := 0
  /-- module ids that answered UNSUP (R169) -/
  unsup : List Nat := []
  deriving DecidableEq, Repr, Inhabited

/-- A translation-cache entry (R26). -/
structure TlbEntry where
  asid : Nat
  g : Bool
  /-- the level of the leaf: 3, 2 or 1 -/
  level : Nat
  /-- virtual page number: VA divided by the page size -/
  vpn : Nat
  /-- physical page address -/
  pa : Nat
  w : Bool
  x : Bool
  u : Bool
  deriving DecidableEq, Repr, Inhabited

/-- A task of a run list held outside the pail: a cluster list's entry (R208). [DEDUCED: log 107] -/
structure ListEntry where
  w0 : Word := 0#64
  w1 : Word := 0#64
  w2 : Word := 0#64
  /-- the launch that posted it -/
  launch : Nat := 0
  /-- the fabric time of the post, of which AGE holds the low bits (R205) -/
  posted : Nat := 0
  deriving DecidableEq, Repr, Inhabited

/-- A cluster. -/
structure Cluster where
  /-- the translation cache (R26) -/
  tlb : List TlbEntry := []
  /-- the run list (R208) -/
  list : Tab ListEntry := []
  /-- saved contexts by entry (R402): their 1 KiB images stand in memory; here the thread itself -/
  contexts : Tab Slot := []
  /-- PWR.CCAP (R413) -/
  ccap : Word := 1660#64
  /-- the committed SWAPS that have not acted: issuing slot and entry, in commit order (R382) -/
  swaps : List (Nat × Nat) := []
  deriving DecidableEq, Repr, Inhabited

/-- A page walk, or a miss waiting for one (R28, R29). -/
structure Walk where
  cluster : Nat
  asid : Nat
  va : Nat
  base : Nat
  started : Bool := false
  /-- the level whose entry was read last, and that entry, and whether its word was poisoned (R29, R30) -/
  level : Nat := 4
  read : Option (Word × Bool) := none
  /-- cancelled by a TLBI: its result is not installed (R37) -/
  stale : Bool := false
  deriving DecidableEq, Repr, Inhabited

/-- A parameter-block cache entry of an edge engine (R131). -/
structure PbEntry where
  asid : Nat
  pba : Nat
  words : List Word
  deriving DecidableEq, Repr, Inhabited

/-- An edge engine (R131, R132). -/
structure Engine where
  cache : List PbEntry := []
  /-- copies it holds -/
  queue : List Nat := []
  /-- its own translations (R37) -/
  tlb : List TlbEntry := []
  deriving DecidableEq, Repr, Inhabited

/-- A die's registers (R395, R402, R413). [DESIGN CHOICE: log 6] -/
structure Die where
  tqBase : Word := 0#64
  tqHead : Nat := 0
  tqTail : Nat := 0
  tqHandler : Word := 0#64
  mchk : Bool := false
  latched : Bool := false
  lost : Nat := 0
  dropped : Nat := 0
  latch : List Word := [0#64, 0#64, 0#64, 0#64]
  /-- records claimed by uncommitted TRQPOPs: queue positions; the latch's claim (R388) -/
  claims : List Nat := []
  latchClaim : Bool := false
  /-- positions removed out of order: HEAD passes them in turn (R388) -/
  removed : List Nat := []
  /-- the handler thread runs (R398) -/
  handler : Bool := false
  ctxBase : Word := 0#64
  dcap : Word := 212500#64
  /-- the cap in force after throttling, and THROTTLE (R413, R416) -/
  throttle : Option Nat := none
  /-- the cluster from which the walker's next search begins (R28) -/
  walkTurn : Nat := 0
  /-- grant periods since boot (R414) -/
  periods : Nat := 0
  engines : Tab Engine := []
  deriving DecidableEq, Repr, Inhabited

/-- A copy or landing send under way (R128 to R138, R153, R154). -/
structure Copy where
  /-- issuing slot key, launch and level -/
  slot : Nat
  req : CopyReq
  number : Nat
  /-- the snapshot (R131) -/
  block : List Word := []
  engine : Nat := 0
  /-- accepted by its engine -/
  accepted : Bool := false
  /-- the row to be moved next, and rows written -/
  row : Nat := 0
  /-- CODE once it is known, with the trap it raises -/
  code : Option Nat := none
  trap : Option Trap := none
  /-- PENDING was added (R117) -/
  tagged : Bool := false
  bar : Nat := 0
  /-- an access of the copy waits: the cycle from which it resubmits, refusals (R132) -/
  notBefore : Nat := 0
  /-- a FENCE ENG stands before it: the numbers that must retire first (R82) -/
  after : Nat := 0
  /-- landing send: packets sent, the time of the last, and whether the stamp was acknowledged -/
  sent : Nat := 0
  sentAt : Option Nat := none
  landed : Bool := false
  /-- and its payload bytes acknowledged at the target (R117) -/
  put : Nat := 0
  deriving DecidableEq, Repr, Inhabited

/-- An edge of the state of a fabric link (R165). -/
structure Link where
  lanes : Nat := 8
  retrains : Nat := 0
  deriving DecidableEq, Repr, Inhabited

/-- A launch queue (R195). -/
structure LaunchQueue where
  records : List Nat := []
  ovf : Bool := false
  ring : Word := 0#64
  cpos : Nat := 0
  deriving DecidableEq, Repr, Inhabited

/-- A launch that a module has taken (R185 to R188, R199). Its key is instance × 2^61 + module × 2^48 + record address; the
instance is 0 but for a child launch. -/
structure Launch where
  /-- queue it came from, on its origin -/
  queue : Nat := 0
  origin : Nat := 0
  /-- modules of the launch -/
  modules : List Nat := []
  /-- the sixteen words of the record as taken (R185) -/
  record : List Word := []
  /-- the graph descriptor, the ARGS words and the ZDESC values as read at the start (R200, R440) -/
  desc : List Word := []
  args : List Word := []
  zones : List Word := []
  /-- answers still awaited by the origin (R199), and a refusal seen -/
  awaiting : List Nat := []
  refused : Bool := false
  running : Bool := false
  /-- XLAT.BASE and ASID that the registry gives it (R198) -/
  base : Word := 0#64
  asid : Word := 0#64
  /-- its slots: slot key, and the indices of each level (R186) -/
  threads : List (Nat × List Nat) := []
  /-- the units of the instances of its NEST level here: number, first slot and number of slots (R185) -/
  nest : List (Nat × Nat × Nat) := []
  /-- its cores here -/
  cores : List Nat := []
  /-- core keys of the element level, in order (R201) -/
  homes : List Nat := []
  /-- threads and tasks ended normally here, and on the modules that have reported -/
  ended : Nat := 0
  total : Nat := 0
  killed : Bool := false
  /-- a child launch's parent; and what child launches that have closed leave behind: normal ends, and whether one was killed
  (R185, R187) -/
  parent : Nat := 0
  below : Nat := 0
  belowKilled : Bool := false
  /-- the colour of the latest colour phase plus 1, 0 before the first, and its tasks (R217) -/
  colour : Nat := 0
  colourTasks : List (Nat × Nat) := []
  /-- modules whose reports are still to come (R199) -/
  reports : List Nat := []
  deriving DecidableEq, Repr, Inhabited

/-- A phase-tree node's context of a level instance (R120 to R122). -/
structure PhaseCtx where
  launch : Nat
  level : Nat
  /-- which instance of the level: the indices at levels 0 to L -/
  index : List Nat
  /-- the level's domain, and the slots of the instance's unit: every tree node that it spans gives it one of its contexts -/
  domain : Nat := 0
  lo : Nat := 0
  n : Nat := 0
  /-- the members at the start in the order of their ranks (R360), and those that live: slot keys -/
  all : List Nat := []
  members : List Nat := []
  arrived : List Nat := []
  broken : Bool := false
  deriving DecidableEq, Repr, Inhabited

/-- A member's contribution to a collective (R361). -/
structure Contribution where
  /-- its own number, by which the awaiting thread is found -/
  tag : Nat
  /-- the member: a slot key, or 2^64 + 64 × cluster + entry while it stands saved -/
  slot : Nat
  /-- the core and the number on its TL6 (R127) -/
  core : Nat
  number : Nat
  ty : CollTy
  op : CollOp
  mode : Rounding
  v : Word
  deriving DecidableEq, Repr, Inhabited

/-- A collective under way (R361). -/
structure Collective where
  /-- the level instance, as its phase-tree context, and which of its collectives this is -/
  ctx : Nat
  k : Nat
  vals : List Contribution := []
  /-- complete: the result, and whether it is an error -/
  ready : Bool := false
  error : Bool := false
  result : Word := 0#64
  /-- members that have their result -/
  given : List Nat := []
  deriving DecidableEq, Repr, Inhabited

/-- Where a module stands (R404 to R408). -/
inductive Boot where
  | off
  | failed (stage : Nat)
  | running
  | frozen
  deriving DecidableEq, Repr, Inhabited

/-- A module. [DESIGN CHOICE: log 6, 108] -/
structure Module where
  boot : Boot := .off
  /-- the module is populated (R19) -/
  populated : Bool := false
  bootAt : Nat := 0
  /-- fabric time in microseconds (R206) -/
  fabricTime : Nat := 0
  /-- VERSION of the image, and LOAD: where boot has put it in tier-2 memory (R408, R409) -/
  version : Word := 0#64
  load : Nat := 0
  /-- fuses: KEYHASH0, KEYHASH1 and the rollback floor (R408, R410) -/
  keyHash0 : Nat := 0
  keyHash1 : Nat := 0
  rollback : Nat := 0
  bootRom : Word := 0#64
  /-- host-window base (R17, R408) and CXL capacities (R439) -/
  hwBase : Nat := 0
  cxlCap : Tab Nat := []
  queues : Tab LaunchQueue := []
  /-- decisions so far, and where each round-robin stands (R196) -/
  decisions : Nat := 0
  /-- the number from which the next search begins -/
  lastQueue : Tab Nat := []
  lastClass : Nat := 0
  /-- watchdog (R404) -/
  watchdog : Word := 500#64
  watchAt : Nat := 0
  /-- RESYNC.CTL (R418) -/
  resync : Word := 0#64
  /-- path table (R160): entry number 4·module + k -/
  paths : Tab Word := []
  /-- the entry index that a launch has pinned for its traffic, by its record's address (R160) -/
  pins : Tab Nat := []
  links : Tab Link := []
  /-- peers that announced FROZEN, with the time; lost modules (R405, R168) -/
  frozenPeers : Tab Nat := []
  lostModules : List Nat := []
  /-- counters of R419: correctable errors of pool, banks, scale memory, tier-2; uncorrectable errors;
  zone misuse; task misuse -/
  ceCounts : List Nat := [0, 0, 0, 0]
  ueCount : Nat := 0
  zoneMisuse : Nat := 0
  taskMisuse : Nat := 0
  /-- the context registry: where it lies and how many entries (R407) -/
  registry : Nat := 0x27FFF000000
  registryLen : Nat := 1024
  /-- functions enabled at the expert level: launch record and function (R417) -/
  expert : List (Nat × Nat) := []
  /-- trap records dropped and lost since boot (R419) -/
  trapsDropped : Nat := 0
  trapsLost : Nat := 0
  /-- since when the module is frozen, and whether its control cores have rebooted since (R405, R406) -/
  frozenAt : Nat := 0
  rebooted : Bool := false
  /-- what boot meets outside the model: the stages of R408 that fail, and the capacity attached to each CXL
  port, 0 where training fails (R408, R439) -/
  bootFaults : List Nat := []
  /-- the image that the boot server transfers (R408) -/
  bootImage : List Byte := []
  /-- the physical address at which the control cores entered (R408, R411) -/
  entered : Nat := 0
  cxlAttached : Tab Nat := []
  /-- CAP.AMADD.REMOTE (R169) -/
  addRemote : Bool := true
  deriving DecidableEq, Repr, Inhabited

/-- Who made a request at a point of coherence. -/
inductive Source where
  /-- an access of a slot: slot key and access -/
  | slot (slot acc : Nat)
  /-- a copy or landing send -/
  | copy (id : Nat)
  /-- a refill unit: core key, and the descriptor that it refills -/
  | refill (core desc : Nat)
  /-- a Parlour agent: core key -/
  | agent (core : Nat)
  /-- an outside bus master, or a unit of a module that writes on its own -/
  | outside (module : Nat)
  /-- the fetch of a slot's next block -/
  | fetch (slot : Nat)
  /-- an instruction's read of memory outside the LSIDs (R248, R349, R363) -/
  | node (slot node : Nat)
  /-- a message that acts on memory when it arrives -/
  | msg (id : Nat)
  /-- a unit of the hardware, by a number of its own: a zone slot, a launch unit, a die's trap unit -/
  | unit (n : Nat)
  deriving DecidableEq, Repr, Inhabited

/-- A request at or on its way to a point of coherence (R99). -/
structure Req where
  src : Source
  inst : Nat := 0
  op : MemOp
  /-- system address -/
  pa : Nat
  /-- which part of a torn access (R57) -/
  part : Nat := 0
  park : Bool := false
  /-- AMADDs combined into this one: instance, source, and what is added to the old value for it (R105) -/
  combined : List (Nat × Source × Word) := []
  /-- the switches that hold a combining record for it, the latest first (R105) -/
  joins : List Nat := []
  /-- of a barrier operation, the generation recorded by the slot (R113) -/
  recorded : Option Nat := none
  /-- of a request that was translated at its target: the ASID, the address, and when (R20, R37) -/
  trans : Option (Nat × Nat × Nat) := none
  deriving DecidableEq, Repr, Inhabited

/-- An answer of a point of coherence (R65, R99). -/
inductive Answer where
  | value (v : Word) (hi : Word) (poison : Bool)
  | grant (v : Word)
  | ack
  | notReady
  | nack
  | full
  /-- POISON: the SOURCE code, and whether it is the second word of the location that is poisoned (R63) -/
  | poisoned (src : Nat) (second : Bool)
  | gen (g : Nat)
  | fault (t : Trap)
  | unsup
  deriving DecidableEq, Repr, Inhabited

/-- What a core's Parlour agent asks of a stall word (R211). -/
inductive StallOp where
  | takeX | takeS
  deriving DecidableEq, Repr, Inhabited

/-- A message in flight. -/
inductive Msg where
  /-- a memory request (R99) -/
  | req (r : Req)
  /-- a release, or the end of a hold unchanged (R99) -/
  | release (r : Req)
  /-- a cancel from a discarded instance (R109): slot key, access, word -/
  | cancel (slot acc pa : Nat)
  /-- an answer to a source -/
  | reply (src : Source) (inst part : Nat) (pa : Nat) (a : Answer)
  /-- the answer to a combined AMADD, to be split (R105) -/
  | combined (r : Req) (a : Answer)
  /-- a barrier operation (R113) -/
  | barrier (r : Req) (recorded : Option Nat)
  /-- an arrival at the phase tree (R121): level, slot key; and the release of a context -/
  | phaseArrive (level slot : Nat)
  | phaseRelease (ctx : Nat)
  /-- a fabric request (R162): sending core, packet number, the request, its module -/
  | remote (core seq slot module : Nat) (r : Req)
  /-- a landing reservation (R152): slot key, access, zone name, bytes -/
  | reserveZone (slot acc : Nat) (name bytes : Nat)
  /-- a landing packet (R153): copy, sender's slot key, zone name, grant, byte count of the send, offset,
  bytes with poison -/
  | landing (copy sender name grant total off : Nat) (bytes : List (Byte × Bool))
  /-- a sender's abort (R154) -/
  | abort (copy sender name grant : Nat)
  /-- the stamp's acknowledgement, or a refusal (R154): copy, accepted -/
  | landAck (copy : Nat) (ok : Bool)
  /-- LZFREE presented to the service slot (R149): slot key, access, zone, slot -/
  | lzfree (slot acc zone zslot : Nat)
  /-- a message packet (R357): sender slot key, target core key, injection entry, the block of its instance, when it was last
  sent, NACKs so far, the cycle from which it may be resent, header, payload -/
  | packet (slot target entry blk sentAt nacks notBefore : Nat) (header : Word) (payload : List Word)
  /-- a collective's result for a member: the collective and the contribution (R361) -/
  | collective (id tag : Nat)
  /-- spanning launches (R199): launch, from, to, the part that the target carries, and the record's bytes -/
  | reserve (launch target : Nat) (homes : List Nat) (threads : List (Nat × List Nat)) (cores : List Nat)
      (nest : List (Nat × Nat × Nat)) (bytes : List Byte)
  | reserveAnswer (launch from_ : Nat) (why : Nat)
  | start (launch target : Nat) (modules homes : List Nat)
  | release_ (launch target : Nat)
  | ended (launch from_ count : Nat) (killed : Bool)
  /-- stall-word requests (R210): agent core, task entry, time of its post, handle, and (element, operation)s -/
  | stall (core entry age handle : Nat) (reqs : List (Nat × StallOp))
  /-- shared holds on the stall words of another module that are given back (R212): agent core, module, words -/
  | drops (core target : Nat) (words : List Nat)
  /-- their answer: how many were granted -/
  | stallAnswer (core entry : Nat) (granted : List Nat) (refused : Bool)
  /-- quarantine of a remote element (R216) -/
  | quarantine (launch element : Nat)
  /-- a TLBI that waits for walks, holders and engines (R37): slot key, action -/
  | tlbi (slot : Nat) (kind addr asid : Nat) (scope : Scope)
  /-- a trap record that has drained, for the die's queue (R394): slot key and the record -/
  | record (slot : Nat) (die : Nat) (words : List Word) (replay : Bool) (own : Bool)
  deriving DecidableEq, Repr, Inhabited

/-- The route of a fabric packet, chosen when it was injected (R161): the sending core, the target's module, the address that
the hash took, and the egress ports copied into its header; none where no entry was valid. -/
structure Route where
  core : Nat
  dst : Nat
  va : Nat
  ports : List Nat
  deriving DecidableEq, Repr, Inhabited

/-- A word's record at its point of coherence (R98, R99). -/
structure WordQ where
  /-- the holder: slot key, instance and access -/
  held : Option (Nat × Nat × Nat) := none
  /-- the hold queue, oldest first -/
  queue : List Req := []
  /-- the waiter list, oldest first -/
  waiters : List Req := []
  deriving DecidableEq, Repr, Inhabited

/-- What an agent of the machine does on its own, or an outside one does to it: the rows of the opcode table
that have no word, under the same names as in `Instr`. -/
inductive Event where
  | blockFetch (slot : Nat)
  | commit (slot : Nat)
  | normaliserServiceEnd (core : Nat)
  | threadEnd (slot : Nat)
  | pageWalkStart (miss : Nat)
  | pageWalkComplete (walk : Nat)
  | tlbiComplete (id : Nat)
  | memoryRequestArrival (msg : Nat)
  | holdRelease (msg : Nat)
  | requestCancel (msg : Nat)
  | memoryReplyArrival (msg : Nat)
  | nackResend (msg : Nat)
  | notReadyResend (msg : Nat)
  | reservationTimeout (word : Nat)
  | amaddCombine (msg msg2 : Nat)
  | amaddReplySplit (msg : Nat)
  | barrierOpArrival (msg : Nat)
  | phaseTreeArrival (msg : Nat)
  | phaseRelease (msg : Nat)
  | mailboxHandoff (slot : Nat)
  | copySubmit (core : Nat)
  | engineRefusalResubmit (core copy : Nat)
  | copyRowTransfer (copy : Nat)
  | copyRetire (copy : Nat)
  | trapTake (slot : Nat)
  | trapRecordQueue (msg : Nat)
  | handlerThreadStart (die : Nat)
  | lzReservation (msg : Nat)
  | landingPacket (msg : Nat)
  | slotLanded (zone zslot : Nat)
  | zoneSlotTimeout (zone zslot : Nat)
  | senderAbort (msg : Nat)
  | lzfreePerform (msg : Nat)
  | landingSendRetire (msg : Nat)
  | landingAckTimeout (copy : Nat)
  | remoteRequestArrival (msg : Nat)
  | fabricTimeout (msg : Nat)
  | linkStateChange (link state : Nat)
  | injSend (slot : Nat)
  | messageArrival (msg : Nat)
  | collectiveResult (msg : Nat)
  | refillStart (slot queue : Nat)
  | refillComplete (refill : Nat)
  | migrationComplete (slot : Nat)
  | spawnChildStart (slot : Nat)
  | matrixOpComplete (core : Nat)
  | grantPeriod (die : Nat)
  | thermalThrottle (die cap : Nat)
  | lqDoor (module queue addr : Nat)
  | lqRing (module queue val : Nat)
  | launchDecision (module : Nat)
  | reserve (msg : Nat)
  | reserveAnswer (msg : Nat)
  | start (msg : Nat)
  | release (msg : Nat)
  | endedReport (msg : Nat)
  | parlourDispatchAttempt (core : Nat)
  | parlourRetryTimer (core entry : Nat)
  | stallWordRequest (msg : Nat)
  | holdReleaseParlour (slot : Nat)
  | quarantineMessage (msg : Nat)
  | colourPhaseStart (launch : Nat)
  | deadlineExpiry (slot : Nat)
  | timeBeacon (module root : Nat)
  | patrolScrub (unit bad : Nat)
  | watchdogRestart (module val : Nat)
  | watchdogExpiry (module : Nat)
  | kernelCrashReport (module : Nat)
  | warmReboot (module : Nat)
  | reAdoption (module : Nat)
  | moduleDeclaredLost (module peer : Nat)
  | coldBoot (module : Nat)
  | tqBase (die val : Nat)
  | resyncGo (module val : Nat)
  | controlRegisterWrite (addr val : Nat)
  | frozenAnnouncement (module peer : Nat)
  | thawedAnnouncement (module peer : Nat)
  | holdAnswerArrival (msg : Nat)
  | expertLevelEnable (module launch function : Nat)
  deriving DecidableEq, Repr

/-- Whose turn it is: the order and the timing that the spec leaves open, as plain data. [DESIGN CHOICE: log 1] -/
inductive Turn where
  /-- a core's cycle: it issues by R172 and R173 -/
  | issue (core : Nat)
  /-- an event of an agent -/
  | event (e : Event)
  /-- cycles pass -/
  | pass (cycles : Nat)
  /-- an outside bus master (host, control core, fabric manager) writes bytes at a system address -/
  | write (pa : Nat) (bytes : List Byte)
  /-- a storage word is damaged: an uncorrectable error (R59) -/
  | damage (pa : Nat)
  /-- a line of a core's block cache has a parity error (R50): core key and line address -/
  | parity (core line : Nat)
  deriving DecidableEq, Repr

/-- The slot and the instruction that an instruction word's meaning concerns. [DESIGN CHOICE: log 8] -/
structure Focus where
  slot : Nat := 0
  node : Nat := 0
  deriving DecidableEq, Repr, Inhabited

/-- The state of the system. [DESIGN CHOICE: log 8] -/
structure State where
  /-- memory by system address (module × 2^48 + physical address), sorted; an unlisted byte is 0 -/
  mem : List Host.Cell := []
  /-- words that are empty, as system address / 8, sorted; every other word is full (R47, R48) -/
  empties : List Nat := []
  /-- poisoned 4-byte units, as system address / 4, sorted (R47) -/
  poison : List Nat := []
  modules : Tab Module := []
  dies : Tab Die := []
  clusters : Tab Cluster := []
  cores : Tab Core := []
  slots : Tab Slot := []
  /-- hold queues and waiter lists by system address / 8 (R98) -/
  words : Tab WordQ := []
  /-- parties that met a hold queue without a free entry: NACKs so far, and the cycle from which they ask again (R100) -/
  waits : List (Source × Nat × Nat) := []
  /-- combining records in use, by switch of the Churn: die × 2^16 + stage × 2^12 + switch (R105) -/
  switches : Tab Nat := []
  /-- the fabric times of which the ages in run lists and stall words hold the low 16 bits, by the words' addresses / 8 (R205) -/
  ages : Tab Nat := []
  /-- translation-cache entries used of late, by cluster (R26) -/
  recent : Tab (List TlbEntry) := []
  /-- page walks and misses (R28) -/
  walks : Tab Walk := []
  copies : Tab Copy := []
  /-- launches by their keys -/
  launches : Tab Launch := []
  /-- phase-tree contexts (R120) -/
  phases : Tab PhaseCtx := []
  collectives : Tab Collective := []
  /-- messages in flight, by number -/
  net : Tab Msg := []
  /-- the routes of those that cross the fabric (R161) -/
  routes : Tab Route := []
  /-- cycles since power-on -/
  now : Nat := 0
  turns : List Turn := []
  focus : Focus := {}
  /-- the next number of a message, access, copy or context -/
  nextId : Nat := 0
  /-- free values used so far -/
  fresh : Nat := 0
  deriving DecidableEq, Repr

/-- The model's faults. No instruction and no event of the opcode table raises one: the faults of the
spec are traps, which are next states. [DEDUCED: log 10] -/
inductive Fault where
  deriving DecidableEq, Repr

/-- The model's refusals. -/
inductive Refusal where
  /-- raised by an arm of `exec` whose instruction has no meaning yet. Safe: it stops. -/
  | notModelled (mnemonic : String)
  deriving DecidableEq, Repr

/-- The machine at power-on: one populated module, off, everything at the value the spec gives for
reset; no turn is waiting (R48, R408). [DESIGN CHOICE: log 3, 4] -/
def State.reset : State :=
  { modules := [(0, { populated := true })] }

end Sys2Proof.Machine
end

