-- ==== Sys2Proof/Machine/Ops.lean ====
section
/-! DEFINITION. The named operations over the state: tables, memory and its tags, keys and addresses of
cores and slots, registers, messages, and taking an exception and returning from one (R184, R390 to
R399). -/

namespace Sys2Proof.Machine

/-! ## Tables and sorted sets -/

/-- The entry at a key. -/
def tabFind {α : Type} : Tab α → Nat → Option α
  | [], _ => none
  | (k, v) :: t, n => if n = k then some v else if n < k then none else tabFind t n

/-- The entry at a key, or what an unlisted key stands for. -/
def tabGet {α : Type} (t : Tab α) (k : Nat) (d : α) : α := (tabFind t k).getD d

/-- Put an entry in its place. -/
def tabPut {α : Type} : Tab α → Nat → α → Tab α
  | [], n, v => [(n, v)]
  | (k, w) :: t, n, v =>
    if n = k then (n, v) :: t else if n < k then (n, v) :: (k, w) :: t else (k, w) :: tabPut t n v

/-- Remove an entry. -/
def tabDel {α : Type} : Tab α → Nat → Tab α
  | [], _ => []
  | (k, w) :: t, n => if n = k then t else if n < k then (k, w) :: t else (k, w) :: tabDel t n

/-- Change the entry at a key. -/
def tabMod {α : Type} (t : Tab α) (k : Nat) (d : α) (f : α → α) : Tab α := tabPut t k (f (tabGet t k d))

/-- Membership of a sorted set. -/
def setHas : List Nat → Nat → Bool
  | [], _ => false
  | k :: t, n => if n = k then true else if n < k then false else setHas t n

/-- Insertion into a sorted set. -/
def setIns : List Nat → Nat → List Nat
  | [], n => [n]
  | k :: t, n => if n = k then k :: t else if n < k then n :: k :: t else k :: setIns t n

/-- Removal from a sorted set. -/
def setDel : List Nat → Nat → List Nat
  | [], _ => []
  | k :: t, n => if n = k then t else if n < k then k :: t else k :: setDel t n

/-- Fold a function over a list of keys. -/
def overAll {σ α : Type} (f : α → σ → σ) : List α → σ → σ
  | [], s => s
  | x :: xs, s => overAll f xs (f x s)

/-! ## Memory -/

/-- The byte at an address; an unlisted one is 0 (R48, R408). [DESIGN CHOICE: log 5] -/
def memGet : List Host.Cell → Nat → Byte
  | [], _ => 0#8
  | (a, b) :: m, n => if n = a then b else if n < a then 0#8 else memGet m n

/-- Write a byte, keeping the canonical form: sorted, and no entry 0. -/
def memPut : List Host.Cell → Nat → Byte → List Host.Cell
  | [], n, v => if v = 0#8 then [] else [(n, v)]
  | (a, b) :: m, n, v =>
    if n = a then (if v = 0#8 then m else (n, v) :: m)
    else if n < a then (if v = 0#8 then (a, b) :: m else (n, v) :: (a, b) :: m)
    else (a, b) :: memPut m n v

/-- Every address is above `lo`, addresses rise strictly, and no byte listed is 0. -/
def memWfFrom : Nat → List Host.Cell → Bool
  | _, [] => true
  | lo, (a, b) :: m => decide (lo ≤ a) && b != 0#8 && memWfFrom (a + 1) m

/-- The canonical form of memory. -/
def memWf (m : List Host.Cell) : Bool := memWfFrom 0 m

/-- A byte of the state's memory. [DESIGN CHOICE: log 5] -/
def State.byte (s : State) (pa : Nat) : Byte := memGet s.mem pa

/-- `n` bytes from an address upward. -/
def State.bytesAt (s : State) (pa : Nat) : Nat → List Byte
  | 0 => []
  | n + 1 => s.byte pa :: s.bytesAt (pa + 1) n

/-- Bytes, the lowest first, as a number (R5). -/
def leNat : List Byte → Nat
  | [] => 0
  | b :: bs => b.toNat + 256 * leNat bs

/-- The `n` low bytes of a number, the lowest first (R5). -/
def natBytes : Nat → Nat → List Byte
  | 0, _ => []
  | n + 1, v => BitVec.ofNat 8 v :: natBytes n (v / 256)

/-- `n` bytes read as a little-endian number. -/
def State.readN (s : State) (pa n : Nat) : Nat := leNat (s.bytesAt pa n)

/-- The 8-byte word at an address. -/
def State.word (s : State) (pa : Nat) : Word := BitVec.ofNat 64 (s.readN pa 8)

/-- Write bytes from an address upward; tags stay as they are. -/
def memPutAll : List Host.Cell → Nat → List Byte → List Host.Cell
  | m, _, [] => m
  | m, a, b :: bs => memPutAll (memPut m a b) (a + 1) bs

/-- Write bytes into the state's memory. -/
def State.putBytes (s : State) (pa : Nat) (bs : List Byte) : State := { s with mem := memPutAll s.mem pa bs }

/-- Write the low `n` bytes of a number. -/
def State.putN (s : State) (pa n v : Nat) : State := s.putBytes pa (natBytes n v)

/-- Write an 8-byte word. -/
def State.putWord (s : State) (pa : Nat) (v : Word) : State := s.putN pa 8 v.toNat

/-- The full/empty bit of the word that holds an address (R47). [DESIGN CHOICE: log 5] -/
def State.isFull (s : State) (pa : Nat) : Bool := !setHas s.empties (pa / 8)

/-- Set the full/empty bit (R47). -/
def State.setFull (s : State) (pa : Nat) (full : Bool) : State :=
  { s with empties := if full then setDel s.empties (pa / 8) else setIns s.empties (pa / 8) }

/-- Whether a 4-byte unit is poisoned (R47). -/
def State.unitPoisoned (s : State) (pa : Nat) : Bool := setHas s.poison (pa / 4)

/-- Whether either half of the word that holds an address is poisoned (R47, R59). -/
def State.wordPoisoned (s : State) (pa : Nat) : Bool :=
  setHas s.poison (pa / 8 * 2) || setHas s.poison (pa / 8 * 2 + 1)

/-- Poison or clean one 4-byte unit. -/
def State.setUnitPoison (s : State) (pa : Nat) (p : Bool) : State :=
  { s with poison := if p then setIns s.poison (pa / 4) else setDel s.poison (pa / 4) }

/-- Poison or clean a whole word. -/
def State.setWordPoison (s : State) (pa : Nat) (p : Bool) : State :=
  (s.setUnitPoison (pa / 8 * 8) p).setUnitPoison (pa / 8 * 8 + 4) p

/-- Zero the bytes of a span; tags stay as they are. -/
def State.zeroBytes (s : State) (lo hi : Nat) : State := { s with mem := s.mem.filter fun c => c.1 < lo || hi ≤ c.1 }

/-- Zero the words of a span and set them full and clean (R48). -/
def State.zeroFull (s : State) (lo hi : Nat) : State :=
  { s.zeroBytes lo hi with
    empties := s.empties.filter fun w => w * 8 < lo || hi ≤ w * 8
    poison := s.poison.filter fun u => u * 4 < lo || hi ≤ u * 4 }

/-! ## Keys (R12, R171) -/

/-- The core key of a slot key. -/
def slotCore (k : Nat) : Nat := k / 16
/-- The slot number of a slot key. -/
def slotNum (k : Nat) : Nat := k % 16
/-- The module of a core key. -/
def coreModule (c : Nat) : Nat := c / 8192
/-- The module-wide core number (R12). -/
def coreNum (c : Nat) : Nat := c % 8192
/-- The die key: core c sits on die c[12:11] (R12). -/
def coreDie (c : Nat) : Nat := c / 2048
/-- The cluster key: die c[12:11] and cluster c[10:4] (R12). -/
def coreCluster (c : Nat) : Nat := c / 16
/-- The module of a slot key. -/
def slotModule (k : Nat) : Nat := coreModule (slotCore k)
/-- Slots 14 and 15 run at system level (R15, R171). -/
def systemSlot (k : Nat) : Bool := slotNum k ≥ 14

/-- The system address of a physical address of a module: the model's own key for memory. -/
def sysAddr (m pa : Nat) : Nat := m * 2 ^ 48 + pa

/-- The key of a launch: the instance that a child launch stands in, the module, and the record's address. [DESIGN CHOICE: log 106] -/
def launchKey (inst m addr : Nat) : Nat := (inst * 2 ^ 13 + m) * 2 ^ 48 + addr
/-- The instance of a launch. -/
def launchInst (la : Nat) : Nat := la / 2 ^ 61
/-- The module of a launch's part. -/
def launchModule (la : Nat) : Nat := la / 2 ^ 48 % 2 ^ 13
/-- The system address of a launch's record. -/
def recordAddr (la : Nat) : Nat := la % 2 ^ 61
/-- The key of the part of a launch that a module carries (R199). -/
def partKey (la m : Nat) : Nat := launchKey (launchInst la) m (la % 2 ^ 48)

/-- The base of a core's pool (R12). -/
def poolBase (c : Nat) : Nat := sysAddr (coreModule c) (0x100000000 + coreNum c * 0x20000)

/-- The base of a core's scale memory: the model's own key, outside every region that an address can
name (R11, R51). [DESIGN CHOICE: log 31] -/
def scaleBase (c : Nat) : Nat := sysAddr (coreModule c) (0x800000000000 + coreNum c * 0x2000)

/-! ## Fields of the state -/

/-- A slot. -/
def State.slot (s : State) (k : Nat) : Slot := tabGet s.slots k {}
/-- Change a slot. -/
def State.modSlot (s : State) (k : Nat) (f : Slot → Slot) : State := { s with slots := tabMod s.slots k {} f }
/-- A core. -/
def State.core (s : State) (c : Nat) : Core := tabGet s.cores c {}
/-- Change a core. -/
def State.modCore (s : State) (c : Nat) (f : Core → Core) : State := { s with cores := tabMod s.cores c {} f }
/-- A cluster. -/
def State.cluster (s : State) (c : Nat) : Cluster := tabGet s.clusters c {}
/-- Change a cluster. -/
def State.modCluster (s : State) (c : Nat) (f : Cluster → Cluster) : State :=
  { s with clusters := tabMod s.clusters c {} f }
/-- A die. -/
def State.die (s : State) (d : Nat) : Die := tabGet s.dies d {}
/-- Change a die. -/
def State.modDie (s : State) (d : Nat) (f : Die → Die) : State := { s with dies := tabMod s.dies d {} f }
/-- A module. -/
def State.module (s : State) (m : Nat) : Module := tabGet s.modules m {}
/-- Change a module. -/
def State.modModule (s : State) (m : Nat) (f : Module → Module) : State :=
  { s with modules := tabMod s.modules m {} f }
/-- A launch. -/
def State.launch (s : State) (l : Nat) : Launch := tabGet s.launches l {}
/-- Change a launch. -/
def State.modLaunch (s : State) (l : Nat) (f : Launch → Launch) : State :=
  { s with launches := tabMod s.launches l {} f }
/-- A copy. -/
def State.copy? (s : State) (c : Nat) : Option Copy := tabFind s.copies c
/-- Change a copy that exists. -/
def State.modCopy (s : State) (c : Nat) (f : Copy → Copy) : State :=
  match tabFind s.copies c with
  | some x => { s with copies := tabPut s.copies c (f x) }
  | none => s

/-- Put a message in flight. -/
def State.send (s : State) (m : Msg) : State :=
  { s with net := tabPut s.net s.nextId m, nextId := s.nextId + 1 }

/-- Take a message out of flight. -/
def State.drop (s : State) (id : Nat) : State := { s with net := tabDel s.net id, routes := tabDel s.routes id }

/-! ## Routes (R159 to R161, R165) -/

/-- An entry of a module's path table (R160). -/
def pathEntry (s : State) (m t k : Nat) : Nat := (tabGet (s.module m).paths (4 * t + k) 0#64).toNat

/-- The six egress ports of an entry; the hops at HOPS and beyond hold 63, the end of the route (R159, R160). -/
def entryPorts (e : Nat) : List Nat := (List.range 6).map fun k => fld e (6 * k) 6

/-- The parity of a number of 13 bits. -/
def parity13 (n : Nat) : Nat := ((List.range 13).map fun i => fld n i 1).sum % 2

/-- The hash bit of a packet: the parity of c XOR VA[15:3] XOR VA[28:16] (R161). -/
def hashBit (c va : Nat) : Nat := parity13 (Nat.xor c (Nat.xor (fld va 3 13) (fld va 16 13)))

/-- The order in which entries are tried: minimal f, the other minimal one, 2 + f, 3 − f; before them the entry that the
core's launch has pinned at the expert level (R160, R161). [DESIGN CHOICE: log 137] -/
def entryOrder (s : State) (core va : Nat) : List Nat :=
  let f := hashBit (coreNum core) va
  let m := s.module (coreModule core)
  let la := (s.core core).launch % 2 ^ 48
  let pin := if m.expert.contains (la, 3) then (tabFind m.pins la).toList else []
  pin ++ [f, 1 - f, 2 + f, 3 - f]

/-- The ports of the first valid entry among some of a module's, none where there is none (R161). -/
def routeOver (s : State) (m t : Nat) (ks : List Nat) : List Nat :=
  match ks.find? fun k => bitOf (pathEntry s m t k) 63 with
  | some k => entryPorts (pathEntry s m t k)
  | none => []

/-- A link with fewer than three lanes is DOWN (R165). -/
def linkDown (s : State) (m p : Nat) : Bool := decide ((tabGet (s.module m).links p {}).lanes < 3)

/-- The module at the far end of a port, where it is known, and its port there: local port p leads to position (m + 1 + p) mod
32 of the group; a global link leads where a single-hop entry of the path table says (R159). [DESIGN CHOICE: log 137] -/
def portPeer (s : State) (m p : Nat) : Option (Nat × Option Nat) :=
  if p ≤ 30 then
    let n := m / 32 * 32 + (m % 32 + 1 + p) % 32
    some (n, some ((m + 31 - n % 32) % 32))
  else if 32 ≤ p ∧ p ≤ 47 then
    ((s.module m).paths.find? fun e => bitOf e.2.toNat 63 && fld e.2.toNat 36 3 == 1 && fld e.2.toNat 0 6 == p).map
      fun e => (e.1 / 4, none)
  else none

/-- The packet gets through along its ports, each taken by one switch: no link on the way is DOWN, and port 63 delivers it at
its target. Beyond a global link whose far end no entry records, nothing more is known of the way (R159, R161, R165).
[DESIGN CHOICE: log 137] -/
def portsOpen (s : State) (t : Nat) : Nat → List Nat → Bool
  | m, [] => m == t
  | m, p :: rest =>
    if p = 63 then m == t
    else if p = 31 ∨ 48 ≤ p then false
    else if linkDown s m p then false
    else match portPeer s m p with
      | none => true
      | some (n, back) => (match back with
        | some q => !linkDown s n q
        | none => true) && portsOpen s t n rest

/-- The route of a message chosen anew at its sender's module. -/
def newRoute (s : State) (core t va : Nat) : Route :=
  { core := core, dst := t, va := va, ports := routeOver s (coreModule core) t (entryOrder s core va) }

/-- The link of a port is DOWN, as the module or the one at its far end sees it. -/
def portDown (s : State) (m p : Nat) : Bool :=
  linkDown s m p || match portPeer s m p with
    | some (n, some q) => linkDown s n q
    | _ => false

/-- A route where a link on it is DOWN: the module before that link sends on over an entry that begins with another one, where
one is valid (R165). -/
def detour (s : State) (r : Route) : Nat → List Nat → List Nat
  | _, [] => []
  | cur, q :: rest =>
    if portDown s cur q then
      match routeOver s cur r.dst ((entryOrder s r.core r.va).filter fun k => !portDown s cur (fld (pathEntry s cur r.dst k) 0 6)) with
      | [] => q :: rest
      | ports => ports
    else match portPeer s cur q with
      | some (n, _) => q :: detour s r n rest
      | none => q :: rest

/-- A route led round the links that are DOWN. -/
def Route.around (s : State) (r : Route) : Route := { r with ports := detour s r (coreModule r.core) r.ports }

/-- A message that crosses the fabric is injected, or injected anew: its route is chosen (R161). -/
def State.reroute (s : State) (id core t va : Nat) : State :=
  if coreModule core = t then s else { s with routes := tabPut s.routes id ((newRoute s core t va).around s) }

/-- A packet for another module is injected (R161). -/
def State.inject (s : State) (core t va : Nat) (m : Msg) : State := (s.send m).reroute s.nextId core t va

/-- A message's way is open now; one within its module needs none (R20, R161, R165). -/
def wayOpen (s : State) (id : Nat) : Bool :=
  match tabFind s.routes id with
  | some r => r.ports != [] && portsOpen s r.dst (coreModule r.core) r.ports
  | none => true

/-- A message found no valid entry (R161). -/
def noRoute (s : State) (id : Nat) : Bool :=
  match tabFind s.routes id with
  | some r => r.ports == []
  | none => false

/-- The packets on the way over a link that is DOWN are injected again upstream (R165). -/
def reinject (s : State) : State := { s with routes := s.routes.map fun (x : Nat × Route) => (x.1, x.2.around s) }

/-- A free value: the next that the spec leaves open. [DESIGN CHOICE: log 7] -/
def State.free (s : State) : Word × State := (Config.freeValue s.fresh, { s with fresh := s.fresh + 1 })

/-- Change the instance of a slot, where there is one. -/
def State.modInst (s : State) (k : Nat) (f : Inst → Inst) : State :=
  s.modSlot k fun sl => { sl with inst := sl.inst.map f }

/-- The partition in force on a core: that of a core no launch owns has REG = 8 and nothing else
(R14, R40, R398). -/
def State.partition (s : State) (c : Nat) : Nat :=
  if (s.core c).launch = 0 then 8 else (s.core c).partition.toNat

/-! ## Registers (R43, R180) -/

/-- The number of registers of each slot of a core, 8 × REG (R43). -/
def State.fileSize (s : State) (c : Nat) : Nat := 8 * (s.partition c % 256)

/-- The registers in the file of a slot's thread: a handler thread keeps the number it started with (R43, R398). -/
def State.slotFile (s : State) (k : Nat) : Nat := (s.slot k).handlerFile.getD (s.fileSize (slotCore k))

/-- A register of a slot; g0 reads as 0 (R180, R294). -/
def Slot.reg (sl : Slot) (r : Nat) : Reg := if r = 0 then {} else tabGet sl.regs r {}

/-- Write a register; a write to g0 changes nothing (R180, R295). -/
def Slot.setReg (sl : Slot) (r : Nat) (v : Reg) : Slot :=
  if r = 0 then sl else { sl with regs := tabPut sl.regs r v }

/-! ## Exceptions -/

/-- Trap causes (R391). -/
def causeIllegal : Nat := 0x01
/-- TOKEN COLLISION. -/
def causeCollision : Nat := 0x02
/-- BLOCK STARVED. -/
def causeStarved : Nat := 0x03
/-- MISALIGNED. -/
def causeMisaligned : Nat := 0x04
/-- TRANSLATION. -/
def causeTranslation : Nat := 0x05
/-- PROTECTION. -/
def causeProtection : Nat := 0x06
/-- POISON. -/
def causePoison : Nat := 0x07
/-- SINGULAR. -/
def causeSingular : Nat := 0x08
/-- SOFTWARE. -/
def causeSoftware : Nat := 0x09
/-- WATCH. -/
def causeWatch : Nat := 0x0A
/-- UNOWNED TILE. -/
def causeUnowned : Nat := 0x0B
/-- RESERVATION TIMEOUT. -/
def causeReservation : Nat := 0x0C
/-- FABRIC TIMEOUT. -/
def causeFabric : Nat := 0x0D
/-- DEADLINE. -/
def causeDeadline : Nat := 0x0E
/-- LANDING FAILURE. -/
def causeLanding : Nat := 0x0F
/-- BARRIER BROKEN. -/
def causeBarrier : Nat := 0x10
/-- PARK OVERFLOW. -/
def causePark : Nat := 0x11
/-- UNSUPPORTED FORMAT. -/
def causeFormat : Nat := 0x12
/-- QUARANTINED ELEMENT. -/
def causeQuarantined : Nat := 0x13

/-- TRAP.INFO of an address fault (R33). -/
def addrInfo (reason : Nat) (write fetch : Bool) (level : Nat) (remote : Option Nat) : Nat :=
  reason + level * 16 + bitField write * 256 + bitField fetch * 512 +
    (match remote with | none => 0 | some m => 1024 + m * 65536)

/-- TRAP.INFO of a data error (R63). -/
def dataInfo (source unit rows : Nat) (committed : Bool) : Nat :=
  source * 16 + bitField committed * 256 + unit * 65536 + rows * 16777216

/-- TRAP.INFO of ILLEGAL (R278). -/
def illegalInfo (word check : Nat) : Nat := check * 256 + word * 65536

/-- ILLEGAL raised when the instruction of an index fires (R278, R391). -/
def illegalAt (node : Nat) : Trap := { cause := causeIllegal, addr := 0, info := illegalInfo node 0 }

/-- POISON of a token that an instruction would use (R292, R320, R334). -/
def poisonToken : Trap := { cause := causePoison, addr := 0, info := dataInfo 6 0 0 false }

/-- TOKEN COLLISION at a slot of an instruction: 1 left, 2 right, 3 third, 0 an exit (R391). [DEDUCED: log 15] -/
def collisionAt (node side : Nat) : Trap :=
  { cause := causeCollision, addr := 0, info := node * 65536 + side * 16384 }

/-- PROTECTION of a system-level opcode in a program slot (R283, R391). -/
def levelFault : Trap := { cause := causeProtection, addr := 0, info := addrInfo 5 false false 0 none }

/-- TRAP.CAUSE (R390). -/
def causeWord (handle cause : Nat) (replay : Bool) (origin slot core exn : Nat) : Word :=
  BitVec.ofNat 64 (handle * 2 ^ 32 + cause * 2 ^ 24 + bitField replay * 2 ^ 23 + origin * 2 ^ 21 +
    slot * 2 ^ 17 + core * 2 ^ 6 + exn)

/-- The task handle of a slot, all ones outside a task (R390). -/
def Slot.handle (sl : Slot) : Nat := match sl.task with | some t => t.handle | none => 2 ^ 32 - 1

/-- What a discarded instance owes for one of its accesses: a held word is released unchanged, and a
queued or parked request is cancelled (R69, R109, R184). -/
def discardAcc (k : Nat) (a : Acc) (s : State) : State :=
  match a.st with
  | .granted => s.send (.release { src := .slot k a.id, inst := a.inst, op := .reln .w64, pa := if a.remote.isSome then a.phys else a.pa })
  | .sent => s.send (.cancel k a.id a.pa)
  | .walking | .ready | .refused | .unready | .done => s

/-- What a discarded instance owes for a deferred action that reserved something when it fired
(R333, R337, R345, R358, R388). -/
def discardAction (k : Nat) (a : Action) (s : State) : State :=
  let c := slotCore k
  match a with
  | .mbxTaken m => s.modCore c fun co => { co with mailboxes := tabMod co.mailboxes m {} fun x => { x with taken := false } }
  | .post list entry _ _ _ _ =>
    if list ≥ 2 ^ 80 then s.modCluster (list - 2 ^ 80) fun cl => { cl with list := tabDel cl.list entry }
    else s.zeroBytes (list + 32 * entry) (list + 32 * entry + 24)
  | .rcvTaken e => s.modCore c fun co => { co with rcvClaimed := setDel co.rcvClaimed e }
  | .trqpop _ d latch pos =>
    if latch then s.modDie d fun x => { x with latchClaim := false }
    else s.modDie d fun x => { x with claims := setDel x.claims pos }
  | .mbxw _ _ | .popped _ _ _ | .push _ _ | .dec _ | .spawn _ _ | .migr _ | .tretry _ | .tdrop _ | .prio _ _
  | .colour _ _ _ | .inj _ _ | .rcvFree _ | .coll _ _ _ _ _ _ | .eret _ _ | .swaps _ _ | .tlbi _ _ _ _ | .tlbiWait _
  | .park _ | .wake _ | .halts _ | .pwrq _ | .csync | .seal _ _ | .sealed _ => s

/-- Discard the instance of a slot (R184): no register is written and no commit-time operation leaves;
holds are released unchanged and requests cancelled; staged writes and the claim of the matrix unit are
dropped (R243). The slot stands before the block's start. -/
def discardInst (k : Nat) (s : State) : State :=
  let sl := s.slot k
  match sl.inst with
  | none => s
  | some i =>
    let mine := sl.accs.filter fun a => !a.committed
    let s := overAll (discardAcc k) mine s
    let s := overAll (fun p => discardAction k p.2) i.actions s
    let s := s.modSlot k fun x =>
      { x with inst := none, life := .fetch, next := i.blk, blk := i.blk, matrix := false,
               accs := x.accs.filter fun a => a.committed }
    s.modCore (slotCore k) fun co =>
      { co with
        claim := (match co.claim with | some (n, t) => if n = k then none else some (n, t) | none => none)
        claimWait := co.claimWait.filter fun n => n != k
        qbusy := (match co.qbusy with
          | some (n, x) => if n = k then none else some (n, x)
          | none => none) }

/-- A trap that a slot will take at a block boundary (R393). -/
def pendTrap (k : Nat) (t : Trap) (s : State) : State :=
  s.modSlot k fun x => { x with pending := x.pending ++ [t] }

/-- A fault inside an instance: the instance is discarded, and the slot takes the trap with ORIGIN 00
at the boundary before it (R184, R393). -/
def raise (k : Nat) (t : Trap) (s : State) : State := pendTrap k { t with origin := 0 } (discardInst k s)

/-- The place of a pending trap in the order of R393. [DEDUCED: log 19] -/
def trapRank (t : Trap) : Nat :=
  if t.cause = causeDeadline then 2 else if t.origin = 1 then 0 else if t.origin = 2 then 1 else 3

/-- The pending trap to be taken first: lowest rank, copies in number order (R139), else
the earliest among equals (R393). [DEDUCED: log 19] -/
def firstTrap : List Trap → Option Trap
  | [] => none
  | t :: ts => match firstTrap ts with
    | none => some t
    | some u =>
      if trapRank u < trapRank t || (u.origin == 2 && t.origin == 2 && decide (u.seq < t.seq)) then some u else some t

/-- The state of a slot after a trap (R399). -/
def haltFor (t : Trap) : Halt :=
  if t.replay then .replay false else if t.cause = causeSoftware then .software else .fatal

/-- The four words of a slot's record (R390). -/
def recordWords (k : Nat) (sl : Slot) (t : Trap) : List Word :=
  [causeWord sl.handle t.cause t.replay t.origin (slotNum k) (slotCore k % 2048) sl.exn,
   BitVec.ofNat 64 t.addr,
   BitVec.ofNat 64 (t.seq % 65536 * 2 ^ 48 + (if t.origin = 2 then t.block else t.own.getD sl.blk) % 2 ^ 48),
   BitVec.ofNat 64 t.info]

/-- Take one pending trap at a block boundary (R392, R393, R399): the slot's trap registers are written,
the thread stops or parks, and the record leaves for the die's queue once the slot has drained. -/
def takeTrap (k : Nat) (s : State) : State :=
  let sl := s.slot k
  match firstTrap sl.pending with
  | none => s
  | some t =>
    let ws := recordWords k sl t
    let s := s.modSlot k fun x =>
      { x with
        pending := x.pending.erase t
        record := some t
        halt := haltFor t
        trapCause := ws.getD 0 0#64, trapAddr := ws.getD 1 0#64
        trapBlock := ws.getD 2 0#64, trapInfo := ws.getD 3 0#64 }
    s.send (.record k (coreDie (slotCore k)) ws t.replay true)

/-- Return from a trap (R381, R399): a stopped thread continues at the block it stands before, or at the
address given. A slot not stopped by a trap is left alone and counts as misuse (R378). -/
def resumeTrap (k : Nat) (back : Option Nat) (s : State) : State :=
  let sl := s.slot k
  if (sl.halt = .fatal ∨ sl.halt = .software) ∧ sl.record = none ∧ sl.life ≠ .free then
    s.modSlot k fun x => { x with halt := .none, next := back.getD x.next, life := (match back with | some _ => .fetch | none => x.life) }
  else s.modModule (slotModule k) fun m => { m with taskMisuse := m.taskMisuse + 1 }

/-- Wake a parked thread (R384, R396). -/
def wakeSlot (k : Nat) (s : State) : State :=
  s.modSlot k fun x => match x.halt with
    | .parked => { x with halt := .none }
    | .replay _ => { x with halt := .none }
    | .none => { x with parkAtBoundary := false }
    | .fatal => x
    | .software => x

end Sys2Proof.Machine
end

