-- ==== Sys2Proof/Machine/Firing.lean ====
section
/-! DEFINITION. Firing inside a block instance (R177 to R182): delivering tokens, resolving without
firing, readiness, completion, and the shell in which an instruction's body runs (R290, R312, R320,
R334, R362). -/

namespace Sys2Proof.Machine

/-- What a step answers. -/
abbrev Result := Host.Outcome State Fault Refusal

/-! ## Tokens -/

/-- The instruction of a node (R176). -/
def Node.instr (n : Node) : Option Instr :=
  match decodeWord n.word with
  | .ok i => some i
  | .error _ => none

/-- The form of a node's instruction. -/
def Node.form (n : Node) : Form :=
  match n.instr with
  | some i => formOf i
  | none => {}

/-- Whether the third slot is the predicate (R267, R282). -/
def Form.predicated (f : Form) : Bool := !f.third && f.pred != .always

/-- Whether an instruction uses an operand slot (R179). -/
def Form.uses (f : Form) : Side → Bool
  | .left => f.left
  | .right => f.right
  | .third => f.third || f.predicated

/-- What an operand slot holds. -/
def Node.slotOf (n : Node) : Side → Option Token
  | .left => n.left
  | .right => n.right
  | .third => n.third

/-- Put a token into an operand slot. -/
def Node.put (n : Node) (side : Side) (t : Token) : Node :=
  match side with
  | .left => { n with left := some t }
  | .right => { n with right := some t }
  | .third => { n with third := some t }

/-- Whether a predicate value fires the instruction: true is non-zero (R177). -/
def predHolds (p : Pred) (v : Word) : Bool :=
  match p with
  | .always => true
  | .onTrue => v != 0#64
  | .onFalse => v == 0#64

/-- Whether an arriving token resolves the instruction without firing: NULL in a slot it uses, or a
predicate that does not match (R178). A poisoned predicate is not read (R292). -/
def Form.kills (f : Form) (side : Side) : Token → Bool
  | .null => true
  | .data v poison => side == .third && f.predicated && !poison && !predHolds f.pred v

/-- The same operand slot of the next instruction (R322). -/
def tgtNext : Tgt → Tgt
  | .none => .none
  | .to side i => .to side (i + 1#5)

/-- The targets of an instruction, each with the token it is sent. -/
def Form.send (f : Form) (t : Token) : List (Tgt × Token) :=
  [(f.t, t), (f.u, t)] ++ if f.pair then [(tgtNext f.t, t)] else []

/-- Change a node. -/
def Inst.modNode (i : Inst) (n : Nat) (g : Node → Node) : Inst := { i with nodes := i.nodes.modify n g }

/-- Resolve an instruction without firing: its LSID is nullified (R67, R178). -/
def Inst.resolve (i : Inst) (n : Nat) (f : Form) : Inst :=
  let j := i.modNode n fun x => { x with st := .resolved }
  match f.lsid with
  | some l => { j with lsids := tabPut j.lsids l.toNat .nullified }
  | none => j

/-- The code of an operand slot in TRAP.INFO (R391). -/
def sideInfo : Side → Nat
  | .left => 1
  | .right => 2
  | .third => 3

/-- One token arrives (R178, R179): TOKEN COLLISION in an occupied or unused slot; otherwise it is kept,
and may resolve the instruction, which then sends NULL. -/
def Inst.arrive (i : Inst) (side : Side) (n : Nat) (t : Token) : Except Trap (Inst × List (Tgt × Token)) :=
  match i.nodes[n]? with
  | none => .ok (i, [])
  | some x =>
    let f := x.form
    if !f.uses side || (x.slotOf side).isSome then .error (collisionAt n (sideInfo side))
    else
      let j := i.modNode n fun y => y.put side t
      if x.st = .idle && f.kills side t then .ok (j.resolve n f, f.send .null) else .ok (j, [])

/-- Deliver tokens, and those that they cause. Every instruction is resolved at most once, so that 128
deliveries do for any block. -/
def Inst.deliver : Nat → Inst → List (Tgt × Token) → Except Trap Inst
  | 0, i, _ => .ok i
  | _ + 1, i, [] => .ok i
  | k + 1, i, (.none, _) :: q => i.deliver k q
  | k + 1, i, (.to side n, t) :: q =>
    match i.arrive side n.toNat t with
    | .error e => .error e
    | .ok (j, more) => j.deliver k (q ++ more)

/-- Send tokens inside the instance of a slot. -/
def sendTokens (k : Nat) (ts : List (Tgt × Token)) (s : State) : State :=
  match (s.slot k).inst with
  | none => s
  | some i => match i.deliver 160 ts with
    | .ok j => s.modSlot k fun x => { x with inst := some j }
    | .error e => raise k e s

/-! ## Completion (R181, R242, R333) -/

/-- Whether an instruction no longer holds completion back. [DEDUCED: log 14] -/
def Node.settled (n : Node) : Bool :=
  match n.form.kind with
  | .put | .deferred => n.st = .fired || n.st = .resolved
  | .wait => n.st = .fired || n.st = .resolved
  | .matrix => n.st != .waiting
  | .plain | .exit => true
  | .event => true

/-- Whether a TLWAIT is pending (R83). -/
def Node.waitsTimeline (n : Node) : Bool :=
  n.st = .waiting && match n.instr with
    | some (.tlwait _ _ _ _) => true
    | _ => false

/-- The instance has completed: an exit has fired, every PUT and every LSID of SMASK is resolved, and no
wait, deferred action or matrix operation is open (R181, R242, R333). [DEDUCED: log 14] -/
def Inst.complete (i : Inst) : Bool :=
  i.exit.isSome && i.nodes.all (fun n => n.settled && !n.waitsTimeline) &&
    (List.range 32).all fun l => !bitOf i.smask l || (tabFind i.lsids l).isSome

/-- The instance has a value, or a pending reply, for a register already (R180, R327). -/
def Inst.hasReg (i : Inst) (r : Nat) : Bool := i.puts.any (fun p => p.1 == r) || i.pends.contains r

/-! ## Readiness and the shells -/

/-- Whether an operand slot holds a data token. -/
def Token.isData : Option Token → Bool
  | some (.data _ _) => true
  | _ => false

/-- The value of an operand slot; 0 where there is none. -/
def Token.value : Option Token → Word
  | some (.data v _) => v
  | _ => 0#64

/-- Whether the token of an operand slot is poisoned. -/
def Token.poisoned : Option Token → Bool
  | some (.data _ p) => p
  | _ => false

/-- The firing conditions of an instruction, given its form (R177). -/
def Node.ready (n : Node) (f : Form) : Bool :=
  n.st = .idle && (!f.left || Token.isData n.left) && (!f.right || Token.isData n.right) &&
    (!f.uses .third || Token.isData n.third)

/-- What a fired instruction sees: its slot and index, its operands and their poison. -/
structure Fired where
  slot : Nat
  node : Nat
  l : Word
  r : Word
  t : Word
  lp : Bool
  rp : Bool
  tp : Bool
  deriving DecidableEq, Repr, Inhabited

/-- The operands of a node. -/
def Node.fired (n : Node) (f : Form) (k idx : Nat) : Fired :=
  { slot := k, node := idx
    l := Token.value n.left, r := Token.value n.right
    t := if f.third then Token.value n.third else 0#64
    lp := Token.poisoned n.left, rp := Token.poisoned n.right
    tp := f.third && Token.poisoned n.third }

/-- A data operand is poisoned (R292). -/
def Fired.poison (o : Fired) : Bool := o.lp || o.rp || o.tp

/-- The node in focus of the instance in focus, while the instance has not completed. [DEDUCED: log 9] -/
def State.focused (s : State) : Option Node :=
  match (s.slot s.focus.slot).inst with
  | none => none
  | some i => if i.complete then none else i.nodes[s.focus.node]?

/-- Every lower-indexed Q operation of the instance has fired or been resolved (R242, R362). -/
def qTurn (i : Inst) (n : Nat) : Bool :=
  (i.nodes.take n).all fun x => x.form.kind != .matrix || x.st = .fired || x.st = .resolved

/-- An instruction of an instance is ready: its operands are there (R177), and a matrix operation has its
turn (R362). -/
def nodeReady (i : Inst) (n : Nat) : Bool :=
  match i.nodes[n]? with
  | some x => x.ready x.form && (x.form.kind != .matrix || qTurn i n) && x.form.kind != .event
  | none => false

/-- Run an instruction's body when its firing conditions hold (R177); else nothing happens. A poisoned
predicate raises POISON (R292). [DEDUCED: log 9] -/
def fire (i : Instr) (body : Fired → State → State) (s : State) : State :=
  match s.focused with
  | none => s
  | some n =>
    if n.ready (formOf i) then
      if (formOf i).predicated && Token.poisoned n.third then raise s.focus.slot poisonToken s
      else body (n.fired (formOf i) s.focus.slot s.focus.node) s
    else s

/-- Register a deferred action, or a reservation made by firing, under its instruction (R333). -/
def Inst.putAction (i : Inst) (n : Nat) (a : Action) : Inst := { i with actions := tabPut i.actions n a }

/-- Set where an instruction stands. -/
def setNode (o : Fired) (st : NodeSt) (s : State) : State :=
  s.modInst o.slot fun i => i.modNode o.node fun n => { n with st := st }

/-- The instruction is done and sends a token to its targets. -/
def finish (i : Instr) (o : Fired) (t : Token) (s : State) : State :=
  sendTokens o.slot ((formOf i).send t) (setNode o .fired s)

/-- The shell of R290: the body's value, poisoned if an operand was (R292). -/
def aluShell (i : Instr) (f : Word → Word → Word → Word) : State → State :=
  fire i fun o => finish i o (.data (f o.l o.r o.t) o.poison)

/-- The slot waits for the normaliser, which serves one slot at a time in issue order, 64 cycles each
(R174). [DEDUCED: log 89] -/
def normalise (k : Nat) (s : State) : State :=
  let s := if (s.core (slotCore k)).normQueue = [] then s.modSlot k fun x => { x with slowUntil := s.now + 64 } else s
  s.modCore (slotCore k) fun c => { c with normQueue := c.normQueue ++ [k] }

/-- FPC of the slot in focus as it stood when the instance started (R226). -/
def State.fpc0 (s : State) (k : Nat) : Word :=
  match (s.slot k).inst with
  | some i => i.fpc0
  | none => 0#64

/-- The shell of R312: the body's value and flags; the normaliser where R228 asks for it. -/
def floatShell (i : Instr) (f : (FMode → Rounding) → Word → Word → Word → FResult) : State → State :=
  fire i fun o s =>
    let res := f (fmodeOf (s.fpc0 o.slot)) o.l o.r o.t
    let s := s.modInst o.slot fun x => { x with flags := x.flags ||| res.flags.bits }
    let s := if res.slow then normalise o.slot s else s
    finish i o (.data res.v o.poison) s

/-- The shell of R334: a poisoned operand raises POISON. -/
def checkedShell (i : Instr) (body : Fired → State → State) : State → State :=
  fire i fun o s => if o.poison then raise o.slot poisonToken s else body o s

end Sys2Proof.Machine
end

