-- ==== Sys2Proof/Machine/Address.lean ====
section
/-! DEFINITION. Addresses: regions and windows (R10 to R16), pool classes (R39 to R44), page walks and the
translation caches (R21 to R31), and the checks of R32 with their faults (R33). -/

namespace Sys2Proof.Machine

/-! ## The pool (R39 to R44) -/

/-- The classes of a pool's granules; QUEUE in its two parts (R39, R42, R44). -/
inductive PoolClass where
  | pail | zone | inject | receive | acc | tile | reg
  deriving DecidableEq, Repr, Inhabited

/-- Granules of REG, TILE, ACC, ZONE and QUEUE of a partition word (R40). -/
def partReg (w : Nat) : Nat := fld w 0 8
/-- TILE. -/
def partTile (w : Nat) : Nat := fld w 8 8
/-- ACC. -/
def partAcc (w : Nat) : Nat := fld w 16 8
/-- ZONE. -/
def partZone (w : Nat) : Nat := fld w 24 8
/-- QUEUE. -/
def partQueue (w : Nat) : Nat := fld w 32 8

/-- Granules of the pail (R41). -/
def partPail (w : Nat) : Nat := 96 - (partReg w + partTile w + partAcc w + partZone w + partQueue w)
/-- Pool offset of the ZONE class (R39). -/
def zoneBase (w : Nat) : Nat := partPail w * 1024
/-- Pool offset of the QUEUE class. -/
def queueBase (w : Nat) : Nat := zoneBase w + partZone w * 1024
/-- Pool offset of the ACC class. -/
def accBase (w : Nat) : Nat := queueBase w + partQueue w * 1024
/-- Pool offset of the TILE class. -/
def tileBase (w : Nat) : Nat := accBase w + partAcc w * 1024
/-- Pool offset of the REG class. [DEDUCED: log 32] -/
def regBase (w : Nat) : Nat := tileBase w + partTile w * 1024

/-- The class of a pool offset (R39, R42). -/
def poolClass (w off : Nat) : PoolClass :=
  if off < zoneBase w then .pail
  else if off < queueBase w then .zone
  else if off < queueBase w + 2048 ∧ off < accBase w then .inject
  else if off < accBase w then .receive
  else if off < tileBase w then .acc
  else if off < regBase w then .tile
  else .reg

/-- What an access does, as far as R25, R44 and R54 tell accesses apart. -/
inductive Use where
  | load | store
  /-- full/empty reads (LDFF, FESTAT) and writes -/
  | feRead | feWrite
  /-- holds and their releases -/
  | hold
  | add
  | mwait
  /-- BARW reads an object; the other barrier operations write it -/
  | barRead | barWrite
  | copyRead | copyWrite
  | fetch
  /-- KREG's registry entry, read or written (R389) -/
  | keyRead | keyWrite
  deriving DecidableEq, Repr, Inhabited

/-- The access needs W = 1 (R25). -/
def Use.writes : Use → Bool
  | .load | .feRead | .mwait | .barRead | .copyRead | .fetch | .keyRead => false
  | .store | .feWrite | .hold | .add | .barWrite | .copyWrite | .keyWrite => true

/-- Whether a use may reach a class through the own-pail window (R44). [DEDUCED: log 22] -/
def classAllows (u : Use) (c : PoolClass) : Bool :=
  match u, c with
  | _, .pail => true
  | .fetch, _ => false
  | .copyRead, .zone => true
  | .copyRead, _ | .copyWrite, _ => false
  | _, .zone | _, .receive => !u.writes
  | _, .inject => true
  | _, .acc | _, .tile | _, .reg => false

/-! ## Regions (R11 to R17, R54) -/

/-- The regions of R11. -/
inductive Region where
  | own (off : Nat)
  | remote (core off : Nat)
  | global | tier2 | cxl | host | control
  deriving DecidableEq, Repr, Inhabited

/-- The region of a 48-bit address, where one is backed (R11, R12). -/
def regionOf (va : Nat) : Option Region :=
  let sector := va / 2 ^ 40
  if sector = 0 then
    if va < 0x18000 then some (.own va)
    else if 0x100000000 ≤ va ∧ va < 0x140000000 then
      let x := va - 0x100000000
      if x % 0x20000 < 0x18000 then some (.remote (x / 0x20000) (x % 0x20000)) else none
    else none
  else if sector = 1 then some .global
  else if sector ≤ 3 then some .tier2
  else if sector ≤ 0xB then some .cxl
  else if sector ≤ 0xE then some .host
  else if sector = 0xF then some .control
  else none

/-- Whether a region supports a use (R54, R112, R389). A fetch is refused by R16 instead. -/
def regionHas (u : Use) (r : Region) : Bool :=
  match r with
  | .own _ | .remote _ _ => match u with
    | .barRead | .barWrite | .keyRead | .keyWrite => false
    | .load | .store | .feRead | .feWrite | .hold | .add | .mwait | .copyRead | .copyWrite | .fetch => true
  | .global => u != .keyRead && u != .keyWrite
  | .tier2 => match u with
    | .feRead | .feWrite | .barRead | .barWrite => false
    | .load | .store | .hold | .add | .mwait | .copyRead | .copyWrite | .fetch | .keyRead | .keyWrite => true
  | .cxl => match u with
    | .feRead | .feWrite | .barRead | .barWrite | .keyRead | .keyWrite => false
    | .load | .store | .hold | .add | .mwait | .copyRead | .copyWrite | .fetch => true
  | .host => u = .load || u = .store || u = .copyRead || u = .copyWrite || u = .fetch
  | .control => u = .load || u = .store || u = .fetch

/-- Whether blocks may be fetched from a region (R16). [DEDUCED: log 22] -/
def regionFetch : Region → Bool
  | .own _ | .global | .tier2 | .cxl => true
  | .remote _ _ | .host | .control => false

/-- The table row of R11 that a sector belongs to; a leaf must stay in it (R17). -/
def sectorRow (va : Nat) : Nat :=
  match regionOf va with
  | some .global => 1
  | some .tier2 => 2
  | some .cxl => 3
  | some .host => 4
  | _ => 0

/-- Whether a span of physical memory is installed (R17, R439). -/
def installed (m : Module) (pa n : Nat) : Bool :=
  match regionOf pa with
  | some .global => decide (pa + n ≤ 0x10010000000)
  | some .tier2 => decide (pa + n ≤ 0x40000000000)
  | some .cxl =>
    let port := (pa - 0x40000000000) / 2 ^ 41
    decide (pa + n ≤ 0x40000000000 + port * 2 ^ 41 + tabGet m.cxlCap port 0)
  | some .host => decide (pa + n ≤ 0xF0000000000)
  | _ => false

/-! ## Page walks (R21 to R31) -/

/-- The page size of a leaf by its level, as a power of two (R22). -/
def pageBits : Nat → Nat
  | 3 => 30
  | 2 => 21
  | _ => 16

/-- The index of a level in a table (R22). -/
def walkIndex (va : Nat) : Nat → Nat
  | 4 => fld va 39 9
  | 3 => fld va 30 9
  | 2 => fld va 21 9
  | _ => fld va 16 5

/-- How a walk ends: a leaf, or a fault with its cause, REASON and level (R24, R30). -/
inductive WalkEnd where
  | leaf (level : Nat) (entry : Nat)
  | fault (cause reason level : Nat)
  deriving DecidableEq, Repr, Inhabited

/-- What one valid entry makes of a walk: malformed, a leaf, or the next table's address (R23, R24). -/
def entryStep (m : Module) (va level e : Nat) : WalkEnd ⊕ Nat :=
  let bad : WalkEnd ⊕ Nat := .inl (.fault causeProtection 2 level)
  let addr := fld e 8 40 * 256
  if e % 2 = 0 then .inl (.fault causeTranslation 1 level)
  else if e / 2 ^ 48 ≠ 0 ∨ fld e 6 2 ≠ 0 then bad
  else if bitOf e 1 then
    if level = 4 then bad
    else if addr % 2 ^ pageBits level ≠ 0 then bad
    else if sectorRow addr ≠ sectorRow va ∨ !installed m addr (2 ^ pageBits level) then bad
    else .inl (.leaf level e)
  else if level = 1 ∨ fld e 2 4 ≠ 0 then bad
  else if sectorRow addr ≠ 2 then bad
  else if level ≥ 3 ∧ addr % 4096 ≠ 0 then bad
  else .inr addr

/-- The system address of the entry of a level in a table (R22). -/
def entryAddr (m va level table : Nat) : Nat := sysAddr m (table + walkIndex va level * 8)

/-- The level-4 table that XLAT.BASE names, where it lies in tier-2 memory (R21, R24). -/
def rootTable (base : Nat) : Option Nat :=
  let b := fld base 12 36 * 4096
  if sectorRow b = 2 then some b else none

/-- What an entry read makes of a walk; one whose word has an uncorrectable error ends it (R29, R30). -/
def entryRead (s : State) (m va level : Nat) (e : Word × Bool) : WalkEnd ⊕ Nat :=
  if e.2 then .inl (.fault causePoison 0xB level) else entryStep (s.module m) va level e.1.toNat

/-- Walk from a table downward. [DEDUCED: log 28] -/
def walkFrom (s : State) (m va : Nat) : Nat → Nat → WalkEnd
  | 0, _ => .fault causeProtection 2 1
  | level + 1, table =>
    let a := entryAddr m va (level + 1) table
    match entryRead s m va (level + 1) (s.word a, s.wordPoisoned a) with
    | .inl r => r
    | .inr next => walkFrom s m va level next

/-- A walk from XLAT.BASE (R21, R24). -/
def walk (s : State) (m : Nat) (base : Nat) (va : Nat) : WalkEnd :=
  match rootTable base with
  | none => .fault causeProtection 2 4
  | some b => walkFrom s m va 4 b

/-- The physical address that a leaf gives (R22, R23). -/
def leafAddr (level e va : Nat) : Nat :=
  let n := pageBits level
  fld e 8 40 * 256 / 2 ^ n * 2 ^ n + va % 2 ^ n

/-! ## Translation caches (R26) -/

/-- Whether an entry translates an address for an ASID. -/
def TlbEntry.hits (e : TlbEntry) (asid va : Nat) : Bool :=
  (e.g || e.asid == asid) && e.vpn == va / 2 ^ pageBits e.level

/-- The set of an entry: the low six bits of its page number (R26). -/
def TlbEntry.set (e : TlbEntry) : Nat := e.vpn % 64

/-- The entry of a leaf. -/
def tlbOf (asid level e va : Nat) : TlbEntry :=
  { asid := asid, g := bitOf e 5, level := level, vpn := va / 2 ^ pageBits level
    pa := fld e 8 40 * 256, w := bitOf e 2, x := bitOf e 3, u := bitOf e 4 }

/-- Install an entry; of a full set of 16 ways the first that has not been used of late gives way, else the first (R26).
[DESIGN CHOICE: log 27] -/
def tlbInstall (recent t : List TlbEntry) (e : TlbEntry) : List TlbEntry :=
  let t := t.filter fun x => x != e
  let mine := t.filter fun x => x.set == e.set
  let t := if mine.length ≥ 16 then
      (match (mine.find? fun x => !recent.contains x) <|> mine.head? with
        | some v => t.erase v
        | none => t)
    else t
  t ++ [e]

/-- An entry is used: once every way of its set has been used of late, only this one counts as such (R26).
[DESIGN CHOICE: log 27] -/
def tlbTouch (t recent : List TlbEntry) (e : TlbEntry) : List TlbEntry :=
  let marked := e :: recent.filter fun x => x != e
  if (t.filter fun x => x.set == e.set).all fun x => marked.contains x then e :: marked.filter fun x => x.set != e.set
  else marked

/-- A cluster's cache installs a leaf. -/
def installLeaf (cluster : Nat) (e : TlbEntry) (s : State) : State :=
  let r := tabGet s.recent cluster []
  let s := s.modCluster cluster fun x => { x with tlb := tlbInstall r x.tlb e }
  { s with recent := tabPut s.recent cluster (tlbTouch (s.cluster cluster).tlb r e) }

/-- The physical address under a cached entry. -/
def TlbEntry.addr (e : TlbEntry) (va : Nat) : Nat := e.pa + va % 2 ^ pageBits e.level

/-! ## The checks of R32 -/

/-- An access to be checked: the core whose windows, partition and address space it uses, its level, its
address operand, its size and its use. -/
structure Want where
  core : Nat
  sys : Bool
  va : Nat
  size : Nat
  use : Use
  deriving DecidableEq, Repr, Inhabited

/-- What the checks answer. -/
inductive Checked where
  | fault (t : Trap)
  /-- the system address of the location -/
  | at (pa : Nat)
  /-- the translation cache misses (R27) -/
  | miss
  deriving DecidableEq, Repr, Inhabited

/-- An address fault (R33, R391). [DEDUCED: log 24] -/
def addrFault (w : Want) (cause reason level : Nat) : Trap :=
  { cause := cause, addr := w.va, info := addrInfo reason w.use.writes (w.use = .fetch) level none
    replay := cause == causeTranslation }

/-- The permission check of R25, W before X before U. [DEDUCED: log 26] -/
def permission (w : Want) (wr x u : Bool) (level pa : Nat) : Checked :=
  if w.use.writes && !wr then .fault (addrFault w causeProtection 3 level)
  else if w.use = .fetch && !x then .fault (addrFault w causeProtection 4 level)
  else if !w.sys && !u then .fault (addrFault w causeProtection 5 level)
  else .at pa

/-- The outcome of a walk for an access (R24, R25, R30). -/
def walked (w : Want) (m : Nat) : WalkEnd → Checked
  | .fault cause reason level => .fault (addrFault w cause reason level)
  | .leaf level e =>
    permission w (bitOf e 2) (bitOf e 3) (bitOf e 4) level (sysAddr m (leafAddr level e w.va))

/-- A program-level store, atomic or full/empty write reaches the stall words or the run list of a core
(R201). [DEDUCED: log 37] -/
def guarded (s : State) (w : Want) (target off : Nat) : Bool :=
  match (s.core target).desc with
  | d0 :: _ :: _ :: _ :: d4 :: _ =>
    let swOff := fld d4.toNat 0 17
    let rlOff := fld d4.toNat 17 17
    let inside (lo n : Nat) : Bool := decide (off < lo + n) && decide (lo < off + w.size)
    !w.sys && (w.use = .store || w.use = .feWrite || w.use = .hold || w.use = .add) &&
      (inside swOff (8 * fld d0.toNat 32 16) || inside rlOff (32 * fld d4.toNat 34 16))
  | _ => false

/-- The untranslated windows: ownership, then granule class (R13, R14, R44). -/
def checkPool (s : State) (w : Want) (target off : Nat) (own : Bool) : Checked :=
  if !own && !w.sys && ((s.core target).launch == 0 || (s.core target).launch != (s.core w.core).launch) then
    .fault (addrFault w causeProtection 9 0)
  else
    let c := poolClass (s.partition target) off
    if (if own then classAllows w.use c else c == .pail) && !guarded s w target off then .at (poolBase target + off)
    else .fault (addrFault w causeProtection 8 0)

/-- Checks 1 to 4 of R32; a translated address is left to what follows. R32 does not place R54's operation that the region
lacks: it is tested with the backing, before the level. [DESIGN CHOICE: log 129] -/
def checkFlat (s : State) (w : Want) : Option Checked :=
  let prot (reason : Nat) : Option Checked := some (.fault (addrFault w causeProtection reason 0))
  if w.va / 2 ^ 48 ≠ 0 then prot 6
  else if w.va % w.size ≠ 0 then some (.fault (addrFault w causeMisaligned 0xC 0))
  else match regionOf w.va with
    | none => prot 7
    | some r =>
      if !regionHas w.use r then prot 7
      else if r = .control ∧ !w.sys then prot 5
      else if w.use = .fetch ∧ !regionFetch r then prot 4
      else match r with
        | .own off => some (checkPool s w w.core off true)
        | .remote c off =>
          let target := coreModule w.core * 8192 + c
          some (checkPool s w target off (target == w.core))
        | .control => some (.at (sysAddr (coreModule w.core) w.va))
        | .global | .tier2 | .cxl | .host => none

/-- Where the tables lead an access now. -/
def walkNow (s : State) (w : Want) : WalkEnd := walk s (coreModule w.core) (s.core w.core).xlatBase.toNat w.va

/-- An access whose translation is cached: by the old entry, or, where the tables now lead elsewhere, by the new one, each
access by its own choice (R36). [DESIGN CHOICE: log 29] -/
def oldOrNew (s : State) (w : Want) (e : TlbEntry) : Checked :=
  let old := permission w e.w e.x e.u 0 (sysAddr (coreModule w.core) (e.addr w.va))
  let new := walkNow s w
  let same : Bool := match new with
    | .leaf level v => { tlbOf e.asid level v w.va with g := e.g } == e
    | .fault _ _ _ => false
  if same || !Config.newTranslation s.nextId w.va then old else walked w (coreModule w.core) new

/-- The entry of a cache that an access hits (R26). -/
def cachedEntry (t : List TlbEntry) (s : State) (w : Want) : Option TlbEntry :=
  t.find? fun e => e.hits (s.core w.core).xlatAsid.toNat w.va

/-- The checks of R32 up to the translation: EN, and the place of the level-4 table (R21, R24, R32). -/
def checkRoot (s : State) (w : Want) : Option Checked :=
  match checkFlat s w with
  | some c => some c
  | none =>
    let base := (s.core w.core).xlatBase.toNat
    if base % 2 = 0 then some (.fault (addrFault w causeProtection 0xA 0))
    else match rootTable base with
      | none => some (.fault (addrFault w causeProtection 2 4))
      | some _ => none

/-- The checks of R32, with the cluster's translation cache (R26, R31). -/
def checkAddr (s : State) (w : Want) : Checked :=
  match checkRoot s w with
  | some c => c
  | none => match cachedEntry (s.cluster (coreCluster w.core)).tlb s w with
    | some e => oldOrNew s w e
    | none => .miss

/-- The checks of R32 for an agent with a translation cache of its own, which translates through the die's walker at once
where that misses, in the address space of a core (R37, R131, R198). [DEDUCED: log 29] -/
def checkWith (t : List TlbEntry) (s : State) (w : Want) : Checked :=
  match checkRoot s w with
  | some c => c
  | none => match cachedEntry t s w with
    | some e => oldOrNew s w e
    | none => walked w (coreModule w.core) (walkNow s w)

/-- The same for an agent of a core, which shares its cluster's cache. [DEDUCED: log 29] -/
def checkWalk (s : State) (w : Want) : Checked := checkWith (s.cluster (coreCluster w.core)).tlb s w

/-- An access of a core uses its cluster's translation cache (R26). -/
def useTlb (w : Want) (s : State) : State :=
  match checkRoot s w with
  | some _ => s
  | none =>
    let c := coreCluster w.core
    match cachedEntry (s.cluster c).tlb s w with
    | some e => { s with recent := tabPut s.recent c (tlbTouch (s.cluster c).tlb (tabGet s.recent c []) e) }
    | none => s

/-- The SOURCE code of a data error at a system address (R63). -/
def errorSource (pa : Nat) : Nat :=
  match regionOf (pa % 2 ^ 48) with
  | some (.own _) | some (.remote _ _) => 1
  | some .global => 2
  | some .tier2 => 3
  | some .cxl => 4
  | some .host => 5
  | some .control | none => 1

end Sys2Proof.Machine
end

