-- ==== Sys2Proof/Machine/Access.lean ====
section
/-! DEFINITION. The accesses of a slot: how they are made (R320), in what order they leave (R64 to R80, R84,
R86), what they take by forwarding (R68), and what their replies send (R103, R322, R326). -/

namespace Sys2Proof.Machine

/-! ## What an access is -/

/-- The bytes that an operation covers. -/
def MemOp.size : MemOp → Nat
  | .load n _ => n
  | .store n _ _ _ => n
  | .amadd w _ _ | .rsv w | .cas w _ _ | .swap w _ | .amin w _ _ | .amax w _ _ | .rel w _ | .reln w => atomicBytes w
  | .ldsync | .ldff | .festat | .sete | .stsync _ _ | .stff _ _ | .mwait _ => 8
  | .barj | .bara | .barx | .barw _ | .arm _ | .breakBar => 16
  | .turn => 8
  | .bytes bs _ => bs.length
  | .phase _ | .zfree _ _ | .zrsv _ => 1

/-- Whether an operation may change memory: it then stalls on source ranges too (R84). -/
def MemOp.changes : MemOp → Bool
  | .load _ _ | .ldff | .festat | .mwait _ | .barw _ | .turn => false
  | .store _ _ _ _ | .ldsync | .sete | .stsync _ _ | .stff _ _ | .rsv _ | .cas _ _ _ | .swap _ _
  | .amin _ _ _ | .amax _ _ _ | .amadd _ _ _ | .rel _ _ | .reln _ | .barj | .bara | .barx | .arm _
  | .phase _ | .zfree _ _ | .zrsv _ | .bytes _ _ | .breakBar => true

/-- The use of an operation in the checks of R32. -/
def MemOp.use : MemOp → Use
  | .load _ _ | .turn => .load
  | .store _ _ _ _ | .bytes _ _ => .store
  | .ldff | .festat => .feRead
  | .ldsync | .sete | .stsync _ _ | .stff _ _ => .feWrite
  | .rsv _ | .cas _ _ _ | .swap _ _ | .amin _ _ _ | .amax _ _ _ | .rel _ _ | .reln _ => .hold
  | .amadd _ _ _ => .add
  | .mwait _ => .mwait
  | .barw _ => .barRead
  | .barj | .bara | .barx | .arm _ | .phase _ | .zfree _ _ | .zrsv _ | .breakBar => .barWrite

/-- The access holds its word from the grant on (R64). -/
def Acc.holds (a : Acc) : Bool := a.kind = .holding

/-- The first access stands before the second in program order (R71): by instance, then LSID. -/
def Acc.before (a b : Acc) : Bool := a.inst < b.inst || (a.inst == b.inst && a.lsid < b.lsid)

/-- Two accesses touch a common 8-byte word of one place (R73, R80). -/
def Acc.sameWord (a b : Acc) : Bool :=
  a.remote == b.remote && decide (a.pa / 8 ≤ (b.pa + b.op.size - 1) / 8) && decide (b.pa / 8 ≤ (a.pa + a.op.size - 1) / 8)

/-- Sent and not yet answered for good: it counts as outstanding (R70). -/
def Acc.outstanding (a : Acc) : Bool := a.st = .sent || a.st = .refused || a.st = .unready

/-- Performed and acknowledged; a holding access once it is granted (R70). -/
def Acc.performed (a : Acc) : Bool := a.st = .done || a.st = .granted

/-- The half of a word that a 32-bit atomic names, zero-extended; the word itself at 64 bits (R326). -/
def namedPart (w : Width) (pa : Nat) (x : Word) : Word :=
  match w with
  | .w64 => x
  | .w32 => BitVec.ofNat 64 (x.toNat / 2 ^ (8 * (pa % 8 / 4 * 4)) % 2 ^ 32)

/-- A word with the named part replaced (R326). -/
def withPart (w : Width) (pa : Nat) (x v : Word) : Word :=
  match w with
  | .w64 => v
  | .w32 =>
    if pa % 8 < 4 then BitVec.ofNat 64 (x.toNat / 2 ^ 32 * 2 ^ 32 + v.toNat % 2 ^ 32)
    else BitVec.ofNat 64 (x.toNat % 2 ^ 32 + v.toNat % 2 ^ 32 * 2 ^ 32)

/-- The order of AMIN and AMAX (R326). -/
def atomicLess (w : Width) (unsigned : Bool) (a b : Word) : Bool :=
  if unsigned then uOf w a < uOf w b else sOf w a < sOf w b

/-- The value a holding atomic releases, of the old word `o` (R103, R326). -/
def releaseValue (op : MemOp) (pa : Nat) (o : Word) : Word :=
  match op with
  | .swap w v => withPart w pa o v
  | .cas w c v => if uOf w (namedPart w pa o) = uOf w c then withPart w pa o v else o
  | .amin w u v =>
    let old := namedPart w pa o
    if atomicLess w u v old then withPart w pa o v else o
  | .amax w u v =>
    let old := namedPart w pa o
    if atomicLess w u old v then withPart w pa o v else o
  | _ => o

/-! ## Regions of an address -/

/-- The die of a global bank (R18). -/
def bankDie (pa : Nat) : Nat :=
  let w := (pa - 0x10000000000) / 8
  fld w 12 1 * 2 + (fld w 11 1 + fld w 24 1) % 2

/-- The bank number of a global word (R18). -/
def bankOf (pa : Nat) : Nat :=
  let w := (pa - 0x10000000000) / 8
  Nat.xor (fld w 0 13) (fld w 13 12)

/-- Whether a FENCE of a scope covers a target (R74). -/
def scopeCovers (k : Nat) (sc : Scope) (remote : Option Nat) (pa : Nat) : Bool :=
  let c := slotCore k
  let m := coreModule c
  match remote with
  | some t => match sc with
    | .grp => t / 32 == m / 32
    | .fab | .host | .hood => true
    | .slot | .core | .clus | .die | .mod | .tier | .zone | .eng => false
  | none =>
    match regionOf (pa % 2 ^ 48) with
    | some (.remote t _) => match sc with
      | .core => m * 8192 + t == c
      | .clus => (m * 8192 + t) / 16 == c / 16
      | .die => (m * 8192 + t) / 2048 == c / 2048
      | .mod | .tier | .grp | .fab | .host | .hood => true
      | .slot | .zone | .eng => false
    | some .global => match sc with
      | .die => bankDie (pa % 2 ^ 48) == coreNum c / 2048
      | .mod | .tier | .grp | .fab | .host | .hood => true
      | .slot | .core | .clus | .zone | .eng => false
    | some .tier2 | some .cxl => match sc with
      | .tier | .grp | .fab | .host | .hood => true
      | .slot | .core | .clus | .die | .mod | .zone | .eng => false
    | some .host => sc = .host || sc = .hood
    | some (.own _) | some .control | none => sc = .hood

/-- The scope as it acts in a slot: HOOD of a thread that is not bound to an element is FAB (R74). -/
def scopeIn (sl : Slot) (sc : Scope) : Scope :=
  match sc with
  | .hood => match sl.task with
    | some t => if t.element.isSome then .hood else .fab
    | none => .fab
  | sc => sc

/-- Copies and landing sends that a scope covers: HOOD covers both, ZONE the landing sends (R74). -/
def scopeCoversCopy (sc : Scope) (land : Bool) : Bool := sc = .hood || (sc = .zone && land)

/-- An earlier point of the slot has a copy or landing send not yet retired that the scope covers. -/
def copiesOpen (s : State) (sl : Slot) (sc : Scope) (inst lsid : Nat) : Bool :=
  sl.copies.any (fun c => (c.inst < inst || (c.inst == inst && c.lsid < lsid)) && scopeCoversCopy sc c.land) ||
    sl.unretired.any fun id => match tabFind s.copies id with
      | some c => (c.req.inst < inst || (c.req.inst == inst && c.req.lsid < lsid)) && scopeCoversCopy sc c.req.land
      | none => false

/-! ## When an access leaves -/

/-- Every lower LSID of the instance is resolved (R67). -/
def lowerResolved (i : Inst) (lsid : Nat) : Bool :=
  i.nodes.all fun n => match n.form.lsid with
    | some l => decide (lsid ≤ l.toNat) || (tabFind i.lsids l.toNat).isSome
    | none => true

/-- The access stalls on the range scoreboard of its core: a read on destination ranges, a write on either
kind (R84). -/
def scoreboardStalls (s : State) (k : Nat) (a : Acc) : Bool :=
  let base := poolBase (slotCore k)
  a.remote.isNone && decide (base ≤ a.pa) && decide (a.pa < base + 0x18000) &&
    (s.core (slotCore k)).scoreboard.any fun r =>
      !r.scale && (r.write || a.op.changes) && decide (a.pa - base < r.hi) && decide (r.lo < a.pa - base + a.op.size)

/-- A fence or a phase of an earlier instance, or a fence of the own instance before a commit-time
operation, still holds the access back (R75, R121). [DEDUCED: log 43] -/
def heldBack (sl : Slot) (a : Acc) : Bool :=
  sl.fences.any (fun f => f.inst < a.inst || (f.inst == a.inst && a.committed && f.lsid < a.lsid)) ||
    sl.accs.any fun b => b.inst < a.inst && match b.op with
      | .phase _ => true
      | _ => false

/-- R70 for an ordered access. [DEDUCED: log 43] -/
def orderedTurn (sl : Slot) (a : Acc) : Bool :=
  sl.accs.all fun b =>
    !b.ordered || b.id == a.id ||
      (!b.outstanding &&
        (!b.before a || b.performed || (b.inst == a.inst && b.kind = .commitTime && !a.committed)))

/-- R66, R73 and R80: an access of any kind follows every earlier access of its slot to the same word: no party reads or
writes before a value that it has already read or written. [DEDUCED: log 43] -/
def sameWordTurn (sl : Slot) (a : Acc) : Bool :=
  sl.accs.all fun b =>
    b.id == a.id || !b.before a || !b.sameWord a || b.performed ||
      (b.inst == a.inst && b.kind = .commitTime && !a.committed)

/-- What BARA and PHASE, as releases, wait for (R86, R117). -/
def releaseTurn (s : State) (k : Nat) (sl : Slot) (a : Acc) : Bool :=
  match a.op with
  | .bara =>
    sl.accs.all (fun b => !b.before a || b.performed) &&
      sl.copies.all (fun c => a.inst < c.inst || (c.inst == a.inst && a.lsid < c.lsid)) &&
      sl.unretired.all fun id => match tabFind s.copies id with
        | some c => a.inst < c.req.inst || (c.req.inst == a.inst && a.lsid < c.req.lsid) ||
            (c.accepted && c.bar != a.pa)
        | none => true
  | .phase level =>
    let words := (s.launch sl.launch).record
    let sc := (Scope.ofCode (fld (words.getD (8 + level) 0#64).toNat 25 4)).getD .mod
    sl.accs.all (fun b => !b.before a || b.performed || !scopeCovers k (scopeIn sl sc) b.remote b.pa) &&
      !copiesOpen s sl (scopeIn sl sc) a.inst a.lsid
  | _ => true

/-- Whether a translated access leaves now (R67 to R76, R84, R86). [DEDUCED: log 43] -/
def maySend (s : State) (k : Nat) (sl : Slot) (a : Acc) : Bool :=
  a.st = .ready && !heldBack sl a && !scoreboardStalls s k a &&
    (if a.committed then true
     else a.kind != .commitTime && (match sl.inst with
       | some i => lowerResolved i a.lsid
       | none => false) && sl.accs.all fun b => !(b.before a && b.st = .walking)) &&
    (!a.ordered || orderedTurn sl a) && sameWordTurn sl a && releaseTurn s k sl a

/-! ## Forwarding (R68) -/

/-- The bytes that a store of the instance would write, with their addresses. [DEDUCED: log 36] -/
def Acc.storeBytes (a : Acc) : Option (List Byte × Bool) :=
  match a.op with
  | .store n v hi p => some ((natBytes 8 v.toNat ++ natBytes 8 hi.toNat).take n, p)
  | .stff v p => some (natBytes 8 v.toNat, p)
  | _ => none

/-- The byte at an address from the highest-LSID store below a load. `best` is the LSID found so far.
[DEDUCED: log 36] -/
def forwardByte (a : Acc) (pa : Nat) : List Acc → Option (Nat × Byte × Bool) → Option (Nat × Byte × Bool)
  | [], best => best
  | b :: bs, best =>
    let best := match b.storeBytes with
      | some (xs, p) =>
        if b.inst == a.inst && b.kind = .commitTime && b.remote == a.remote && b.lsid < a.lsid &&
            decide (b.pa ≤ pa) && decide (pa < b.pa + xs.length) &&
            (match best with | some (l, _) => decide (l < b.lsid) | none => true)
        then some (b.lsid, xs.getD (pa - b.pa) 0#8, p) else best
      | none => best
    forwardByte a pa bs best

/-- The bytes that a load takes by forwarding, by offset. [DEDUCED: log 36] -/
def forwardAll (sl : Slot) (a : Acc) : Nat → List (Nat × Byte × Bool)
  | 0 => []
  | n + 1 =>
    forwardAll sl a n ++ (match forwardByte a (a.pa + n) sl.accs none with
      | some (_, b, p) => [(n, b, p)]
      | none => [])

/-- The value of a load: bytes from memory, overlaid with those forwarded. -/
def mergeBytes (mem : List Byte) (fw : List (Nat × Byte × Bool)) : List Byte :=
  mem.mapIdx fun n b => match fw.find? fun f => f.1 == n with
    | some f => f.2.1
    | none => b

/-! ## Making an access -/

/-- Change an access of a slot. -/
def State.modAcc (s : State) (k id : Nat) (f : Acc → Acc) : State :=
  s.modSlot k fun sl => { sl with accs := sl.accs.map fun a => if a.id = id then f a else a }

/-- Remove an access of a slot. -/
def State.dropAcc (s : State) (k id : Nat) : State :=
  s.modSlot k fun sl => { sl with accs := sl.accs.filter fun a => a.id != id }

/-- An access of a slot. -/
def State.acc? (s : State) (k id : Nat) : Option Acc := (s.slot k).accs.find? fun a => a.id == id

/-- Ask for a page walk, unless the cluster already lists the page (R28). [DEDUCED: log 30] -/
def askWalk (core va : Nat) (s : State) : State :=
  let co := s.core core
  let w : Walk := { cluster := coreCluster core, asid := co.xlatAsid.toNat, va := va / 65536 * 65536, base := co.xlatBase.toNat }
  if s.walks.any fun p => p.2.cluster == w.cluster && p.2.asid == w.asid && p.2.va == w.va && (!p.2.stale || !p.2.started) then s
  else { s with walks := tabPut s.walks s.nextId w, nextId := s.nextId + 1 }

/-- The membership list that a new instance checks against: committed joins and leaves that have not been
acknowledged count as made (R113, R331). -/
def Slot.memberAddrs (sl : Slot) : List Nat :=
  sl.accs.foldl (fun l a => match a.op with
    | .barj => if a.committed then l ++ [a.pa] else l
    | .barx => if a.committed then l.erase a.pa else l
    | _ => l) (sl.members.map fun m => m.addr)

/-- The checks of an instruction that need the location: reservations (R101) and listing (R113). They are
made when the instruction fires, or as soon as its page walk has ended. [DEDUCED: log 44] -/
def locationCheck (sl : Slot) (i : Inst) (a : Acc) : Option Trap :=
  let mine (p : Acc → Bool) : Bool := sl.accs.any fun b => b.inst == a.inst && !b.committed && b.id != a.id && b.st != .walking && p b
  let same (b : Acc) : Bool := b.remote == a.remote && b.pa / 8 == a.pa / 8
  let bad := match a.op with
    | .rsv _ | .cas _ _ _ | .swap _ _ | .amin _ _ _ | .amax _ _ _ | .ldsync | .stsync _ _ =>
      mine fun b => b.holds && same b
    | .rel _ _ | .reln _ =>
      !(mine fun b => same b && match b.op with | .rsv _ => true | _ => false) ||
        mine fun b => same b && match b.op with | .rel _ _ => true | .reln _ => true | _ => false
    | .barj => i.members0.contains a.pa || decide (i.members0.length ≥ 4)
    | .bara | .barx => !i.members0.contains a.pa
    | _ => false
  if bad then some (illegalAt a.node) else none

/-- Enter an access whose location is known: its own checks, and for BARJ and BARX the change of the list
that later checks of the instance use (R331). -/
def enterAcc (k : Nat) (a : Acc) (s : State) : State :=
  let sl := s.slot k
  match sl.inst with
  | none => s
  | some i =>
    match locationCheck sl i a with
    | some t => raise k t s
    | none =>
      let s := s.modSlot k fun x => { x with accs := x.accs.filter (fun b => b.id != a.id) ++ [{ a with st := .ready }] }
      match a.op with
      | .barj => s.modInst k fun x => { x with members0 := x.members0 ++ [a.pa] }
      | .barx => s.modInst k fun x => { x with members0 := x.members0.erase a.pa }
      | _ => s

/-- Mark the LSID of a fired operation resolved (R67). -/
def resolveLsid (k lsid : Nat) (s : State) : State :=
  s.modInst k fun i => { i with lsids := tabPut i.lsids lsid .fired }

/-- A memory operation fires: it is checked and translated (R31), its LSID is resolved, and it is queued
as its kind asks (R320). [DEDUCED: log 30] -/
def startAccess (o : Fired) (lsid : Nat) (kind : PerformKind) (ordered : Bool) (op : MemOp) (va : Nat) (s : State) : State :=
  let k := o.slot
  let c := slotCore k
  let num := match (s.slot k).inst with | some i => i.num | none => 0
  let a : Acc := { id := s.nextId, inst := num, lsid := lsid, node := o.node, kind := kind, ordered := ordered, op := op, va := va
                   asid := (s.core c).xlatAsid.toNat, blk := (s.slot k).blk }
  let w : Want := { core := c, sys := systemSlot k, va := va, size := op.size, use := op.use }
  let fired (s : State) : State := resolveLsid k lsid (setNode o (if kind = .commitTime then .fired else .waiting) s)
  match checkAddr s w with
  | .fault t => raise k t s
  | .at pa => enterAcc k { a with pa := pa } (fired { useTlb w s with nextId := s.nextId + 1 })
  | .miss =>
    askWalk c va ((fired { s with nextId := s.nextId + 1 }).modSlot k fun x => { x with accs := x.accs ++ [{ a with st := .walking }] })

/-! ## Sending -/

/-- Whether a 16-byte access to a location is torn into two (R56, R57). [DEDUCED: log 34] -/
def tears (pa size : Nat) : Bool :=
  size == 16 && match regionOf (pa % 2 ^ 48) with
    | some .global | some .host => true
    | _ => false

/-- A load takes every byte of one of its words by forwarding (R68): 0 the first, 1 the second. -/
def Acc.takesWord (a : Acc) (part : Nat) : Bool :=
  (List.range 8).all fun i => a.forwarded.any fun f => f.1 == 8 * part + i

/-- The access performs as two, each on its own word: a torn one, and a load of 16 bytes of which one word is taken whole by
forwarding (R57, R68). -/
def Acc.halves (a : Acc) : Bool :=
  tears a.pa a.op.size || (a.op == .load 16 false && (a.takesWord 0 || a.takesWord 1))

/-- The requests of an access: two for a torn one, and none for a word of which no byte is read (R57, R68).
[DEDUCED: log 34] -/
def Acc.requests (k : Nat) (a : Acc) : List Req :=
  let r : Req := { src := .slot k a.id, inst := a.inst, op := a.op, pa := a.pa, park := a.park }
  if a.halves then
    match a.op with
    | .load _ _ =>
      (if a.takesWord 0 then [] else [{ r with op := .load 8 false }]) ++
        if a.takesWord 1 then [] else [{ r with op := .load 8 false, pa := a.pa + 8, part := 1 }]
    | .store _ v hi p =>
      [{ r with op := .store 8 v 0#64 p }, { r with op := .store 8 hi 0#64 p, pa := a.pa + 8, part := 1 }]
    | _ => [r]
  else [r]

/-- The token that an answered in-block or holding access sends (R321, R322, R326): low and high. -/
def Acc.tokens (a : Acc) : Word × Word :=
  match a.op with
  | .load n signed =>
    let bs := mergeBytes ((natBytes 8 a.got.toNat ++ natBytes 8 a.gotHi.toNat).take n) a.forwarded
    let v := leNat bs
    if n = 16 then (BitVec.ofNat 64 (v % 2 ^ 64), BitVec.ofNat 64 (v / 2 ^ 64))
    else (if signed then signFrom (8 * n) v else BitVec.ofNat 64 v, 0#64)
  | .rsv w | .cas w _ _ | .swap w _ | .amin w _ _ | .amax w _ _ => (namedPart w a.pa a.got, 0#64)
  | _ => (a.got, 0#64)

/-- A poisoned value reached an uncommitted access: POISON in its instance, naming the first or the second word of the
location (R59, R63). [DEDUCED: log 130] -/
def poisonAcc (a : Acc) (src : Nat) (second : Bool) : Trap :=
  { cause := causePoison, addr := a.va / 8 * 8 + 8 * bitField second, info := dataInfo src 0 0 false }

/-- An uncommitted access has its value: its instruction is done and sends its token, unless the instance has completed, which
discards the tokens in flight (R181). -/
def answerAcc (k : Nat) (a : Acc) (st : AccSt) (s : State) : State :=
  match a.forwarded.find? fun f => f.2.2 with
  | some f => raise k (poisonAcc a (errorSource a.pa) (decide (a.va % 8 + f.1 ≥ 8))) s
  | none =>
    let complete : Bool := match (s.slot k).inst with
      | some i => i.complete
      | none => false
    let s := s.modAcc k a.id fun _ => { a with st := st }
    let s := s.modInst k fun i => i.modNode a.node fun n => { n with st := .fired }
    match (s.slot k).inst with
    | none => s
    | some i =>
      match i.nodes[a.node]? with
      | none => s
      | some n =>
        let f := n.form
        let (lo, hi) := a.tokens
        let snd := a.kind = .inBlock || a.kind = .holding
        let sends := if snd then [(f.t, Token.data lo false), (f.u, Token.data lo false)] ++ (if f.pair then [(tgtNext f.t, Token.data hi false)] else []) else []
        if complete then s else sendTokens k sends s

/-- Put the requests of an access on their way; with FE.RETRY.COUNT = 0 the first is a park request
(R106), and a RADD to a module known not to perform it begins as a reservation (R169). -/
def launchAcc (k : Nat) (b : Acc) (s : State) : State :=
  let c := slotCore k
  let a := { b with park := b.park || (s.slot k).feRetry == 0#64 }
  let sent (s : State) : State := s.modAcc k a.id fun _ => { a with st := .sent, parts := (a.requests k).length, sentAt := s.now }
  match a.op with
  | .barj | .barx | .bara | .arm _ =>
    let recorded := match (s.slot k).members.find? fun m => m.addr == a.pa with
      | some m => m.gen
      | none => none
    (sent s).send (.barrier { src := .slot k a.id, inst := a.inst, op := a.op, pa := a.pa, recorded := recorded } recorded)
  | .phase level => (sent s).send (.phaseArrive level k)
  | .zfree z n => (sent s).send (.lzfree k a.id z n)
  | .zrsv bytes => (sent s).inject c (fld a.va 0 13) a.va (.reserveZone k a.id a.va bytes)
  | _ =>
    match a.remote with
    | some m =>
      let n := (s.core c).packet
      let hold : Option (Width × Word) := match a.op with
        | .amadd w v _ => if (s.core c).unsup.contains m then some (w, v) else none
        | _ => none
      let op : MemOp := match hold with
        | some (w, _) => .rsv w
        | none => a.op
      (((sent s).modAcc k a.id fun b => { b with byHold := hold }).modCore c fun x => { x with packet := n + 1 }).inject c m a.pa
        (.remote c n k m { src := .slot k a.id, inst := a.inst, op := op, pa := a.pa })
    | none =>
      let rel := a.committed && match a.op with
        | .rel _ _ | .reln _ | .ldsync | .stsync _ _ => true
        | _ => false
      if rel then (sent s).send (.release { src := .slot k a.id, inst := a.inst, op := a.op, pa := a.pa })
      else (a.requests k).foldl (fun s r => s.send (.req r)) (sent s)

/-- Send one access if it may leave; a load whose bytes are all forwarded performs at once (R68). -/
def sendAcc (k : Nat) (a : Acc) (s : State) : State :=
  if maySend s k (s.slot k) a then
    match a.op with
    | .load n _ =>
      let fw := forwardAll (s.slot k) a n
      let a := { a with forwarded := fw }
      if fw.length = n then answerAcc k a .done s else launchAcc k a s
    | _ => launchAcc k a s
  else s

/-- Send every access of a slot that may leave, in program order. -/
def pump (k : Nat) (s : State) : State :=
  overAll (fun id s => match s.acc? k id with
    | some a => sendAcc k a s
    | none => s) ((s.slot k).accs.map fun a => a.id) s

/-! ## FENCE (R74 to R76) -/

/-- In-block and holding operations (R64). -/
def Instr.performsEarly : Instr → Bool
  | .ld8 _ _ _ _ _ | .ld8u _ _ _ _ _ | .ld16 _ _ _ _ _ | .ld16u _ _ _ _ _ | .ld32 _ _ _ _ _ | .ld32u _ _ _ _ _
  | .ld64 _ _ _ _ _ | .ld128 _ _ _ _ _ | .ldff _ _ _ _ | .mwait _ _ _ _ | .festat _ _ _ _ | .barw _ _ _ _ | .rld _ _ _ _ _
  | .rsv _ _ _ _ _ | .cas _ _ _ _ | .swap _ _ _ _ _ | .amin _ _ _ _ _ _ | .amax _ _ _ _ _ _ | .ldsync _ _ _ _
  | .stsync _ _ _ | .rat _ _ _ _ _ => true
  | _ => false

/-- A scope that covers accesses by their target (R74). -/
def scopeByTarget : Scope → Bool
  | .slot | .zone | .eng => false
  | .core | .clus | .die | .mod | .tier | .grp | .fab | .host | .hood => true

/-- An in-block or holding operation of the instance with a lower LSID has neither fired nor been nullified: what it will
cover is not known yet (R75, R76). -/
def fenceBlind (i : Inst) (lsid : Nat) (sc : Scope) : Bool :=
  scopeByTarget sc && i.nodes.any fun n => match n.instr with
    | some x => Instr.performsEarly x && (match (formOf x).lsid with
      | some l => decide (l.toNat < lsid) && (tabFind i.lsids l.toNat).isNone
      | none => false)
    | none => false

/-- Something that a FENCE covers is still to come about outside its instance, or in it: covered accesses of earlier
instances, covered in-block and holding accesses of its own with a lower LSID, and copies (R75). -/
def fenceOpen (s : State) (k : Nat) (sl : Slot) (num lsid : Nat) (sc : Scope) : Bool :=
  let sc := scopeIn sl sc
  sl.accs.any (fun a => !a.performed && (a.st = .walking && scopeByTarget sc || scopeCovers k sc a.remote a.pa) &&
      (a.inst < num || (a.inst == num && a.lsid < lsid && a.kind != .commitTime))) ||
    copiesOpen s sl sc num 0

/-- The wait of a FENCE before it is resolved (R75, R76). -/
def fenceWaits (s : State) (k : Nat) (sl : Slot) (num lsid : Nat) (sc : Scope) : Bool :=
  fenceOpen s k sl num lsid sc || match sl.inst with
    | some i => fenceBlind i lsid sc
    | none => false

/-- A FENCE of a committed instance still holds later operations back (R75, R76). -/
def fenceHolds (s : State) (k : Nat) (sl : Slot) (f : Fence) : Bool :=
  let sc := scopeIn sl f.scope
  sl.accs.any (fun a => !a.performed && scopeCovers k sc a.remote a.pa &&
      (a.inst < f.inst || (a.inst == f.inst && a.lsid < f.lsid))) ||
    copiesOpen s sl sc f.inst f.lsid

/-- Resolve the FENCEs of a slot whose waits are over, and drop those that no longer hold anything back. -/
def settleFences (k : Nat) (s : State) : State :=
  let sl := s.slot k
  let s := s.modSlot k fun x => { x with fences := sl.fences.filter fun f => fenceHolds s k sl f }
  match sl.inst with
  | none => s
  | some i =>
    overAll (fun n s => match i.nodes[n]? with
      | none => s
      | some x =>
        match x.instr with
        | some (.fence _ l sc) =>
          if x.st = .waiting && !fenceWaits s k sl i.num l.toNat sc then
            resolveLsid k l.toNat (s.modInst k fun j => j.modNode n fun y => { y with st := .fired })
          else s
        | _ => s) (List.range i.nodes.length) s

end Sys2Proof.Machine
end

