-- ==== Sys2Proof/Machine/Coherence.lean ====
section
/-! DEFINITION. Points of coherence: writes and what they wake (R107, R401), the word queue (R98, R99), the
performing of every operation (R54, R59, R79, R104, R110), barrier objects (R111 to R119), and the replies
at the requester (R65, R100, R103, R106, R109, R329). -/

namespace Sys2Proof.Machine

/-! ## Watchpoints (R400, R401) -/

/-- Who writes, as TRAP.INFO of WATCH names it (R401). -/
structure Writer where
  /-- 0 core slot, 1 edge engine, 2 landing send, 3 remote module, 4 refill unit, 5 Parlour agent -/
  kind : Nat
  module : Nat := 0
  core : Nat := 0
  slot : Nat := 0
  engine : Nat := 0
  deriving DecidableEq, Repr, Inhabited

/-- The writer of a slot; of another module's slot where the location lies elsewhere. -/
def writerOf (k pa : Nat) : Writer :=
  { kind := if slotModule k = pa / 2 ^ 48 then 0 else 3, module := slotModule k, core := coreNum (slotCore k), slot := slotNum k }

/-- TRAP.INFO of WATCH (R401). -/
def watchInfo (w : Writer) (n : Nat) (feOnly : Bool) : Nat :=
  w.kind * 2 ^ 61 + w.module * 2 ^ 48 + w.core * 2 ^ 35 + w.slot * 2 ^ 31 + w.engine * 2 ^ 26 + n * 256 + bitField feOnly * 128

/-- Whether an armed watchpoint matches a word (R400). -/
def Watch.sees (w : Watch) (pa : Nat) (feOnly : Bool) : Bool :=
  bitOf w.addr.toNat 63 && (!feOnly || bitOf w.addr.toNat 62) && pa / 2 ^ 48 == w.pa / 2 ^ 48 &&
    Nat.land (Nat.xor (pa % 2 ^ 48) (w.pa % 2 ^ 48)) (fld w.mask.toNat 3 45 * 8) == 0

/-- A watchpoint fires: EN is cleared and a WATCH record of ORIGIN 11 leaves for the die's queue (R401). -/
def fireWatch (wr : Writer) (c n : Nat) (w : Watch) (pa : Nat) (feOnly : Bool) (s : State) : State :=
  let s := s.modCore c fun x => { x with watches := tabPut x.watches n { w with addr := w.addr &&& ~~~(1#64 <<< 63) } }
  let k := c * 16 + w.slot
  let va := fld w.addr.toNat 3 45 * 8 + pa / 8 * 8 - w.pa
  s.send (.record k (coreDie c)
    [causeWord (2 ^ 32 - 1) causeWatch false 3 w.slot (c % 2048) (s.slot k).exn, BitVec.ofNat 64 va, 0#64,
     BitVec.ofNat 64 (watchInfo wr n feOnly)] false false)

/-- Every watchpoint of the system sees a write at a word. -/
def watchWord (wr : Writer) (pa : Nat) (feOnly : Bool) (s : State) : State :=
  overAll (fun p s => overAll (fun q s =>
    if q.2.sees pa feOnly then fireWatch wr p.1 q.1 q.2 pa feOnly s else s) p.2.watches s) s.cores s

/-! ## Units and entries (R98) -/

/-- The point of coherence of a location: pool port, bank, channel controller or CXL port (R53, R65). -/
def unitOf (pa : Nat) : Nat :=
  let m := pa / 2 ^ 48 * 2 ^ 20
  let x := pa % 2 ^ 48
  match regionOf x with
  | some (.remote c _) => m + c
  | some .global => m + 0x10000 + bankOf x
  | some .tier2 =>
    let p := x - 0x20000000000
    m + 0x20000 + Nat.xor (fld p 8 7) (fld p 15 7)
  | some .cxl => m + 0x30000 + (x - 0x40000000000) / 2 ^ 41
  | _ => m + 0x40000

/-- The word queue of an 8-byte word. -/
def State.wordQ (s : State) (w : Nat) : WordQ := tabGet s.words w {}

/-- Set a word queue; an idle one is not listed. -/
def State.setWordQ (s : State) (w : Nat) (q : WordQ) : State :=
  { s with words := if q = {} then tabDel s.words w else tabPut s.words w q }

/-- A waiter entry of the unit is free: hold queues and waiter lists share 64 (R98). [DEDUCED: log 48] -/
def entryFree (s : State) (pa : Nat) : Bool :=
  let u := unitOf pa
  decide ((s.words.map fun p => if unitOf (p.1 * 8) = u then p.2.queue.length + p.2.waiters.length else 0).sum < 64)

/-- The word keys that a request covers. -/
def Req.words (r : Req) : List Nat :=
  if (r.pa + r.op.size - 1) / 8 = r.pa / 8 then [r.pa / 8] else [r.pa / 8, r.pa / 8 + 1]

/-- The request comes from the instance that holds a word (R328). [DEDUCED: log 49] -/
def Req.owns (r : Req) (q : WordQ) : Bool :=
  match q.held, r.src with
  | some (k, i, _), .slot k' _ => k == k' && i == r.inst
  | _, _ => false

/-- A covered word that another instance holds (R77, R99). [DEDUCED: log 49] -/
def blockedAt (s : State) (r : Req) : Option Nat :=
  r.words.find? fun w => (s.wordQ w).held.isSome && !r.owns (s.wordQ w)

/-- An answer to a request; a combined one goes back to its switch (R105). -/
def answer (r : Req) (a : Answer) (s : State) : State :=
  if r.combined = [] then s.send (.reply r.src r.inst r.part r.pa a) else s.send (.combined r a)

/-! ## Reading the state of words -/

/-- The token of FESTAT (R110). -/
def festatToken (s : State) (pa : Nat) : Word :=
  let q := s.wordQ (pa / 8)
  BitVec.ofNat 64 (bitField (s.isFull pa) + bitField (s.wordPoisoned pa) * 2 + bitField q.held.isSome * 4 +
    bitField (q.queue != [] || q.waiters != []) * 8)

/-- GEN of a barrier object's low word (R111). -/
def barGen (low : Word) : Nat := fld low.toNat 48 16
/-- BROKEN of its high word. -/
def barBroken (high : Word) : Bool := bitOf high.toNat 63

/-- The token of BARW (R115). -/
def barwToken (low high : Word) : Word := BitVec.ofNat 64 (bitField (barBroken high) * 2 ^ 63 + barGen low)

/-- Either word of a barrier object is poisoned (R59). -/
def objectPoisoned (s : State) (pa : Nat) : Bool := s.wordPoisoned pa || s.wordPoisoned (pa + 8)

/-- The answer to an access that meets poison (R59, R63). -/
def poisonedAt (s : State) (pa : Nat) : Answer := .poisoned (errorSource pa) (!s.wordPoisoned pa)

/-- What a waiting operation would do now: nothing, answer, or be granted (R99, R106, R107). -/
inductive Wake where
  | stay
  | answer (a : Answer)
  | grant (a : Answer)
  deriving DecidableEq, Repr, Inhabited

/-- Re-evaluate a read that may wait, or a hold (R59, R99). -/
def evaluate (s : State) (op : MemOp) (pa : Nat) : Wake :=
  let bad := poisonedAt s pa
  let v := s.word (pa / 8 * 8)
  match op with
  | .ldff => if s.wordPoisoned pa then .answer bad else if s.isFull pa then .answer (.value v 0#64 false) else .stay
  | .mwait r => if s.wordPoisoned pa then .answer bad else if r.toNat ≤ v.toNat then .answer (.value v 0#64 false) else .stay
  | .barw gen =>
    let high := s.word (pa + 8)
    if objectPoisoned s pa then .answer bad
    else if barGen v ≠ gen ∨ barBroken high then .answer (.value (barwToken v high) 0#64 false) else .stay
  | .ldsync => if s.wordPoisoned pa then .answer bad else if s.isFull pa then .grant (.grant v) else .stay
  | .stsync _ _ => if s.wordPoisoned pa then .answer bad else if s.isFull pa then .stay else .grant (.grant v)
  | .rsv _ | .cas _ _ _ | .swap _ _ | .amin _ _ _ | .amax _ _ _ =>
    if s.wordPoisoned pa then .answer bad else .grant (.grant v)
  | _ => .stay

/-- The word is held from now on by a request (R99). -/
def grantTo (r : Req) (s : State) : State :=
  match r.src with
  | .slot k a =>
    let w := r.pa / 8
    s.setWordQ w { s.wordQ w with held := some (k, r.inst, a) }
  | _ => s

/-- Scan the waiter list of a word in arrival order: serve what can be served; a grant leaves the word held
and stops the scan for LDSYNC and STSYNC (R107). -/
def scanWaiters (w : Nat) : List Req → State → State
  | [], s => s
  | r :: rs, s =>
    let leave (s : State) : State :=
      let q := s.wordQ w
      s.setWordQ w { q with waiters := q.waiters.erase r }
    match evaluate s r.op r.pa with
    | .stay => scanWaiters w rs s
    | .answer a => scanWaiters w rs (answer r a (leave s))
    | .grant a =>
      if (s.wordQ w).held.isSome then scanWaiters w rs s
      else scanWaiters w rs (answer r a (grantTo r (leave s)))

/-- A parked request waits for a value: any write to its word re-evaluates it (R107, R114). -/
def MemOp.waitsForValue : MemOp → Bool
  | .mwait _ | .barw _ => true
  | _ => false

/-- What a write at a word wakes: watchpoints and parked requests; the waiters for a full/empty state only where the write
changes it. A BARW is parked at the low word of its object (R107, R114, R401). [DEDUCED: log 46, 47] -/
def wroteWord (wr : Writer) (feOnly change : Bool) (w : Nat) (s : State) : State :=
  let s := watchWord wr (w * 8) feOnly s
  let s := scanWaiters w ((s.wordQ w).waiters.filter fun r => change || r.op.waitsForValue) s
  scanWaiters (w - 1) ((s.wordQ (w - 1)).waiters.filter fun r => match r.op with | .barw _ => true | _ => false) s

/-- The words of a span of bytes. -/
def wordsOf (pa n : Nat) : List Nat :=
  if n = 0 then [] else (List.range ((pa + n - 1) / 8 - pa / 8 + 1)).map fun i => pa / 8 + i

/-- Write bytes at their point of coherence, and wake what waits (R66, R107, R401). -/
def writeMem (wr : Writer) (pa : Nat) (bs : List Byte) (s : State) : State :=
  overAll (wroteWord wr false false) (wordsOf pa bs.length) (s.putBytes pa bs)

/-- Write one whole word. -/
def writeWord (wr : Writer) (pa : Nat) (v : Word) (s : State) : State := writeMem wr pa (natBytes 8 v.toNat) s

/-- Change a full/empty bit alone (R107). -/
def writeFull (wr : Writer) (pa : Nat) (full : Bool) (s : State) : State :=
  wroteWord wr true (s.isFull pa != full) (pa / 8) (s.setFull pa full)

/-- Write a whole word and set it full: one write to every other party (R107, R110). -/
def writeAndFill (wr : Writer) (pa : Nat) (v : Word) (p : Bool) (s : State) : State :=
  wroteWord wr false (!s.isFull pa) (pa / 8) (((s.setWordPoison pa p).setFull pa true).putWord pa v)

/-- Poison or clean the words of a span. [DEDUCED: log 35] -/
def poisonSpan (pa n : Nat) (p : Bool) (s : State) : State :=
  overAll (fun w s => s.setWordPoison (w * 8) p) (wordsOf pa n) s

/-! ## Performing (R54, R59, R79, R99, R104) -/

/-- A store: one that covers whole words clears poison; a narrower one that meets poison leaves the word
(R46, R59, R320). [DEDUCED: log 35] -/
def performStore (wr : Writer) (pa : Nat) (bs : List Byte) (p : Bool) (s : State) : Answer × State :=
  let whole := pa % 8 = 0 ∧ bs.length % 8 = 0
  if ¬whole ∧ s.wordPoisoned pa then (poisonedAt s pa, s)
  else (.ack, writeMem wr pa bs (poisonSpan pa bs.length p s))

/-- A run of bytes written by a Q operation, word by word: a partly covered poisoned word stays (R59, R363). -/
def performBytes (wr : Writer) (p : Bool) : Nat → Nat → List Byte → State → State
  | 0, _, _, s => s
  | n + 1, pa, bs, s =>
    let k := 8 - pa % 8
    let now := bs.take k
    if bs = [] then s
    else performBytes wr p n (pa + k) (bs.drop k) (performStore wr pa now p s).2

/-- AMADD at the point of coherence: the old value, named part (R104, R327). -/
def performAdd (wr : Writer) (pa : Nat) (w : Width) (v : Word) (s : State) : Answer × State :=
  if s.wordPoisoned pa then (poisonedAt s pa, s)
  else
    let o := s.word (pa / 8 * 8)
    (.value (namedPart w pa o) 0#64 false, writeWord wr (pa / 8 * 8) (withPart w pa o (namedPart w pa o + v)) s)

/-- Who makes a request. -/
def Req.writer (r : Req) : Writer :=
  match r.src with
  | .slot k _ => writerOf k r.pa
  | .refill c _ => { kind := 4, module := coreModule c, core := coreNum c }
  | .agent c => { kind := 5, module := coreModule c, core := coreNum c }
  | .copy _ | .outside _ | .fetch _ | .node _ _ | .msg _ | .unit _ => { kind := 0, module := r.pa / 2 ^ 48 }

/-- The bytes that a store writes. -/
def storeData (n : Nat) (v hi : Word) : List Byte := (natBytes 8 v.toNat ++ natBytes 8 hi.toNat).take n

/-- Perform a request on an OPEN word, or on one that its instance holds (R99, R328). R59's table has no row for SETE of a
poisoned word: the word becomes empty and keeps its poison. [DESIGN CHOICE: log 131] -/
def performReq (r : Req) (s : State) : Wake × State :=
  let wr := r.writer
  match r.op with
  | .load n _ =>
    if s.wordPoisoned r.pa || (n == 16 && s.wordPoisoned (r.pa + 8)) then (.answer (poisonedAt s r.pa), s)
    else
      let x := s.readN r.pa n
      (.answer (.value (BitVec.ofNat 64 (x % 2 ^ 64)) (BitVec.ofNat 64 (x / 2 ^ 64)) false), s)
  | .store n v hi p =>
    let (a, s) := performStore wr r.pa (storeData n v hi) p s
    (.answer a, s)
  | .bytes bs p => (.answer .ack, performBytes wr p (bs.length / 8 + 2) r.pa bs s)
  | .festat => (.answer (.value (festatToken s r.pa) 0#64 false), s)
  | .sete => (.answer .ack, writeFull wr r.pa false s)
  | .stff v p =>
    (.answer .ack, writeAndFill wr r.pa v p s)
  | .amadd w v _ =>
    let (a, s) := performAdd wr r.pa w v s
    (.answer a, s)
  | op => (evaluate s op r.pa, s)

/-- Serve one request at its point of coherence (R99, R106, R108). -/
def serveReq (r : Req) (s : State) : State :=
  match performReq r s with
  | (.answer a, s) => answer r a s
  | (.grant a, s) => answer r a (grantTo r s)
  | (.stay, s) =>
    if !r.park then answer r .notReady s
    else if entryFree s r.pa then
      let w := r.pa / 8
      s.setWordQ w { s.wordQ w with waiters := (s.wordQ w).waiters ++ [r] }
    else answer r .full s

/-! ## Barrier objects (R111 to R119) -/

/-- The fields of a barrier object (R111). -/
structure Bar where
  gen : Nat
  arrived : Nat
  expected : Nat
  broken : Bool
  counts : Bool
  cause : Nat
  other : Nat
  deficit : Nat
  pending : Nat
  deriving DecidableEq, Repr, Inhabited

/-- Read a barrier object. -/
def readBar (s : State) (pa : Nat) : Bar :=
  let l := (s.word pa).toNat
  let h := (s.word (pa + 8)).toNat
  { gen := fld l 48 16, arrived := fld l 24 24, expected := fld l 0 24
    broken := bitOf h 63, counts := bitOf h 62, cause := fld h 60 2, other := fld h 48 12
    deficit := fld h 24 24, pending := fld h 0 24 }

/-- The two words of a barrier object. The reserved bits [59:48] of the high word, which an ordinary store may have set, stay
as they are. [DESIGN CHOICE: log 132] -/
def Bar.words (b : Bar) : Word × Word :=
  (BitVec.ofNat 64 (b.gen * 2 ^ 48 + b.arrived * 2 ^ 24 + b.expected),
   BitVec.ofNat 64 (bitField b.broken * 2 ^ 63 + bitField b.counts * 2 ^ 62 + b.cause * 2 ^ 60 + b.other * 2 ^ 48 +
     b.deficit * 2 ^ 24 + b.pending))

/-- Write a barrier object; parked BARWs whose condition now holds are served (R114). -/
def writeBar (wr : Writer) (pa : Nat) (b : Bar) (s : State) : State :=
  let (l, h) := b.words
  let s0 := (s.putWord pa l).putWord (pa + 8) h
  let s1 := if s.word pa = l then s0 else wroteWord wr false false (pa / 8) s0
  if s.word (pa + 8) = h then s1 else wroteWord wr false false (pa / 8 + 1) s1

/-- The greatest count of a barrier field. -/
def barMax : Nat := 0xFFFFFF

/-- BROKEN := 1 and CAUSE := a cause (R111, R113, R116, R117, R119). -/
def Bar.break_ (b : Bar) (cause : Nat) : Bar := { b with broken := true, cause := cause }

/-- The phase ends when nothing is missing (R114). -/
def Bar.test (b : Bar) : Bar :=
  if !b.broken ∧ b.expected ≤ b.arrived ∧ b.pending = 0 then { b with gen := (b.gen + 1) % 65536, arrived := 0 } else b

/-- EXPECTED + 1 (R113). -/
def Bar.join (b : Bar) : Bar := if b.expected < barMax then { b with expected := b.expected + 1 } else b.break_ 3

/-- ARRIVED + 1, then the test (R113, R114, R118). -/
def Bar.arrive (b : Bar) : Bar := (if b.arrived < barMax then { b with arrived := b.arrived + 1 } else b.break_ 3).test

/-- EXPECTED − 1, and ARRIVED − 1 for an arrival of the present generation (R113). -/
def Bar.leave (b : Bar) (recorded : Option Nat) : Bar :=
  let mine := recorded == some b.gen
  let b := if b.expected = 0 then b.break_ 3 else { b with expected := b.expected - 1 }
  let b := if mine then (if b.arrived = 0 then b.break_ 3 else { b with arrived := b.arrived - 1 }) else b
  b.test

/-- PENDING + n; past the range the count stays and BROKEN is set with CAUSE 11 (R150). An addition of 0 changes no count and
tests nothing (R114). -/
def Bar.arm (b : Bar) (n : Nat) : Bar :=
  if n = 0 then b else (if b.pending + n ≤ barMax then { b with pending := b.pending + n } else b.break_ 3).test

/-- PENDING − n; a subtraction that exceeds PENDING breaks the object (R117). -/
def Bar.less (b : Bar) (n : Nat) : Bar :=
  if n ≤ b.pending then { b with pending := b.pending - n } else { b.break_ 3 with pending := 0 }

/-- Bytes that have landed: a change of PENDING, and the test (R114, R117). -/
def Bar.landed (b : Bar) (n : Nat) : Bar := if n = 0 then b else (b.less n).test

/-- A failure: BROKEN with CAUSE 10, DEFICIT grows, and PENDING falls where the bytes were counted in it (R119, R157).
[DEDUCED: log 54] -/
def Bar.fail (b : Bar) (missing : Nat) (counted : Bool) : Bar :=
  let c := b.break_ 2
  let c := { c with deficit := min barMax (c.deficit + missing) }
  if counted then c.less missing else c

/-- Change a barrier object that no poison covers (R59). -/
def modBar (wr : Writer) (pa : Nat) (f : Bar → Bar) (s : State) : State :=
  if objectPoisoned s pa then s else writeBar wr pa (f (readBar s pa)) s

/-- A barrier operation at the home bank (R113, R150, R329). -/
def performBarrier (r : Req) (recorded : Option Nat) (s : State) : State :=
  let wr := r.writer
  let b := readBar s r.pa
  if objectPoisoned s r.pa then answer r (poisonedAt s r.pa) s
  else match r.op with
    | .barj => answer r .ack (writeBar wr r.pa b.join s)
    | .bara => answer r (.gen b.gen) (writeBar wr r.pa b.arrive s)
    | .barx => answer r .ack (writeBar wr r.pa (b.leave recorded) s)
    | .arm n => answer r .ack (writeBar wr r.pa (b.arm n) s)
    | _ => s

/-- The back-off before the k-th resend (R100). -/
def backOff (k : Nat) : Nat := min (64 * 2 ^ (k - 1)) 4096

/-! ## Hold queues (R98 to R100) -/

/-- The key under which a party that makes its access itself holds a word while its turn lasts: above every slot key. -/
def Source.key : Source → Nat
  | .slot k _ => k
  | .copy id => 2 ^ 100 + id * 8
  | .refill c d => 2 ^ 100 + (c * 2 ^ 17 + d) * 8 + 1
  | .agent c => 2 ^ 100 + c * 8 + 2
  | .outside m => 2 ^ 100 + m * 8 + 3
  | .fetch k => 2 ^ 100 + k * 8 + 4
  | .node k n => 2 ^ 100 + (k * 256 + n) * 8 + 5
  | .msg id => 2 ^ 100 + id * 8 + 6
  | .unit n => 2 ^ 100 + n * 8 + 7

/-- The core whose counter a party's NACKs increment (R100). -/
def Source.core? (s : State) : Source → Option Nat
  | .slot k _ | .fetch k | .node k _ => some (slotCore k)
  | .copy id => (tabFind s.copies id).map fun c => slotCore c.slot
  | .refill c _ | .agent c => some c
  | .outside _ | .msg _ | .unit _ => none

/-- A party's back-off after a NACK is not over (R100). -/
def backingOff (s : State) (src : Source) : Bool := s.waits.any fun x => x.1 == src && decide (s.now < x.2.2)

/-- A party is answered NACK: it is counted, and asks again after the back-off (R100). -/
def nackParty (src : Source) (s : State) : State :=
  let n := match s.waits.find? fun x => x.1 == src with
    | some (_, n, _) => n + 1
    | none => 1
  let s := match src.core? s with
    | some c => s.modCore c fun x => { x with nacks := x.nacks + 1 }
    | none => s
  { s with waits := (src, n, s.now + backOff n) :: s.waits.filter fun x => x.1 != src }

/-- Serve a request whose turn in a hold queue has come; a party that makes its access itself holds the word until it has
made it. -/
def serveTurn (r : Req) (s : State) : State :=
  match r.op with
  | .barj | .bara | .barx | .arm _ => performBarrier r r.recorded s
  | .breakBar => modBar r.writer r.pa (fun b => b.break_ 1) s
  | .turn => s.setWordQ (r.pa / 8) { s.wordQ (r.pa / 8) with held := some (r.src.key, 0, 0) }
  | _ => serveReq r s

/-- A request that nobody waits for: an outside master's or a unit's own write, or the breaking of a barrier. After a NACK it
comes again by itself. -/
def Req.persists (r : Req) : Bool :=
  r.op == .breakBar || match r.src with
    | .outside _ => true
    | _ => false

/-- Such a request has been admitted: its back-off is over. -/
def admitted (r : Req) (s : State) : State :=
  if r.persists then { s with waits := s.waits.filter fun x => x.1 != r.src } else s

/-- A request that finds no free entry is answered NACK; one that nobody waits for backs off and comes again (R100). -/
def turnAway (r : Req) (s : State) : State :=
  if r.persists then nackParty r.src (s.send (if r.op == .breakBar then .barrier r none else .req r)) else answer r .nack s

/-- Join the hold queue of a word, or meet no free entry (R99, R100). [DEDUCED: log 48] -/
def joinQueue (r : Req) (w : Nat) (s : State) : State :=
  if entryFree s r.pa then (admitted r s).setWordQ w { s.wordQ w with queue := (s.wordQ w).queue ++ [r] } else turnAway r s

/-- A request reaches its point of coherence (R99): a held word answers FESTAT at once, queues anything
else, or answers NACK when no entry is free (R100). [DEDUCED: log 48] -/
def arriveReq (r : Req) (s : State) : State :=
  match blockedAt s r with
  | none => serveReq r (admitted r s)
  | some w =>
    match r.op with
    | .festat => serveReq r s
    | _ => joinQueue r w s

/-- A barrier operation reaches its home bank (R99, R113). -/
def arriveBarrier (r : Req) (s : State) : State :=
  match blockedAt s r with
  | none => serveTurn r (admitted r s)
  | some w => joinQueue r w s

/-- Serve the hold queue of an OPEN word until it is empty or a request is granted (R99). [DEDUCED: log 46] -/
def serveQueue (w : Nat) : Nat → State → State
  | 0, s => s
  | n + 1, s =>
    let q := s.wordQ w
    match q.held, q.queue with
    | none, r :: rs =>
      let s := s.setWordQ w { q with queue := rs }
      let s := match blockedAt s r with
        | some w' => s.setWordQ w' { s.wordQ w' with queue := (s.wordQ w').queue ++ [r] }
        | none => serveTurn r s
      serveQueue w n s
    | _, _ => s

/-- End a hold: the word is OPEN, written as the release says, and its queue is served (R77, R99). R59's table has no row for
a release onto a word that became poisoned while it was held: the data is written, the poison stays.
[DEDUCED: log 45; DESIGN CHOICE: log 131] -/
def releaseWord (r : Req) (s : State) : State :=
  let w := r.pa / 8
  let q := s.wordQ w
  if r.owns q then
    let wr := r.writer
    let s := s.setWordQ w { q with held := none }
    let s := match r.op with
      | .rel wd v => writeWord wr (w * 8) (withPart wd r.pa (s.word (w * 8)) v) s
      | .ldsync => writeFull wr r.pa false s
      | .stsync v p => writeAndFill wr r.pa v p s
      | _ => s
    serveQueue w (q.queue.length + 1) s
  else s

/-! ## Accesses that a party makes itself: copies, fetches, agents (R77, R99, R100) -/

/-- A party may use a word: nothing holds it, or its own turn does. -/
def mayTake (s : State) (src : Source) (w : Nat) : Bool :=
  match (s.wordQ w).held with
  | none => true
  | some (k, _, _) => k == src.key

/-- The first word that a party may not use now. -/
def firstBusy (s : State) (src : Source) (ws : List Nat) : Option Nat := ws.find? fun w => !mayTake s src w

/-- A party's place in the queue of a word. -/
def Req.placeOf (r : Req) (src : Source) : Bool := r.src == src && r.op == .turn

/-- The words at which a party holds its turn or waits for it. -/
def placesOf (s : State) (src : Source) : List Nat :=
  (s.words.filter fun p => p.2.queue.any (fun r => r.placeOf src) || (match p.2.held with
    | some (k, _, _) => k == src.key
    | none => false)).map fun p => p.1

/-- A party's turn at a word is over, or it no longer waits there: the next is served (R99). -/
def leavePlace (src : Source) (w : Nat) (s : State) : State :=
  let q := s.wordQ w
  let q' := { q with queue := q.queue.filter fun r => !r.placeOf src }
  match q.held with
  | some (k, _, _) =>
    if k = src.key then serveQueue w (q'.queue.length + 1) (s.setWordQ w { q' with held := none }) else s.setWordQ w q'
  | none => s.setWordQ w q'

/-- A party has made its access, or gives it up. -/
def endTurn (src : Source) (s : State) : State :=
  let s := overAll (leavePlace src) (placesOf s src) s
  { s with waits := s.waits.filter fun x => x.1 != src }

/-- A party has met a held word: it waits in the word's hold queue, in order of arrival; where no entry is free it is answered
NACK and asks again after the back-off (R99, R100). It waits at one word at a time. [DESIGN CHOICE: log 133] -/
def waitTurn (src : Source) (w : Nat) (s : State) : State :=
  if (s.wordQ w).queue.any fun r => r.placeOf src then s
  else
    let s := overAll (leavePlace src) (placesOf s src) s
    if backingOff s src then s
    else if entryFree s (8 * w) then
      { s.setWordQ w { s.wordQ w with queue := (s.wordQ w).queue ++ [{ src := src, op := .turn, pa := 8 * w }] } with
        waits := s.waits.filter fun x => x.1 != src }
    else nackParty src s

/-- A unit of a module writes on its own: at once where no word is held, else as a store that queues for each word (R77,
R99). -/
def unitStore (pa : Nat) (bs : List Byte) (s : State) : State :=
  overAll (fun w s =>
    let lo := max pa (8 * w)
    let hi := min (pa + bs.length) (8 * w + 8)
    let now := (bs.drop (lo - pa)).take (hi - lo)
    let r : Req := { src := .outside (pa / 2 ^ 48), pa := lo, op := .bytes now false }
    if (s.wordQ w).held.isNone then writeMem r.writer lo now s else joinQueue r w s) (wordsOf pa bs.length) s

/-- A request comes from an access of a slot. -/
def Req.from_ (r : Req) (k a : Nat) : Bool :=
  r.op != .breakBar && match r.src with
    | .slot k' a' => k == k' && a == a'
    | _ => false

/-- A cancel frees the queued or parked entry of an access, and overtakes no request: one still on its way
is dropped (R109). [DEDUCED: log 45] -/
def cancelReq (k a : Nat) (s : State) : State :=
  let mine (m : Msg) : Bool := match m with
    | .req r => r.from_ k a
    | .remote _ _ _ _ r => r.from_ k a
    | _ => false
  let gone := (s.net.filter fun p => mine p.2).map fun p => p.1
  let s := { s with net := s.net.filter (fun p => !mine p.2), routes := s.routes.filter fun p => !gone.contains p.1 }
  overAll (fun (p : Nat × WordQ) s =>
    s.setWordQ p.1 { p.2 with queue := p.2.queue.filter fun r => !r.from_ k a
                              waiters := p.2.waiters.filter fun r => !r.from_ k a }) s.words s

/-! ## Replies at the requester -/

/-- The register of a reply: written unless something later has written it (R78, R327, R361). [DEDUCED: log 52] -/
def replyReg (k reg : Nat) (v : Word) (poison : Bool) (s : State) : State :=
  if reg = 0 ∨ ¬((s.slot k).reg reg).pending then s
  else
    let g : Reg := { val := v, poison := poison, pending := false }
    let s := s.modSlot k fun x => x.setReg reg g
    s.modInst k fun i => { i with regs0 := tabPut i.regs0 reg g }

/-- The register that an AMADD's reply writes (R327). -/
def MemOp.replyTo : MemOp → Option Nat
  | .amadd _ _ reg => reg
  | _ => none

/-- POISON after commit (R63, R329). -/
def poisonCommitted (a : Acc) (src : Nat) (second : Bool) : Trap :=
  { poisonAcc a src second with info := dataInfo src 0 0 true, origin := 1, own := some a.blk }

/-- A grant reaches its requester: the timer of HOLD.LIMIT starts and the token is sent (R102, R103). -/
def grantAcc (k : Nat) (a : Acc) (v : Word) (s : State) : State :=
  let s := s.modInst k fun i => { i with firstGrant := (match i.firstGrant with | some t => some t | none => some s.now) }
  answerAcc k { a with got := v } .granted s

/-- A committed access is acknowledged; the membership list follows BARJ, BARA and BARX (R113). -/
def ackAcc (k : Nat) (a : Acc) (gen : Option Nat) (s : State) : State :=
  let s := s.dropAcc k a.id
  s.modSlot k fun sl => { sl with
    members := (match a.op with
      | .barj => sl.members ++ [{ addr := a.pa }]
      | .barx => sl.members.filter fun m => m.addr != a.pa
      | .bara => sl.members.map fun m => if m.addr = a.pa then { m with gen := gen } else m
      | _ => sl.members) }

/-- The value of a load or of an AMADD arrives; a torn access waits for its other half (R57). -/
def valueAcc (k : Nat) (a : Acc) (part : Nat) (v hi : Word) (s : State) : State :=
  match a.op with
  | .amadd _ _ reg =>
    let s := match reg with | some g => replyReg k g v false s | none => s
    ackAcc k a none s
  | _ =>
    let b := if a.halves then (if part = 0 then { a with got := v } else { a with gotHi := v })
      else { a with got := v, gotHi := hi }
    if b.parts ≤ 1 then answerAcc k b .done s else s.modAcc k a.id fun _ => { b with parts := b.parts - 1 }

/-- A request of a slot to a module, as its interface sends it (R162). -/
def sendRemote (k m : Nat) (r : Req) (s : State) : State :=
  let c := slotCore k
  let n := (s.core c).packet
  (s.modCore c fun x => { x with packet := n + 1 }).inject c m r.pa (.remote c n k m r)

/-- A target that performs no RADD: the requesting interface carries out the add by a reservation, and remembers the target
in its list of 64 (R169). -/
def addByHold (k : Nat) (a : Acc) (s : State) : State :=
  match a.remote, a.op with
  | some m, .amadd w v _ =>
    let s := s.modCore (slotCore k) fun c => { c with unsup := (m :: c.unsup.filter fun x => x != m).take 64 }
    let s := s.modAcc k a.id fun b => { b with st := .sent, byHold := some (w, v), sentAt := s.now }
    sendRemote k m { src := .slot k a.id, inst := a.inst, op := .rsv w, pa := a.pa } s
  | _, _ => s

/-- The reservation of such an add has been granted: it releases the sum (R169). -/
def addByGrant (k : Nat) (a : Acc) (pa : Nat) (w : Width) (v : Word) (s : State) : State :=
  match a.remote with
  | some m =>
    let s := s.modAcc k a.id fun b => { b with phys := pa, sentAt := s.now }
    sendRemote k m { src := .slot k a.id, inst := a.inst, op := .rel w v, pa := pa % 2 ^ 48 } s
  | none => s

/-- An answer reaches the access that asked (R65, R99, R100, R106, R108, R329). -/
def replyAcc (k : Nat) (a : Acc) (part pa : Nat) (ans : Answer) (s : State) : State :=
  match ans with
  | .value v hi _ => valueAcc k a part v hi s
  | .grant v =>
    match a.byHold with
    | some (w, x) => addByGrant k a pa w (namedPart w a.pa v + x) s
    | none => grantAcc k { a with phys := pa } v s
  | .ack => if a.parts ≤ 1 then ackAcc k a none s else s.modAcc k a.id fun b => { b with parts := b.parts - 1 }
  | .gen g => ackAcc k a (some g) s
  | .notReady => s.modAcc k a.id fun b => { b with st := .unready, tries := b.tries + 1 }
  | .nack =>
    let s := s.modCore (slotCore k) fun c => { c with nacks := c.nacks + 1 }
    s.modAcc k a.id fun b =>
      if part = 0 then { b with st := .refused, nacks := b.nacks + 1, again := b.again ++ [part]
                                notBefore := s.now + backOff (b.nacks + 1) }
      else { b with st := .refused, nacksHi := b.nacksHi + 1, again := b.again ++ [part]
                    notBeforeHi := s.now + backOff (b.nacksHi + 1) }
  | .full => raise k { cause := causePark, addr := a.va, info := 0, replay := true } s
  | .poisoned src second =>
    if a.committed then
      let s := match a.op.replyTo with | some g => replyReg k g 0#64 true s | none => s
      pendTrap k (poisonCommitted a src (second || part == 1)) (s.dropAcc k a.id)
    else raise k (poisonAcc a src (second || part == 1)) s
  | .fault t =>
    if a.committed then pendTrap k { t with origin := 1, replay := false, own := some a.blk } (s.dropAcc k a.id)
    else raise k t s
  | .unsup => addByHold k a s

/-- A grant for an access that is no longer there is released unchanged (R109). [DEDUCED: log 125] -/
def orphanReply (k id inst pa : Nat) (ans : Answer) (s : State) : State :=
  match ans with
  | .grant _ => s.send (.release { src := .slot k id, inst := inst, op := .reln .w64, pa := pa })
  | _ => s

/-- The event MEMORY_REQUEST_ARRIVAL at a word of memory: messages `req`. -/
def takeReq (id : Nat) (s : State) : State :=
  match tabFind s.net id with
  | some (.req r) => if r.persists && backingOff s r.src then s else arriveReq r (s.drop id)
  | _ => s

end Sys2Proof.Machine
end

