-- ==== Sys2Proof/Machine/Memory.lean ====
section
/-! DEFINITION. The meanings of opcodes 0x60 to 0x81 and 0xC0 to 0xC3: loads, stores, full/empty words,
atomics, FENCE, waits, barriers, PHASE and remote accesses (R75, R320 to R331, R335, R354, R355). -/

namespace Sys2Proof.Machine

/-- The mould of R320: a poisoned address raises POISON, and so does poisoned data, except of a pure
store. -/
def memShell (i : Instr) (pure : Bool) (body : Fired → State → State) : State → State :=
  fire i fun o s => if o.lp || (!pure && o.poison) then raise o.slot poisonToken s else body o s

/-- A load (R321, R322). -/
def loadOp (i : Instr) (l : BitVec 5) (rlx : Bool) (off : BitVec 8) (n : Nat) (signed : Bool) : State → State :=
  memShell i false fun x => startAccess x l.toNat .inBlock (!rlx) (.load n signed) (offAddr n off.toInt x.l)

/-- A store (R320, R321). -/
def storeOp (i : Instr) (l : BitVec 5) (rlx : Bool) (off : BitVec 8) (n : Nat) : State → State :=
  memShell i true fun x => startAccess x l.toNat .commitTime (!rlx) (.store n x.r x.t x.poison) (offAddr n off.toInt x.l)

/-- An ordered operation on a word, with the operand `x` (R323, R330). -/
def wordOp (i : Instr) (l : BitVec 5) (off : BitVec 8) (pure : Bool) (kind : PerformKind) (op : Fired → MemOp) : State → State :=
  memShell i pure fun x => startAccess x l.toNat kind true (op x) (offAddr 8 off.toInt x.l)

/-- A holding or releasing operation on a local word (R325). -/
def atomicOp (i : Instr) (l : BitVec 5) (w : Width) (n : BitVec 6) (kind : PerformKind) (op : Fired → MemOp) : State → State :=
  memShell i false fun x => startAccess x l.toNat kind true (op x) (offAddr (atomicBytes w) n.toInt x.l)

/-- A barrier operation on an object (R112, R331). -/
def barrierOp (i : Instr) (l : BitVec 5) (off : BitVec 8) (kind : PerformKind) (op : Fired → MemOp) : State → State :=
  memShell i false fun x => startAccess x l.toNat kind true (op x) (offAddr 16 off.toInt x.l)

/-- The register of the PUT whose left slot a target names (R327). [DEDUCED: log 52] -/
def Inst.putOf (i : Inst) : Tgt → Option (Nat × Nat)
  | .to .left n => match i.nodes[n.toNat]? with
    | some x => match x.instr with
      | some (.put _ r) => some (n.toNat, r.toNat)
      | _ => none
    | none => none
  | _ => none

/-- An AMADD or a COLL resolves its PUT as carrying a pending reply (R327, R361): the PUT's left slot is
used, and another PUT of the register collides; while an earlier reply to the register is pending it waits
(R78). `then_` goes on with the register of the reply. [DEDUCED: log 52] -/
def pendPut (o : Fired) (t : Tgt) (then_ : Option Nat → State → State) (s : State) : State :=
  match (s.slot o.slot).inst with
  | none => s
  | some i =>
    match i.putOf t with
    | none => then_ none s
    | some (n, reg) =>
      let x := i.nodes.getD n default
      if x.left.isSome then raise o.slot (collisionAt n 1) s
      else
        let used : Inst := i.modNode n fun y => { y with left := some (.data 0#64 false) }
        if x.st = .resolved then then_ none (s.modSlot o.slot fun sl => { sl with inst := some used })
        else if i.hasReg reg then raise o.slot (collisionAt n 1) s
        else if reg != 0 && (tabGet i.regs0 reg {}).pending then s
        else
          let done := used.modNode n fun y => { y with st := .fired }
          then_ (some reg) (s.modSlot o.slot fun sl => { sl with inst := some { done with pends := done.pends ++ [reg] } })

/-- The width in bytes and the address of a global name with an offset (R354); the module is unchanged.
[DEDUCED: log 39] -/
def remoteAddr (n : Nat) (off : Int) (name : Word) : Int := (name.toNat % 2 ^ 48 : Nat) + off * n

/-- A remote operation by global name (R354): the requester's checks, then a relaxed access. -/
def startRemote (o : Fired) (l : Nat) (kind : PerformKind) (op : MemOp) (n : Nat) (off : Int) (name : Word) (s : State) : State :=
  let k := o.slot
  let a := remoteAddr n off name
  let bad (cause reason : Nat) : State :=
    raise k { cause := cause, addr := name.toNat, info := addrInfo reason op.use.writes false 0 none } s
  if name.toNat / 2 ^ 61 ≠ 0 ∨ a < 0 ∨ a ≥ 2 ^ 48 then bad causeProtection 6
  else if a.toNat % n ≠ 0 then bad causeMisaligned 0xC
  else
    let num := match (s.slot k).inst with | some i => i.num | none => 0
    let m := name.toNat / 2 ^ 48
    let acc : Acc := { id := s.nextId, inst := num, lsid := l, node := o.node, kind := kind, ordered := false, op := op
                       va := m * 2 ^ 48 + a.toNat, pa := a.toNat, remote := some m, asid := (s.core (slotCore k)).xlatAsid.toNat
                       blk := (s.slot k).blk }
    enterAcc k acc (resolveLsid k l (setNode o (if kind = .commitTime then .fired else .waiting) { s with nextId := s.nextId + 1 }))

/-- The instance holds, or has asked for, a word by RAT under a global name (R355). [DEDUCED: log 44] -/
def heldByRat (s : State) (k m a : Nat) : Bool :=
  (s.slot k).accs.any fun b => !b.committed && b.remote == some m && b.pa / 8 == a / 8 && match b.op with
    | .rsv _ => true
    | _ => false

/-- REL and RELN: of a local word, or of a word held by RAT when the left operand is its global name
(R325, R355). [DEDUCED: log 44] -/
def releaseOp (i : Instr) (l : BitVec 5) (w : Width) (n : BitVec 6) (op : Fired → MemOp) : State → State :=
  memShell i false fun x s =>
    let m := x.l.toNat / 2 ^ 48
    let a := (remoteAddr (atomicBytes w) n.toInt x.l).toNat
    let remote := decide (m < 2 ^ 13) && heldByRat s x.slot m a
    if remote then startRemote x l.toNat .commitTime (op x) (atomicBytes w) n.toInt x.l s
    else if 0 < m ∧ m < 2 ^ 13 then raise x.slot (illegalAt x.node) s
    else startAccess x l.toNat .commitTime true (op x) (offAddr (atomicBytes w) n.toInt x.l) s

/-- FENCE fires and waits; `settle` resolves it when its wait is over (R75). -/
def fenceOp (i : Instr) (sc : Scope) : State → State :=
  fire i fun o s =>
    match (s.slot o.slot).inst with
    | none => s
    | some j =>
      if fenceWaits s o.slot (s.slot o.slot) j.num (((formOf i).lsid.getD 0#5).toNat) sc then setNode o .waiting s
      else resolveLsid o.slot (((formOf i).lsid.getD 0#5).toNat) (setNode o .fired s)

/-- The level entry of a launch's record (R185, R186). -/
def Launch.level (l : Launch) (n : Nat) : Nat := (l.record.getD (8 + n) 0#64).toNat
/-- NLEVM1 (R185). -/
def Launch.nlevm1 (l : Launch) : Nat := fld (l.record.getD 0 0#64).toNat 0 3
/-- DOMAIN (R186). -/
def levelDomain (e : Nat) : Nat := fld e 29 3
/-- COUNT. -/
def levelCount (e : Nat) : Nat := fld e 32 32
/-- PHASE. -/
def levelPhase (e : Nat) : Bool := bitOf e 22

/-- The phase-tree context of a slot at a level, where the thread is a member (R120). -/
def State.phaseOf (s : State) (k level : Nat) : Option (Nat × PhaseCtx) :=
  let la := (s.slot k).launch
  if la = 0 then none
  else s.phases.find? fun p => p.2.launch == partKey la (s.launch la).origin && p.2.level == level && p.2.members.contains k

/-- PHASE fires: the level must be phase-capable and the thread a member of it, and a broken context raises
BARRIER BROKEN (R121, R122). The arrival leaves at commit. -/
def phaseOp (i : Instr) (l : BitVec 5) (v : Nat) : State → State :=
  fire i fun o s =>
    match s.phaseOf o.slot v with
    | none => raise o.slot (illegalAt o.node) s
    | some (_, c) =>
      if c.broken then raise o.slot { cause := causeBarrier, addr := 0, info := v } s
      else
        let num := match (s.slot o.slot).inst with | some j => j.num | none => 0
        let a : Acc := { id := s.nextId, inst := num, lsid := l.toNat, node := o.node, kind := .commitTime, ordered := true
                         op := .phase v, va := 0, pa := 2 ^ 62, blk := (s.slot o.slot).blk }
        enterAcc o.slot a (resolveLsid o.slot l.toNat (setNode o .fired { s with nextId := s.nextId + 1 }))

/-- LD8 (R321). -/
def execLd8 (p : Pred) (t : Tgt) (l : BitVec 5) (rlx : Bool) (o : BitVec 8) (s : State) : Result :=
  .next (loadOp (.ld8 p t l rlx o) l rlx o 1 true s)

/-- LD8U (R321). -/
def execLd8u (p : Pred) (t : Tgt) (l : BitVec 5) (rlx : Bool) (o : BitVec 8) (s : State) : Result :=
  .next (loadOp (.ld8u p t l rlx o) l rlx o 1 false s)

/-- LD16 (R321). -/
def execLd16 (p : Pred) (t : Tgt) (l : BitVec 5) (rlx : Bool) (o : BitVec 8) (s : State) : Result :=
  .next (loadOp (.ld16 p t l rlx o) l rlx o 2 true s)

/-- LD16U (R321). -/
def execLd16u (p : Pred) (t : Tgt) (l : BitVec 5) (rlx : Bool) (o : BitVec 8) (s : State) : Result :=
  .next (loadOp (.ld16u p t l rlx o) l rlx o 2 false s)

/-- LD32 (R321). -/
def execLd32 (p : Pred) (t : Tgt) (l : BitVec 5) (rlx : Bool) (o : BitVec 8) (s : State) : Result :=
  .next (loadOp (.ld32 p t l rlx o) l rlx o 4 true s)

/-- LD32U (R321). -/
def execLd32u (p : Pred) (t : Tgt) (l : BitVec 5) (rlx : Bool) (o : BitVec 8) (s : State) : Result :=
  .next (loadOp (.ld32u p t l rlx o) l rlx o 4 false s)

/-- LD64 (R321). -/
def execLd64 (p : Pred) (t : Tgt) (l : BitVec 5) (rlx : Bool) (o : BitVec 8) (s : State) : Result :=
  .next (loadOp (.ld64 p t l rlx o) l rlx o 8 false s)

/-- LD128 (R321, R322). -/
def execLd128 (p : Pred) (t : Tgt) (l : BitVec 5) (rlx : Bool) (o : BitVec 8) (s : State) : Result :=
  .next (loadOp (.ld128 p t l rlx o) l rlx o 16 false s)

/-- ST8 (R321). -/
def execSt8 (p : Pred) (l : BitVec 5) (rlx : Bool) (o : BitVec 8) (s : State) : Result :=
  .next (storeOp (.st8 p l rlx o) l rlx o 1 s)

/-- ST16 (R321). -/
def execSt16 (p : Pred) (l : BitVec 5) (rlx : Bool) (o : BitVec 8) (s : State) : Result :=
  .next (storeOp (.st16 p l rlx o) l rlx o 2 s)

/-- ST32 (R321). -/
def execSt32 (p : Pred) (l : BitVec 5) (rlx : Bool) (o : BitVec 8) (s : State) : Result :=
  .next (storeOp (.st32 p l rlx o) l rlx o 4 s)

/-- ST64 (R321). -/
def execSt64 (p : Pred) (l : BitVec 5) (rlx : Bool) (o : BitVec 8) (s : State) : Result :=
  .next (storeOp (.st64 p l rlx o) l rlx o 8 s)

/-- ST128: right to the low half, third to the high half (R321). -/
def execSt128 (l : BitVec 5) (rlx : Bool) (o : BitVec 8) (s : State) : Result :=
  .next (storeOp (.st128 l rlx o) l rlx o 16 s)

/-- LDSYNC (R323). -/
def execLdsync (p : Pred) (t : Tgt) (l : BitVec 5) (o : BitVec 8) (s : State) : Result :=
  .next (wordOp (.ldsync p t l o) l o false .holding (fun _ => .ldsync) s)

/-- STSYNC (R323). -/
def execStsync (p : Pred) (l : BitVec 5) (o : BitVec 8) (s : State) : Result :=
  .next (wordOp (.stsync p l o) l o true .holding (fun x => .stsync x.r x.rp) s)

/-- LDFF (R323). -/
def execLdff (p : Pred) (t : Tgt) (l : BitVec 5) (o : BitVec 8) (s : State) : Result :=
  .next (wordOp (.ldff p t l o) l o false .inBlock (fun _ => .ldff) s)

/-- STFF (R323). -/
def execStff (p : Pred) (l : BitVec 5) (o : BitVec 8) (s : State) : Result :=
  .next (wordOp (.stff p l o) l o true .commitTime (fun x => .stff x.r x.rp) s)

/-- SETE (R323). -/
def execSete (p : Pred) (l : BitVec 5) (o : BitVec 8) (s : State) : Result :=
  .next (wordOp (.sete p l o) l o false .commitTime (fun _ => .sete) s)

/-- FESTAT (R110). -/
def execFestat (p : Pred) (t : Tgt) (l : BitVec 5) (o : BitVec 8) (s : State) : Result :=
  .next (wordOp (.festat p t l o) l o false .inBlock (fun _ => .festat) s)

/-- FENCE (R75). -/
def execFence (p : Pred) (l : BitVec 5) (sc : Scope) (s : State) : Result :=
  .next (fenceOp (.fence p l sc) sc s)

/-- AMADD (R104, R325, R327). -/
def execAmadd (p : Pred) (t : Tgt) (l : BitVec 5) (rlx : Bool) (w : Width) (n : BitVec 6) (s : State) : Result :=
  .next (memShell (.amadd p t l rlx w n) false (fun x => pendPut x t fun reg => startAccess x l.toNat .commitTime (!rlx) (.amadd w x.r reg) (offAddr (atomicBytes w) n.toInt x.l)) s)

/-- RSV (R325). -/
def execRsv (p : Pred) (t : Tgt) (l : BitVec 5) (w : Width) (n : BitVec 6) (s : State) : Result :=
  .next (atomicOp (.rsv p t l w n) l w n .holding (fun _ => .rsv w) s)

/-- REL (R325, R355). -/
def execRel (p : Pred) (l : BitVec 5) (w : Width) (n : BitVec 6) (s : State) : Result :=
  .next (releaseOp (.rel p l w n) l w n (fun x => .rel w x.r) s)

/-- RELN (R325, R355). -/
def execReln (p : Pred) (l : BitVec 5) (w : Width) (n : BitVec 6) (s : State) : Result :=
  .next (releaseOp (.reln p l w n) l w n (fun _ => .reln w) s)

/-- CAS (R103). -/
def execCas (t : Tgt) (l : BitVec 5) (w : Width) (n : BitVec 6) (s : State) : Result :=
  .next (atomicOp (.cas t l w n) l w n .holding (fun x => .cas w x.r x.t) s)

/-- SWAP (R103). -/
def execSwap (p : Pred) (t : Tgt) (l : BitVec 5) (w : Width) (n : BitVec 6) (s : State) : Result :=
  .next (atomicOp (.swap p t l w n) l w n .holding (fun x => .swap w x.r) s)

/-- AMIN (R103). -/
def execAmin (p : Pred) (t : Tgt) (l : BitVec 5) (w : Width) (unsigned : Bool) (n : BitVec 6) (s : State) : Result :=
  .next (atomicOp (.amin p t l w unsigned n) l w n .holding (fun x => .amin w unsigned x.r) s)

/-- AMAX (R103). -/
def execAmax (p : Pred) (t : Tgt) (l : BitVec 5) (w : Width) (unsigned : Bool) (n : BitVec 6) (s : State) : Result :=
  .next (atomicOp (.amax p t l w unsigned n) l w n .holding (fun x => .amax w unsigned x.r) s)

/-- MWAIT (R330). -/
def execMwait (p : Pred) (t : Tgt) (l : BitVec 5) (o : BitVec 8) (s : State) : Result :=
  .next (wordOp (.mwait p t l o) l o false .inBlock (fun x => .mwait x.r) s)

/-- BARJ (R113, R331). -/
def execBarj (p : Pred) (l : BitVec 5) (o : BitVec 8) (s : State) : Result :=
  .next (barrierOp (.barj p l o) l o .commitTime (fun _ => .barj) s)

/-- BARA (R113, R331). -/
def execBara (p : Pred) (l : BitVec 5) (o : BitVec 8) (s : State) : Result :=
  .next (barrierOp (.bara p l o) l o .commitTime (fun _ => .bara) s)

/-- BARW (R115). -/
def execBarw (p : Pred) (t : Tgt) (l : BitVec 5) (o : BitVec 8) (s : State) : Result :=
  .next (barrierOp (.barw p t l o) l o .inBlock (fun x => .barw (x.r.toNat % 65536)) s)

/-- BARX (R335). -/
def execBarx (p : Pred) (l : BitVec 5) (o : BitVec 8) (s : State) : Result :=
  .next (barrierOp (.barx p l o) l o .commitTime (fun _ => .barx) s)

/-- PHASE (R121, R335). -/
def execPhase (p : Pred) (l : BitVec 5) (v : BitVec 3) (s : State) : Result :=
  .next (phaseOp (.phase p l v) l v.toNat s)

/-- RLD (R354). -/
def execRld (p : Pred) (t : Tgt) (l : BitVec 5) (rlx : Bool) (o : BitVec 8) (s : State) : Result :=
  .next (memShell (.rld p t l rlx o) false (fun x => startRemote x l.toNat .inBlock (.load 8 false) 8 o.toInt x.l) s)

/-- RST (R354). -/
def execRst (p : Pred) (l : BitVec 5) (o : BitVec 8) (s : State) : Result :=
  .next (memShell (.rst p l o) true (fun x => startRemote x l.toNat .commitTime (.store 8 x.r 0#64 x.rp) 8 o.toInt x.l) s)

/-- RAT (R355). -/
def execRat (p : Pred) (t : Tgt) (l : BitVec 5) (w : Width) (n : BitVec 6) (s : State) : Result :=
  .next (memShell (.rat p t l w n) false (fun x => startRemote x l.toNat .holding (.rsv w) (atomicBytes w) n.toInt x.l) s)

/-- RADD (R354). -/
def execRadd (p : Pred) (l : BitVec 5) (w : Width) (n : BitVec 6) (s : State) : Result :=
  .next (memShell (.radd p l w n) false (fun x => startRemote x l.toNat .commitTime (.amadd w x.r none) (atomicBytes w) n.toInt x.l) s)

end Sys2Proof.Machine
end

