-- ==== Sys2Proof/Machine/Control.lean ====
section
/-! DEFINITION. Control registers (R193, R194): what MFC reads, what MTC checks and writes at commit
(R379, R380), and the tile ownership that TCFG follows (R42, R185, R239). -/

namespace Sys2Proof.Machine

/-! ## Ownership of matrix units (R42, R185) -/

/-- Kinds of unit in TRAP.INFO of UNOWNED TILE (R391). -/
inductive UnitKind where
  | tile | acc | sreg | tcfg
  deriving DecidableEq, Repr, Inhabited

/-- The code of a kind. -/
def UnitKind.code : UnitKind → Nat
  | .tile => 1
  | .acc => 2
  | .sreg => 3
  | .tcfg => 4

/-- UNOWNED TILE (R391). -/
def unownedFault (u : UnitKind) (n : Nat) : Trap := { cause := causeUnowned, addr := 0, info := u.code * 16 + n }

/-- A unit exists in the partition (R40, R42). -/
def unitExists (w : Nat) (u : UnitKind) (n : Nat) : Bool :=
  match u with
  | .tile | .tcfg => decide (n < partTile w / 2)
  | .acc => decide (n < partAcc w / 4)
  | .sreg => decide (n < 4) && partAcc w % 2 == 1

/-- The owner nibble of a unit (R185). -/
def unitOwner (co : Core) (u : UnitKind) (n : Nat) : Nat :=
  match u with
  | .tile | .tcfg => fld co.own.toNat (4 * n) 4
  | .acc => fld co.own.toNat (32 + 4 * n) 4
  | .sreg => fld co.sown (4 * n) 4

/-- A slot owns a unit: it is named, or the unit is shared among program slots (R42, R185). -/
def ownsUnit (s : State) (k : Nat) (u : UnitKind) (n : Nat) : Bool :=
  let c := slotCore k
  let o := unitOwner (s.core c) u n
  unitExists (s.partition c) u n && !systemSlot k && (o == slotNum k || o == 14)

/-! ## Levels of service (R417) -/

/-- Whether a launch has a function at the expert level: 0 Parlour, 1 Copies, 2 Power, 3 Fabric, 4 Matrix (R417).
[DEDUCED: log 123] -/
def expertFor (s : State) (m addr function : Nat) : Bool := (s.module m).expert.contains (addr, function)

/-! ## Reading -/

/-- The reset value of TCFG (R239). -/
def tcfgReset : Word := 0x17FF#64

/-- TCFGk of a core. -/
def Core.tcfgOf (c : Core) (k : Nat) : Word := tabGet c.tcfg k tcfgReset

/-- STATUS (R194). -/
def statusWord (k : Nat) (sl : Slot) (join : Nat) : Word :=
  BitVec.ofNat 64 (join % 16 * 16 + (match sl.task with
    | some t => bitField t.colour * 8 + bitField t.element.isSome * 4 + 2
    | none => 0) + bitField (systemSlot k))

/-- The code of a zone-slot state (R148). -/
def ZoneSt.code : ZoneSt → Nat
  | .free => 0
  | .reserved => 1
  | .filling => 2
  | .landed => 3
  | .poisoned => 4


/-- Fields of a zone descriptor (R145). -/
def zdEn (w : Nat) : Bool := bitOf w 0
/-- BASE. -/
def zdBase (w : Nat) : Nat := fld w 1 5
/-- SIZE. -/
def zdSize (w : Nat) : Nat := fld w 6 6
/-- The number of slots. -/
def zdSlots (w : Nat) : Nat := fld w 12 4 + 1
/-- TMO in microseconds. -/
def zdTmo (w : Nat) : Nat := fld w 16 16
/-- BAREN. -/
def zdBarEn (w : Nat) : Bool := bitOf w 39
/-- The physical address of the arrival barrier (R16, R145). -/
def zdBar (w : Nat) : Nat := 0x10000000000 + fld w 40 24 * 16
/-- The slot length (R146). -/
def zdLen (w : Nat) : Nat := zdSize w * 1024 / zdSlots w / 16 * 16

/-- ZSTAT of a zone: its N slots, and 000 beyond them (R148). -/
def Core.zstat (c : Core) (z : Nat) : Word :=
  BitVec.ofNat 64 ((List.range (zdSlots (tabGet c.zdesc z 0#64).toNat)).map fun i =>
    (tabGet c.zslots (16 * z + i) {}).st.code * 8 ^ i).sum

/-- MB of a mailbox: what it was last filled with, FULL while the request has not been taken (R126). NEXT reads 0 in every
mailbox until the core's first hand-off, as after reset. [DESIGN CHOICE: log 134] -/
def Core.mbWord (c : Core) (m : Nat) : Word :=
  let x := tabGet c.mailboxes m {}
  let next := bitField (decide (c.handed ≠ 0) && c.nextMbx == m) * 4
  match x.req with
  | some r =>
    BitVec.ofNat 64 (r.pba % 2 ^ 48 * 65536 + bitField r.land * 8192 + r.ctx % 8 * 1024 +
      (if r.land then 0 else r.form % 4) * 256 + x.slot % 16 * 16 + bitField r.reuse * 8 + next + bitField x.full)
  | none => BitVec.ofNat 64 (next + bitField x.full)

/-- PWR.GRANT (R414). -/
def grantWord (s : State) (c : Nat) : Word :=
  let co := s.core c
  BitVec.ofNat 64 ((s.die (coreDie c)).periods % 65536 * 2 ^ 32 +
    bitField (s.die (coreDie c)).throttle.isSome * 2 ^ 24 + co.pwrReq % 256 * 65536 + co.pwrCap % 256 * 256 + co.pwrGrant % 256)

/-- The capability registers 0x40 to 0x47 (R55, R169, R289). -/
def capWord (remote : Bool) (n : Nat) : Word :=
  match n with
  | 0 => 8#64
  | 1 => 16#64
  | 2 => 32#64
  | 3 => 64#64
  | 4 => BitVec.ofNat 64 (bitField remote * 2 + 1)
  | 5 => 0x001FFFFE#64
  | 6 => 0x01000001#64
  | _ => 0x0FFF#64

/-- A control register as a slot reads it; none for an index that is not listed (R193). -/
def readControl (s : State) (k i : Nat) : Option Word :=
  let c := slotCore k
  let sl := s.slot k
  let co := s.core c
  let ones : Word := BitVec.allOnes 64
  match i with
  | 0x00 => some (statusWord k sl (match sl.inst with | some x => x.join0 | none => sl.join))
  | 0x01 => some (BitVec.ofNat 64 (slotNum k))
  | 0x02 => some (BitVec.ofNat 64 (coreModule c * 8192 + coreNum c))
  | 0x03 => some (BitVec.ofNat 64 (s.now - (s.module (coreModule c)).bootAt))
  | 0x04 => some sl.fpc
  | 0x05 => some sl.feRetry
  | 0x06 => some (match sl.task with
    | some t => (match t.element with | some e => BitVec.ofNat 64 e | none => ones)
    | none => ones)
  | 0x07 => some (match sl.task with | some t => BitVec.ofNat 64 t.handle | none => ones)
  | 0x08 => some (sl.deadline &&& 0xFFFFFFFFFFFFFFFC#64)
  | 0x09 => some (BitVec.ofNat 64 (s.partition c))
  | 0x0A => some sl.cellInv
  | 0x18 => some sl.sepEps
  | 0x19 => some sl.sepBeta
  | 0x2C => some co.tlerr
  | 0x30 => some sl.trapCause
  | 0x31 => some sl.trapAddr
  | 0x32 => some sl.trapBlock
  | 0x33 => some sl.trapInfo
  | 0x34 => some sl.trapVec
  | 0x60 => some (grantWord s c)
  | 0x80 => some co.xlatBase
  | 0x81 => some co.xlatAsid
  | 0x82 => some co.holdLimit
  | 0x8C => some co.fabTmo
  | i =>
    if 0x0C ≤ i ∧ i ≤ 0x0F then some (co.zstat (i - 0x0C))
    else if 0x10 ≤ i ∧ i ≤ 0x17 then some (co.tcfgOf (i - 0x10))
    else if 0x20 ≤ i ∧ i ≤ 0x27 then some (tabGet co.timeline (i - 0x20) 0 |> BitVec.ofNat 64)
    else if 0x28 ≤ i ∧ i ≤ 0x2B then some (co.mbWord (i - 0x28))
    else if 0x40 ≤ i ∧ i ≤ 0x47 then some (capWord (s.module (coreModule c)).addRemote (i - 0x40))
    else if 0x50 ≤ i ∧ i ≤ 0x57 then
      let w := tabGet co.watches ((i - 0x50) / 2) {}
      some (if i % 2 = 0 then w.addr else w.mask)
    else if 0x88 ≤ i ∧ i ≤ 0x8B then some (tabGet co.zdesc (i - 0x88) 0#64)
    else none

/-! ## Writing -/

/-- The writable bits of a register that MTC may write (R380). -/
def controlMask (i : Nat) : Option Nat :=
  match i with
  | 0x04 => some 0xFB
  | 0x05 => some 0xFFFF
  | 0x08 => some 0xFFFFFFFFFFFFFFFC
  | 0x0A | 0x18 | 0x19 | 0x82 => some 0xFFFFFFFF
  | 0x2C => some 0xFF
  | 0x80 => some 0xFFFFFFFFF001
  | 0x81 | 0x8C => some 0xFFFF
  | i =>
    if 0x10 ≤ i ∧ i ≤ 0x17 then some 0xFFFFFF
    else if 0x50 ≤ i ∧ i ≤ 0x57 then some (if i % 2 = 0 then 0xC000FFFFFFFFFFF8 else 0xFFFFFFFFFFF8)
    else if 0x88 ≤ i ∧ i ≤ 0x8B then some 0xFFFFFF80FFFFFFFF
    else none

/-- A value of ZDESCz that R145 refuses, beside the other descriptors and under a partition. -/
def zdescBad (others : Tab Word) (part z w : Nat) : Bool :=
  zdEn w && (zdSlots w == 1 || zdSize w == 0 || decide (zdSize w > 32) || decide (partZone part < zdBase w + zdSize w) ||
    others.any fun p => p.1 != z && zdEn p.2.toNat &&
      decide (zdBase w < zdBase p.2.toNat + zdSize p.2.toNat) && decide (zdBase p.2.toNat < zdBase w + zdSize w))

/-- What arming a watchpoint answers: the system address, or the trap it raises (R400). [DEDUCED: log 111] -/
def armWatch (s : State) (k node : Nat) (w mask : Nat) : Except Trap Nat :=
  let c := slotCore k
  let va := fld w 3 45 * 8
  let free := (2 ^ 45 - 1 - fld mask 3 45) * 8
  let lo := Nat.land va (2 ^ 48 - 1 - free)
  let hi := Nat.lor va free
  match regionOf va with
  | some (.own off) => if hi < 0x18000 then .ok (poolBase c + off) else .error (illegalAt node)
  | some (.remote t off) =>
    match regionOf lo, regionOf hi with
    | some (.remote a _), some (.remote b _) =>
      if a = t ∧ b = t then .ok (poolBase (coreModule c * 8192 + t) + off) else .error (illegalAt node)
    | _, _ => .error (illegalAt node)
  | some .global =>
    let want : Want := { core := c, sys := systemSlot k, va := va, size := 8, use := .load }
    match checkWalk s want with
    | .at pa =>
      match walkNow s want with
      | .leaf level _ => if free < 2 ^ pageBits level then .ok pa else .error (illegalAt node)
      | .fault _ _ _ => .error (illegalAt node)
    | .fault t => .error t
    | .miss => .error (illegalAt node)
  | _ => .error (illegalAt node)

/-- The checks that MTC makes when it fires, after the level (R239, R380, R400). [DEDUCED: log 111] -/
def controlCheck (s : State) (k node i : Nat) (v : Word) : Except Trap CtlWrite :=
  let c := slotCore k
  match controlMask i with
  | none => .error (illegalAt node)
  | some m =>
    if Nat.land v.toNat (2 ^ 64 - 1 - m) ≠ 0 then .error (illegalAt node)
    else if 0x10 ≤ i ∧ i ≤ 0x17 then
      if ownsUnit s k .tcfg (i - 0x10) then .ok { index := i, val := v } else .error (unownedFault .tcfg (i - 0x10))
    else if 0x88 ≤ i ∧ i ≤ 0x8B then
      if zdescBad (s.core c).zdesc (s.partition c) (i - 0x88) v.toNat then .error (illegalAt node)
      else .ok { index := i, val := v }
    else if 0x50 ≤ i ∧ i ≤ 0x57 ∧ i % 2 = 0 ∧ bitOf v.toNat 63 then
      match armWatch s k node v.toNat (tabGet (s.core c).watches ((i - 0x50) / 2) {}).mask.toNat with
      | .ok pa => .ok { index := i, val := v, pa := pa }
      | .error t => .error t
    else .ok { index := i, val := v }

/-- A control-register write takes effect (R21, R102, R140, R145, R218, R227, R239, R251, R308, R380,
R400). [DEDUCED: log 111] -/
def applyControl (k : Nat) (w : CtlWrite) (s : State) : State :=
  let c := slotCore k
  match w.index with
  | 0x04 => s.modSlot k fun x => { x with fpc := w.val }
  | 0x05 => s.modSlot k fun x => { x with feRetry := w.val }
  | 0x08 => s.modSlot k fun x =>
      { x with deadline := if w.keep then (x.deadline &&& 0x0000FFFFFFFFFFFF#64) ||| w.val else w.val }
  | 0x0A => s.modSlot k fun x => { x with cellInv := w.val }
  | 0x18 => s.modSlot k fun x => { x with sepEps := w.val }
  | 0x19 => s.modSlot k fun x => { x with sepBeta := w.val }
  | 0x2C => s.modCore c fun x => { x with tlerr := x.tlerr &&& ~~~w.val }
  | 0x80 => s.modCore c fun x => { x with xlatBase := w.val }
  | 0x81 => s.modCore c fun x => { x with xlatAsid := w.val }
  | 0x82 => s.modCore c fun x => { x with holdLimit := w.val }
  | 0x8C => s.modCore c fun x => { x with fabTmo := w.val }
  | i =>
    if 0x10 ≤ i ∧ i ≤ 0x17 then s.modCore c fun x => { x with tcfg := tabPut x.tcfg (i - 0x10) w.val }
    else if 0x88 ≤ i ∧ i ≤ 0x8B then s.modCore c fun x => { x with zdesc := tabPut x.zdesc (i - 0x88) w.val }
    else if 0x50 ≤ i ∧ i ≤ 0x57 then
      s.modCore c fun x => { x with
        watches := tabMod x.watches ((i - 0x50) / 2) {} fun y =>
          if i % 2 = 0 then { y with addr := w.val, pa := w.pa, slot := slotNum k } else { y with mask := w.val } }
    else s

/-- Queue a control-register write in the instance; a second one to the register collides (R380). [DEDUCED: log 15] -/
def queueControl (o : Fired) (w : CtlWrite) (s : State) : State :=
  match (s.slot o.slot).inst with
  | none => s
  | some i =>
    if i.ctl.any fun x => x.index == w.index then raise o.slot (collisionAt o.node 1) s
    else s.modInst o.slot fun x => { x with ctl := x.ctl ++ [w] }

/-- A program-level access to a system-level index (R193). [DEDUCED: log 111] -/
def controlLevel (k i : Nat) : Bool := !systemSlot k && decide (0x80 ≤ i)

/-- MFC (R379). -/
def execMfc (p : Pred) (t : Tgt) (u : Tgt) (i : BitVec 8) (s : State) : Result :=
  .next (checkedShell (.mfc p t u i) (fun o s =>
    if controlLevel o.slot i.toNat then raise o.slot levelFault s
    else match readControl s o.slot i.toNat with
      | some v => finish (.mfc p t u i) o (.data v false) s
      | none => raise o.slot (illegalAt o.node) s) s)

/-- MTC (R380). -/
def execMtc (p : Pred) (i : BitVec 8) (s : State) : Result :=
  .next (checkedShell (.mtc p i) (fun o s =>
    if controlLevel o.slot i.toNat then raise o.slot levelFault s
    else match controlCheck s o.slot o.node i.toNat o.l with
      | .ok w => setNode o .fired (queueControl o w s)
      | .error t => raise o.slot t s) s)

/-- DEADL: DEADLINE is written at commit, as an MTC would (R352). -/
def execDeadl (p : Pred) (t : Tgt) (u : Tgt) (keep : Bool) (s : State) : Result :=
  .next (checkedShell (.deadl p t u keep) (fun o s =>
    if o.l.toNat / 65536 ≠ 0 ∨ (¬keep ∧ (o.r.toNat % 4 ≠ 0 ∨ o.r.toNat / 2 ^ 48 ≠ 0)) then raise o.slot (illegalAt o.node) s
    else
      let v := BitVec.ofNat 64 (o.l.toNat * 2 ^ 48 + (if keep then 0 else o.r.toNat))
      finish (.deadl p t u keep) o (.data 0#64 false) (queueControl o { index := 8, val := v, keep := keep } s)) s)

/-! ## The registers of control space as they read (R15, R160, R195, R395, R402, R404, R413) -/

/-- LQ.STAT (R195). -/
def lqStat (q : LaunchQueue) : Word := BitVec.ofNat 64 (bitField q.ovf * 2 ^ 31 + q.records.length)

/-- TQ.STAT (R395). -/
def tqStat (d : Die) : Word :=
  BitVec.ofNat 64 (bitField d.mchk * 2 ^ 63 + bitField d.latched * 2 ^ 62 + d.lost % 65536 * 65536 + d.dropped % 65536)

/-- A launch-queue register at an offset. -/
def readLaunchQueue (m : Module) (off : Nat) : Word :=
  let q := tabGet m.queues (off / 32) {}
  match off % 32 / 8 with
  | 1 => lqStat q
  | 2 => q.ring
  | 3 => BitVec.ofNat 64 (q.cpos % 2 ^ 32)
  | _ => 0#64

/-- A trap register of a die at an offset. -/
def readTrapRegister (d : Die) (off : Nat) : Word :=
  match off / 8 with
  | 0 => d.tqBase
  | 1 => BitVec.ofNat 64 (d.tqHead % 2 ^ 32)
  | 2 => BitVec.ofNat 64 (d.tqTail % 2 ^ 32)
  | 3 => d.tqHandler
  | 4 => tqStat d
  | 16 => d.ctxBase
  | n => if 8 ≤ n ∧ n < 12 then d.latch.getD (n - 8) 0#64 else 0#64

/-- An 8-byte register of a module's control space; what no register is reads 0. RESYNC.CTL is for the host
and the fabric manager alone (R418). [DEDUCED: log 117] -/
def controlRead (s : State) (m va : Nat) : Word :=
  let off := va - 0xF0000000000
  let x := s.module m
  if off < 0x800 then readLaunchQueue x off
  else if 0x100000 ≤ off ∧ off < 0x140000 then tabGet x.paths ((off - 0x100000) / 8) 0#64
  else if 0x200000 ≤ off ∧ off < 0x200400 then readTrapRegister (s.die (m * 4 + (off - 0x200000) / 256)) (off % 256)
  else if off = 0x300000 then x.watchdog
  else if 0x500000 ≤ off ∧ off < 0x500020 then (s.die (m * 4 + (off - 0x500000) / 8)).dcap
  else if 0x501000 ≤ off ∧ off < 0x502000 then (s.cluster (m * 512 + (off - 0x501000) / 8)).ccap
  else 0#64

end Sys2Proof.Machine
end

