-- ==== Sys2Proof/Machine/Staging.lean ====
section
/-! DEFINITION. The storage of the matrix unit: where tiles, accumulators, s-registers and scale memory lie
(R42, R51), the values staged by an instance (R243), and their poison (R47, R60). -/

namespace Sys2Proof.Machine

/-- The base of a tile of a core's pool (R42). [DEDUCED: log 32] -/
def tileAddr (s : State) (core n : Nat) : Nat := poolBase core + tileBase (s.partition core) + 2048 * n
/-- The base of an accumulator (R42). [DEDUCED: log 32] -/
def accAddr (s : State) (core n : Nat) : Nat := poolBase core + accBase (s.partition core) + 4096 * n
/-- The base of an s-register, after the accumulators (R42). [DEDUCED: log 32] -/
def sregAddr (s : State) (core n : Nat) : Nat :=
  let w := s.partition core
  poolBase core + accBase w + 4096 * (partAcc w / 4) + 256 * n

/-- The unit in which a place of the matrix unit carries poison: 8-byte words of tiles and scale memory,
4-byte halves of ACC granules (R47, R51). -/
def qGranule (s : State) (core a : Nat) : Nat :=
  if scaleBase core ≤ a ∨ poolBase core + tileBase (s.partition core) ≤ a then 8 else 4

/-- A byte as the instance sees it: staged, or from the pool or scale memory (R243). -/
def qByte (s : State) (i : Inst) (a : Nat) : Byte :=
  match tabFind i.staged.bytes a with
  | some (b, _) => b
  | none => s.byte a

/-- Bytes as the instance sees them. -/
def qBytes (s : State) (i : Inst) (a n : Nat) : List Byte := (List.range n).map fun j => qByte s i (a + j)

/-- Whether the granule that holds an address is poisoned, as the instance sees it. -/
def qPoison (s : State) (i : Inst) (g a : Nat) : Bool :=
  let b := a / g * g
  let st := (List.range g).map fun j => tabFind i.staged.bytes (b + j)
  st.any (fun x => match x with | some (_, p) => p | none => false) ||
    (st.any (fun x => x.isNone) && (if g = 8 then s.wordPoisoned b else s.unitPoisoned b))

/-- Stage a run of bytes, each with poison or without. A granule that a poisoned byte enters is poisoned, and
so is a poisoned granule that the run covers only in part (R59, R60). [DEDUCED: log 93] -/
def qStage (s : State) (g a : Nat) (bs : List (Byte × Bool)) (i : Inst) : Inst :=
  let flag (j : Nat) : Bool :=
    let b := (a + j) / g * g
    let inside := decide (a ≤ b) && decide (b + g ≤ a + bs.length)
    ((bs.drop (b - a)).take (b + g - max a b)).any (fun x => x.2) || (!inside && qPoison s i g b)
  let t := bs.mapIdx fun j x => (a + j, x.1, flag j)
  { i with staged := { i.staged with bytes := t.foldl (fun m x => tabPut m x.1 (x.2.1, x.2.2)) i.staged.bytes } }

/-- The granules that staged bytes touch, each once. -/
def stagedGranules (s : State) (core : Nat) (i : Inst) : List (Nat × Nat) :=
  i.staged.bytes.foldl (fun (l : List (Nat × Nat)) p =>
    let g := qGranule s core p.1
    let x := (p.1 / g * g, g)
    if l.getLast? = some x then l else l ++ [x]) []

/-- Staged writes enter the pool and the scale memory (R183, R243). [DEDUCED: log 93] -/
def commitStaged (core : Nat) (i : Inst) (s : State) : State :=
  let marks := (stagedGranules s core i).map fun x => (x, qPoison s i x.2 x.1)
  let s := i.staged.bytes.foldl (fun s p => s.putBytes p.1 [p.2.1]) s
  marks.foldl (fun s m => if m.1.2 = 8 then s.setWordPoison m.1.1 m.2 else s.setUnitPoison m.1.1 m.2) s

end Sys2Proof.Machine
end

