-- ==== Sys2Proof/Machine/Block.lean ====
section
/-! DEFINITION. The life of a block instance: fetch and validation (R175, R176, R276, R277), commit (R183),
BLOCK STARVED (R182), and the normaliser (R174). -/

namespace Sys2Proof.Machine

/-! ## The block cache (R49, R50) -/

/-- The set of a line. [DEDUCED: log 33] -/
def lineSet (a : Nat) : Nat := a / 64 % 64

/-- The line that a fetch finds or fills, and the cache after it; a line that holds poison is not kept.
[DEDUCED: log 33] -/
def cacheLine (s : State) (cache : List CacheLine) (pa : Nat) : CacheLine × List CacheLine :=
  let a := pa / 64 * 64
  let fresh : CacheLine := { addr := a, bytes := s.bytesAt a 64, used := s.nextId }
  match cache.find? fun l => l.addr == a with
  | some l => ({ l with used := s.nextId }, cache.map fun x => if x.addr = a then { x with used := s.nextId } else x)
  | none =>
    if (List.range 16).any fun i => s.unitPoisoned (a + 4 * i) then (fresh, cache)
    else
      let mine := cache.filter fun l => lineSet l.addr == lineSet a
      let oldest := mine.foldl (fun (m : Option CacheLine) l => match m with
        | some x => if l.used < x.used then some l else some x
        | none => some l) none
      let cache := if mine.length ≥ 4 then (match oldest with | some v => cache.erase v | none => cache) else cache
      (fresh, cache ++ [fresh])

/-- What reading one word of a block answers. -/
inductive FetchEnd where
  | word (w : Nat)
  | fault (t : Trap)
  | miss (va : Nat)
  /-- the word is held, and its read waits (R99) -/
  | held (w : Nat)
  deriving DecidableEq, Repr, Inhabited

/-- Fetch one word of a block (R16, R32, R49, R62, R276). [DEDUCED: log 23] -/
def fetchWord (s : State) (k blk va : Nat) : FetchEnd × State :=
  let c := slotCore k
  match checkAddr s { core := c, sys := systemSlot k, va := va, size := 4, use := .fetch } with
  | .fault t => (.fault t, s)
  | .miss => (.miss va, s)
  | .at pa =>
    let s := useTlb { core := c, sys := systemSlot k, va := va, size := 4, use := .fetch } s
    let poison : Trap := { cause := causePoison, addr := blk, info := dataInfo 8 0 0 false }
    match regionOf va with
    | some (.own _) =>
      if !mayTake s (.fetch k) (pa / 8) then (.held (pa / 8), s)
      else if s.wordPoisoned pa then (.fault poison, s)
      else (.word (s.readN pa 4), s)
    | _ =>
      let hit := (s.core c).blockCache.any fun l => l.addr == pa / 64 * 64
      if !hit && !mayTake s (.fetch k) (pa / 8) then (.held (pa / 8), s)
      else if !hit && s.wordPoisoned pa then (.fault poison, s)
      else
        let (l, cache) := cacheLine s (s.core c).blockCache pa
        (.word (leNat ((l.bytes.drop (pa % 64)).take 4)), { s.modCore c fun x => { x with blockCache := cache } with nextId := s.nextId + 1 })

/-- Fetch `n` words from an address upward; the first that fails decides (R276). -/
def fetchWords (k blk : Nat) : Nat → Nat → List Nat → State → (FetchEnd ⊕ List Nat) × State
  | 0, _, ws, s => (.inr ws, s)
  | n + 1, va, ws, s =>
    match fetchWord s k blk va with
    | (.word w, s) => fetchWords k blk n (va + 4) (ws ++ [w]) s
    | (e, s) => (.inl e, s)

/-! ## Starting an instance -/

/-- An action that the slot's next instance waits for (R190, R191, R357, R382, R383, R387, R389). [DEDUCED: log 17] -/
def Action.blocks : Action → Bool
  | .post _ _ _ _ _ _ | .dec _ | .prio _ _ | .tretry _ | .tdrop _ => false
  | .colour _ _ _ | .mbxw _ _ | .mbxTaken _ | .popped _ _ _ | .push _ _ | .spawn _ _ | .migr _ | .inj _ _ | .rcvTaken _ | .rcvFree _
  | .coll _ _ _ _ _ _ | .eret _ _ | .swaps _ _ | .tlbi _ _ _ _ | .tlbiWait _ | .park _ | .wake _ | .halts _ | .pwrq _ | .csync
  | .trqpop _ _ _ _ | .seal _ _ | .sealed _ => true

/-- A commit-time operation that may still meet poison, end with its phase broken, or go unanswered by another module: the
slot takes that trap before its next instance starts, which waits until the operation has been answered (R59, R122, R167,
R329). [DEDUCED: log 18] -/
def Acc.mayTrapLate (a : Acc) : Bool :=
  a.remote.isSome || match a.op with
  | .store n _ _ _ => a.pa % 8 != 0 || n < 8
  | .amadd _ _ _ | .barj | .bara | .barx | .arm _ | .phase _ => true
  | .load _ _ | .ldsync | .ldff | .festat | .sete | .stsync _ _ | .stff _ _ | .rsv _ | .cas _ _ _ | .swap _ _ | .amin _ _ _
  | .amax _ _ _ | .rel _ _ | .reln _ | .mwait _ | .barw _ | .zfree _ _ | .zrsv _ | .bytes _ _ | .breakBar | .turn => false

/-- A slot stands before a block that may start (R125, R142, R219, R329, R382, R393, R399). [DEDUCED: log 17, 18] -/
def Slot.mayFetch (sl : Slot) : Bool :=
  !(sl.accs.any fun a => a.committed && a.mayTrapLate) &&
  sl.life == .fetch && sl.inst.isNone && sl.halt == .none && sl.pending == [] && sl.record.isNone &&
    !sl.parkAtBoundary && !sl.swapping && !sl.expired && sl.fetchMiss.isNone && sl.copies == [] && !sl.post.any fun p => p.2.blocks

/-- The instance of a validated block (R176, R180, R226, R239, R309). -/
def newInst (s : State) (k blk : Nat) (h : Header) (ws : List Nat) : Inst :=
  let sl := s.slot k
  { num := sl.count + 1, blk := blk, nput := h.nput, nlsid := h.nlsid, drain := h.drain, smask := h.smask
    nodes := ws.map fun w => { word := w }
    regs0 := sl.regs, fpc0 := sl.fpc, cellInv0 := sl.cellInv, tcfg0 := (s.core (slotCore k)).tcfg, join0 := sl.join
    members0 := sl.memberAddrs }

/-- An LSID after all that an instance has: accesses without one stand at 1000 and their instruction's index. -/
def afterAll : Nat := 2000

/-- Start an instance; DRAIN is a FENCE at FAB before its first access (R273). -/
def startInst (k blk : Nat) (h : Header) (ws : List Nat) (s : State) : State :=
  let i := newInst s k blk h ws
  s.modSlot k fun x =>
    { x with inst := some i, life := .run, blk := blk, count := i.num
             fences := if h.drain then x.fences ++ [{ inst := x.count, lsid := afterAll, scope := .fab }] else x.fences }

/-- ILLEGAL at fetch validation (R277, R278). -/
def validationFault (blk : Nat) (e : Reject) (word : Nat) : Trap :=
  { cause := causeIllegal
    addr := if word < 0x20 then blk + 8 + 4 * word else if word = 0xFF then blk + 4 else blk
    info := illegalInfo word e.number }

/-- A fetch did not end in a word. -/
def fetchFailed (k : Nat) (e : FetchEnd) (s : State) : State :=
  match e with
  | .fault t => raise k t s
  | .miss va =>
    let asid := (s.core (slotCore k)).xlatAsid.toNat
    askWalk (slotCore k) va (s.modSlot k fun x => { x with fetchMiss := some va, fetchAsid := asid })
  | .held w => waitTurn (.fetch k) w s
  | .word _ => s

/-- Fetch, snapshot and validate the next block of a slot, and start its instance (R175, R176, R276); the
program slots of a frozen module stay at their boundaries (R405). -/
def fetchBlock (k : Nat) (s : State) : State :=
  let sl := s.slot k
  if !sl.mayFetch || (!systemSlot k && (s.module (slotModule k)).boot == .frozen) then s
  else
    let blk := sl.next
    let s := s.modSlot k fun x => { x with blk := blk }
    match fetchWords k blk 1 blk [] s with
    | (.inl e, s) => fetchFailed k e s
    | (.inr ws0, s) =>
      let w0 := ws0.headD 0
      match fetchWords k blk (headerNI w0 + 1) (blk + 4) [] s with
      | (.inl e, s) => fetchFailed k e s
      | (.inr ws, s) =>
        match validateBlock (s.slotFile k) w0 (ws.headD 0) (ws.drop 1) with
        | .error (e, n) => raise k (validationFault blk e n) (endTurn (.fetch k) s)
        | .ok h => startInst k blk h (ws.drop 1) (endTurn (.fetch k) s)

/-- The event BLOCK_FETCH (R276). -/
def execBlockFetch (slot : Nat) (s : State) : Result := .next (fetchBlock slot s)

/-! ## Commit (R183) -/

/-- An access that the commit of its instance waits for: an in-block access that has fired and not performed, or a hold
asked for and not granted (R69). -/
def Acc.pends (a : Acc) : Bool :=
  match a.st with
  | .walking | .sent | .refused | .unready => true
  | .ready => a.kind != .commitTime
  | .granted | .done => false

/-- Such an access may still perform: no lower LSID keeps it back for good (R67). -/
def Acc.mayPerform (i : Inst) (a : Acc) : Bool := a.pends && (a.st != .ready || lowerResolved i a.lsid)

/-- The instance of a slot commits now (R69, R181, R242, R333). -/
def commitReady (sl : Slot) : Bool :=
  match sl.inst with
  | some i => i.complete && sl.accs.all (fun a => a.committed || !a.pends) && !i.nodes.any fun n => n.form.kind = .matrix && n.st = .waiting
  | none => false

/-- Step 1 of R183: the registers. -/
def commitRegs (i : Inst) (sl : Slot) : Slot :=
  let sl := i.puts.foldl (fun x p => x.setReg p.1 { val := p.2.1, poison := p.2.2 }) sl
  let sl := i.pends.foldl (fun x r => x.setReg r { x.reg r with pending := true }) sl
  match i.exit with
  | some (.call _, _) => sl.setReg 63 { val := BitVec.ofNat 64 (blockAfter i.blk i.nodes.length) }
  | _ => sl

/-- Whether a holding access is released by a REL or RELN of its instance (R325, R355). -/
def releasedBy (accs : List Acc) (a : Acc) : Bool :=
  accs.any fun b => b.inst == a.inst && b.remote == a.remote && b.pa / 8 == a.pa / 8 && match b.op with
    | .rel _ _ | .reln _ => true
    | _ => false

/-- A release whose hold was never taken performs nothing. -/
def unheld (accs : List Acc) (b : Acc) : Bool :=
  match b.op with
  | .rel _ _ | .reln _ =>
    !accs.any fun a => a.inst == b.inst && a.st = .granted && a.remote == b.remote && a.pa / 8 == b.pa / 8
  | _ => false

/-- The width of an atomic. -/
def MemOp.width : MemOp → Width
  | .cas w _ _ | .swap w _ | .amin w _ _ | .amax w _ _ | .rsv w | .amadd w _ _ | .rel w _ | .reln w => w
  | _ => .w64

/-- What becomes of an access of a committing instance: in-block ones are over, a hold becomes its release, of the part of
the word that it names, and commit-time ones may leave (R69, R70, R103, R323, R326). -/
def commitAcc (accs : List Acc) (a : Acc) : List Acc :=
  let out (op : MemOp) : List Acc := [{ a with op := op, kind := .commitTime, committed := true, st := .ready }]
  match a.kind with
  | .inBlock => []
  | .commitTime =>
    let phys := match accs.find? fun b => b.st = .granted && b.remote == a.remote && b.pa / 8 == a.pa / 8 with
      | some b => b.phys
      | none => 0
    if unheld accs a then [] else (out a.op).map fun b => { b with phys := phys }
  | .holding =>
    if a.st != .granted then []
    else match a.op with
      | .ldsync => out .ldsync
      | .stsync v p => out (.stsync v p)
      | .rsv _ => if releasedBy accs a then [] else out (.reln .w64)
      | op => out (.rel op.width (namedPart op.width a.pa (releaseValue op a.pa a.got)))

/-- A FENCE of an instance, if the node is one that has fired (R75). -/
def Node.fence (n : Node) : Option (Nat × Scope) :=
  match n.instr with
  | some (.fence _ l sc) => if n.st = .fired || n.st = .waiting then some (l.toNat, sc) else none
  | _ => none

/-- The copy requests of a committed instance in LSID order, with those that follow a FENCE at ENG on
their context marked (R82, R123). -/
def commitCopies (i : Inst) (engPend : List Nat) : List CopyReq × List Nat :=
  let fences := i.nodes.filterMap fun n => match n.fence with
    | some (l, .eng) => some l
    | _ => none
  (List.range 32).foldl (fun (acc : List CopyReq × List Nat) l =>
    let acc := if fences.contains l then (acc.1, List.range 8) else acc
    match i.copies.find? fun c => c.lsid == l with
    | some c => (acc.1 ++ [{ c with eng := acc.2.contains c.ctx }], acc.2.filter fun x => x != c.ctx)
    | none => acc) ([], engPend)

/-- Step 3 of R183. -/
def commitExit (i : Inst) (sl : Slot) : Slot :=
  match i.exit with
  | some (e, exn) =>
    let sl := { sl with exn := exn }
    match e with
    | .br n | .call n => { sl with next := n, life := .fetch }
    | .done => { sl with life := .ending none }
    | .repost v => { sl with life := .ending (some v) }
    | .trap code addr =>
      { sl with next := blockAfter i.blk i.nodes.length, life := .fetch
                pending := sl.pending ++ [{ cause := causeSoftware, addr := addr.toNat, info := code, origin := 1 }] }
  | none => sl

/-- A pop or a push of a work queue: no deferred action, but made permanent at commit, all of an instance together (R340). -/
def Action.ofQueue : Action → Bool
  | .popped _ _ _ | .push _ _ => true
  | _ => false

/-- What a committed instance does next: its pops and pushes, then its deferred actions in ascending instruction order (R333,
R340). -/
def commitActions (i : Inst) : List (Nat × Action) :=
  (i.actions.filter (fun p => p.2.ofQueue) ++ i.actions.filter fun p => !p.2.ofQueue).map fun p => (i.num, p.2)

/-- Steps 2 and 3 of R183 in the slot. -/
def commitSlot (i : Inst) (sl : Slot) : Slot :=
  let mine := sl.accs.filter fun a => !a.committed
  let (copies, engPend) := commitCopies i sl.engPend
  let fences := i.nodes.filterMap fun n => match n.fence with
    | some (_, .eng) | none => none
    | some (l, sc) => some { inst := i.num, lsid := l, scope := sc : Fence }
  commitExit i { sl with
    inst := none, matrix := false
    accs := sl.accs.flatMap fun a => if a.committed then [a] else commitAcc mine a
    fences := sl.fences ++ fences, copies := sl.copies ++ copies, engPend := engPend
    post := sl.post ++ commitActions i }

/-- The SWAPS of an instance take their places in the commit order of the cluster's (R382). -/
def commitSwaps (k : Nat) (i : Inst) (s : State) : State :=
  let mine := i.actions.filterMap fun p => match p.2 with
    | .swaps _ e => some (k, e)
    | _ => none
  if mine = [] then s else s.modCluster (coreCluster (slotCore k)) fun x => { x with swaps := x.swaps ++ mine }

/-- Commit the instance of a slot (R183, R227, R243). -/
def commitInst (k : Nat) (s : State) : State :=
  let sl := s.slot k
  match sl.inst with
  | none => s
  | some i =>
    let s := s.modSlot k (commitRegs i)
    let s := overAll (applyControl k) i.ctl s
    let s := s.modSlot k fun x => { x with fpc := x.fpc ||| i.flags }
    let s := commitStaged (slotCore k) i s
    let s := match i.scaleError with
      | some (off, rows, col) => pendTrap k { cause := causePoison, addr := off, info := dataInfo 7 col rows true, origin := 1 } s
      | none => s
    let s := commitSwaps k i (s.modSlot k (commitSlot i))
    s.modCore (slotCore k) fun co =>
      { co with claim := match co.claim with
          | some (n, t) => if n = k then none else some (n, t)
          | none => none }

/-- The event COMMIT (R183). -/
def execCommit (slot : Nat) (s : State) : Result :=
  .next (if commitReady (s.slot slot) then commitInst slot s else s)

/-! ## BLOCK STARVED (R182) -/

/-- A node waits for something that may come: an event, a matrix operation, or, of a FENCE, what it covers outside its
instance. -/
def Node.awaits (s : State) (k : Nat) (sl : Slot) (i : Inst) (n : Node) : Bool :=
  n.st = .waiting && (match n.form.kind with
    | .wait | .matrix | .deferred => true
    | _ => n.waitsTimeline || (match n.fence with
      | some (l, sc) => fenceOpen s k sl i.num l sc
      | none => false))

/-- Something of the instance is pending, or an instruction may fire: none does once the instance has completed (R177, R181,
R182, R333). [DEDUCED: log 14] -/
def instBusy (s : State) (k : Nat) (sl : Slot) (i : Inst) : Bool :=
  (!i.complete && (List.range i.nodes.length).any fun n => nodeReady i n) || i.nodes.any (fun n => n.awaits s k sl i) ||
    sl.accs.any (fun a => !a.committed && a.mayPerform i) || (s.core (slotCore k)).normQueue.contains k

/-- An instance that can no longer complete, or whose accesses can no longer perform before its commit, is discarded
(R67, R182). [DEDUCED: log 13] -/
def starve (k : Nat) (s : State) : State :=
  let sl := s.slot k
  match sl.inst with
  | none => s
  | some i =>
    if instBusy s k sl i || (i.complete && !sl.accs.any fun a => !a.committed && a.pends) then s
    else raise k { cause := causeStarved, addr := 0, info := 0 } s

/-! ## The normaliser (R174) -/

/-- The event NORMALISER_SERVICE_END: the slot served is runnable again, and the next is served. -/
def execNormaliserServiceEnd (core : Nat) (s : State) : Result :=
  .next (match (s.core core).normQueue with
    | [] => s
    | k :: rest =>
      if s.now < (s.slot k).slowUntil then s
      else
        let s := s.modCore core fun c => { c with normQueue := rest }
        match rest with
        | [] => s
        | n :: _ => s.modSlot n fun x => { x with slowUntil := s.now + 64 })

end Sys2Proof.Machine
end

