-- ==== Sys2Proof/Machine/Integer.lean ====
section
/-! DEFINITION. The meanings of opcodes 0x01 to 0x3F: registers, constants, fan-out, exits and the integer
instructions (R290 to R311). -/

namespace Sys2Proof.Machine

/-- A register as it stood when the instance of a slot started (R180). -/
def State.reg0 (s : State) (k r : Nat) : Reg :=
  match (s.slot k).inst with
  | some i => if r = 0 then {} else tabGet i.regs0 r {}
  | none => {}

/-- GET's body (R294): it waits while a reply to the register is outstanding (R78), and a poisoned register
raises POISON (R59). -/
def getBody (i : Instr) (r : Nat) (o : Fired) (s : State) : State :=
  let g := s.reg0 o.slot r
  if g.pending then s
  else if g.poison then raise o.slot { cause := causePoison, addr := r, info := dataInfo 6 r 0 false } s
  else finish i o (.data g.val false) s

/-- A call has fired in the instance (R295, R299). -/
def Inst.called (i : Inst) : Bool :=
  match i.exit with
  | some (.call _, _) => true
  | _ => false

/-- PUT's body (R295). [DEDUCED: log 15] -/
def putBody (r : Nat) (o : Fired) (s : State) : State :=
  match (s.slot o.slot).inst with
  | none => s
  | some i =>
    if (s.reg0 o.slot r).pending then s
    else if i.hasReg r || (r == 63 && i.called) then raise o.slot (collisionAt o.node 1) s
    else setNode o .fired (s.modInst o.slot fun x => { x with puts := x.puts ++ [(r, o.l, o.lp)] })

/-- An exit's body: the second to fire in an instance collides, and so does a call beside a PUT of g63
(R179, R295, R299). [DEDUCED: log 15] -/
def exitBody (e : Inst → Exit) (exn : Nat) (o : Fired) (s : State) : State :=
  match (s.slot o.slot).inst with
  | none => s
  | some i =>
    let clash := match e i with
      | .call _ => i.hasReg 63
      | .br _ | .done | .trap _ _ | .repost _ => false
    if o.poison then raise o.slot poisonToken s
    else if i.exit.isSome || clash then raise o.slot (collisionAt o.node 0) s
    else setNode o .fired (s.modInst o.slot fun x => { x with exit := some (e i, exn) })

/-- GET (R294). -/
def execGet (p : Pred) (t : Tgt) (u : Tgt) (r : BitVec 6) (s : State) : Result :=
  .next (fire (.get p t u r) (getBody (.get p t u r) r.toNat) s)

/-- PUT (R295). -/
def execPut (p : Pred) (r : BitVec 6) (s : State) : Result :=
  .next (fire (.put p r) (putBody r.toNat) s)

/-- CONST (R296). -/
def execConst (p : Pred) (t : Tgt) (k : BitVec 15) (s : State) : Result :=
  .next (aluShell (.const p t k) (fun _ _ _ => k.setWidth 64) s)

/-- CONSTH (R296). -/
def execConsth (p : Pred) (t : Tgt) (k : BitVec 15) (s : State) : Result :=
  .next (aluShell (.consth p t k) (fun l _ _ => consthOp k l) s)

/-- MOV (R297). -/
def execMov (p : Pred) (t : Tgt) (u : Tgt) (s : State) : Result :=
  .next (aluShell (.mov p t u) (fun l _ _ => l) s)

/-- NULL sends NULL to both targets (R297). -/
def execNull (p : Pred) (t : Tgt) (u : Tgt) (s : State) : Result :=
  .next (fire (.null p t u) (fun o => finish (.null p t u) o .null) s)

/-- TEST (R298). -/
def execTest (p : Pred) (t : Tgt) (u : Tgt) (m : TestMode) (s : State) : Result :=
  .next (aluShell (.test p t u m) (fun l _ _ => testOp m l) s)

/-- BR (R299). -/
def execBr (p : Pred) (e : BitVec 6) (d : BitVec 16) (s : State) : Result :=
  .next (fire (.br p e d) (exitBody (fun i => .br (branchTarget i.blk d)) e.toNat) s)

/-- BRR (R299). -/
def execBrr (p : Pred) (e : BitVec 6) (s : State) : Result :=
  .next (fire (.brr p e) (fun o => exitBody (fun _ => .br o.l.toNat) e.toNat o) s)

/-- CALL (R299). -/
def execCall (p : Pred) (e : BitVec 6) (d : BitVec 16) (s : State) : Result :=
  .next (fire (.call p e d) (exitBody (fun i => .call (branchTarget i.blk d)) e.toNat) s)

/-- CALLR (R299). -/
def execCallr (p : Pred) (e : BitVec 6) (s : State) : Result :=
  .next (fire (.callr p e) (fun o => exitBody (fun _ => .call o.l.toNat) e.toNat o) s)

/-- DONE (R299). -/
def execDone (p : Pred) (e : BitVec 6) (s : State) : Result :=
  .next (fire (.done p e) (exitBody (fun _ => .done) e.toNat) s)

/-- TRAP (R300). -/
def execTrap (p : Pred) (c : BitVec 8) (s : State) : Result :=
  .next (fire (.trap p c) (fun o => exitBody (fun _ => .trap c.toNat o.l) 0 o) s)

/-- ADD (R301). -/
def execAdd (p : Pred) (t : Tgt) (u : Tgt) (w : Width) (s : State) : Result :=
  .next (aluShell (.add p t u w) (fun l r _ => addOp w l r) s)

/-- SUB (R301). -/
def execSub (p : Pred) (t : Tgt) (u : Tgt) (w : Width) (s : State) : Result :=
  .next (aluShell (.sub p t u w) (fun l r _ => subOp w l r) s)

/-- ADDI (R301). -/
def execAddi (p : Pred) (t : Tgt) (u : Tgt) (i : BitVec 8) (s : State) : Result :=
  .next (aluShell (.addi p t u i) (fun l _ _ => addiOp i l) s)

/-- MUL (R301). -/
def execMul (p : Pred) (t : Tgt) (u : Tgt) (w : Width) (s : State) : Result :=
  .next (aluShell (.mul p t u w) (fun l r _ => mulOp w l r) s)

/-- MULH (R301). -/
def execMulh (p : Pred) (t : Tgt) (u : Tgt) (w : Width) (s : State) : Result :=
  .next (aluShell (.mulh p t u w) (fun l r _ => mulhOp w l r) s)

/-- MULHU (R301). -/
def execMulhu (p : Pred) (t : Tgt) (u : Tgt) (w : Width) (s : State) : Result :=
  .next (aluShell (.mulhu p t u w) (fun l r _ => mulhuOp w l r) s)

/-- DIV (R301). -/
def execDiv (p : Pred) (t : Tgt) (u : Tgt) (w : Width) (s : State) : Result :=
  .next (aluShell (.div p t u w) (fun l r _ => divOp w l r) s)

/-- DIVU (R301). -/
def execDivu (p : Pred) (t : Tgt) (u : Tgt) (w : Width) (s : State) : Result :=
  .next (aluShell (.divu p t u w) (fun l r _ => divuOp w l r) s)

/-- REM (R301). -/
def execRem (p : Pred) (t : Tgt) (u : Tgt) (w : Width) (s : State) : Result :=
  .next (aluShell (.rem p t u w) (fun l r _ => remOp w l r) s)

/-- REMU (R301). -/
def execRemu (p : Pred) (t : Tgt) (u : Tgt) (w : Width) (s : State) : Result :=
  .next (aluShell (.remu p t u w) (fun l r _ => remuOp w l r) s)

/-- AND (R301). -/
def execAnd (p : Pred) (t : Tgt) (u : Tgt) (w : Width) (s : State) : Result :=
  .next (aluShell (.and p t u w) (fun l r _ => andOp w l r) s)

/-- OR (R301). -/
def execOr (p : Pred) (t : Tgt) (u : Tgt) (w : Width) (s : State) : Result :=
  .next (aluShell (.or p t u w) (fun l r _ => orOp w l r) s)

/-- XOR (R301). -/
def execXor (p : Pred) (t : Tgt) (u : Tgt) (w : Width) (s : State) : Result :=
  .next (aluShell (.xor p t u w) (fun l r _ => xorOp w l r) s)

/-- ANDN (R301). -/
def execAndn (p : Pred) (t : Tgt) (u : Tgt) (w : Width) (s : State) : Result :=
  .next (aluShell (.andn p t u w) (fun l r _ => andnOp w l r) s)

/-- LUT3 (R302). -/
def execLut3 (t : Tgt) (u : Tgt) (i : BitVec 8) (s : State) : Result :=
  .next (aluShell (.lut3 t u i) (lut3Op i) s)

/-- ORN (R301). -/
def execOrn (p : Pred) (t : Tgt) (u : Tgt) (w : Width) (s : State) : Result :=
  .next (aluShell (.orn p t u w) (fun l r _ => ornOp w l r) s)

/-- SHL (R301). -/
def execShl (p : Pred) (t : Tgt) (u : Tgt) (w : Width) (s : State) : Result :=
  .next (aluShell (.shl p t u w) (fun l r _ => shlBy w (amountOf w r) l) s)

/-- SHR (R301). -/
def execShr (p : Pred) (t : Tgt) (u : Tgt) (w : Width) (s : State) : Result :=
  .next (aluShell (.shr p t u w) (fun l r _ => shrBy w (amountOf w r) l) s)

/-- SAR (R301). -/
def execSar (p : Pred) (t : Tgt) (u : Tgt) (w : Width) (s : State) : Result :=
  .next (aluShell (.sar p t u w) (fun l r _ => sarBy w (amountOf w r) l) s)

/-- SHLI (R301). -/
def execShli (p : Pred) (t : Tgt) (u : Tgt) (w : Width) (n : BitVec 6) (s : State) : Result :=
  .next (aluShell (.shli p t u w n) (fun l _ _ => shlBy w (n.toNat % widthBits w) l) s)

/-- SHRI (R301). -/
def execShri (p : Pred) (t : Tgt) (u : Tgt) (w : Width) (n : BitVec 6) (s : State) : Result :=
  .next (aluShell (.shri p t u w n) (fun l _ _ => shrBy w (n.toNat % widthBits w) l) s)

/-- SARI (R301). -/
def execSari (p : Pred) (t : Tgt) (u : Tgt) (w : Width) (n : BitVec 6) (s : State) : Result :=
  .next (aluShell (.sari p t u w n) (fun l _ _ => sarBy w (n.toNat % widthBits w) l) s)

/-- FSHL (R303). -/
def execFshl (t : Tgt) (u : Tgt) (w : Width) (s : State) : Result :=
  .next (aluShell (.fshl t u w) (fshlOp w) s)

/-- FSHR (R303). -/
def execFshr (t : Tgt) (u : Tgt) (w : Width) (s : State) : Result :=
  .next (aluShell (.fshr t u w) (fshrOp w) s)

/-- ROL (R301). -/
def execRol (p : Pred) (t : Tgt) (u : Tgt) (w : Width) (s : State) : Result :=
  .next (aluShell (.rol p t u w) (fun l r _ => rolBy w (amountOf w r) l) s)

/-- CLZ (R301). -/
def execClz (p : Pred) (t : Tgt) (u : Tgt) (w : Width) (s : State) : Result :=
  .next (aluShell (.clz p t u w) (fun l _ _ => clzOp w l) s)

/-- CTZ (R301). -/
def execCtz (p : Pred) (t : Tgt) (u : Tgt) (w : Width) (s : State) : Result :=
  .next (aluShell (.ctz p t u w) (fun l _ _ => ctzOp w l) s)

/-- POPC (R301). -/
def execPopc (p : Pred) (t : Tgt) (u : Tgt) (w : Width) (s : State) : Result :=
  .next (aluShell (.popc p t u w) (fun l _ _ => popcOp w l) s)

/-- BREV (R301). -/
def execBrev (p : Pred) (t : Tgt) (u : Tgt) (w : Width) (s : State) : Result :=
  .next (aluShell (.brev p t u w) (fun l _ _ => brevOp w l) s)

/-- BSWAP (R301). -/
def execBswap (p : Pred) (t : Tgt) (u : Tgt) (w : Width) (s : State) : Result :=
  .next (aluShell (.bswap p t u w) (fun l _ _ => bswapOp w l) s)

/-- EXT (R304). -/
def execExt (p : Pred) (t : Tgt) (u : Tgt) (signed : Bool) (n : BitVec 6) (s : State) : Result :=
  .next (aluShell (.ext p t u signed n) (fun l r _ => extOp signed n l r) s)

/-- INS (R305). -/
def execIns (p : Pred) (t : Tgt) (u : Tgt) (l : InsLen) (n : BitVec 6) (s : State) : Result :=
  .next (aluShell (.ins p t u l n) (fun x r _ => insOp l n x r) s)

/-- MIN (R301). -/
def execMin (p : Pred) (t : Tgt) (u : Tgt) (w : Width) (s : State) : Result :=
  .next (aluShell (.min p t u w) (fun l r _ => minOp w l r) s)

/-- MAX (R301). -/
def execMax (p : Pred) (t : Tgt) (u : Tgt) (w : Width) (s : State) : Result :=
  .next (aluShell (.max p t u w) (fun l r _ => maxOp w l r) s)

/-- MINU (R301). -/
def execMinu (p : Pred) (t : Tgt) (u : Tgt) (w : Width) (s : State) : Result :=
  .next (aluShell (.minu p t u w) (fun l r _ => minuOp w l r) s)

/-- MAXU (R301). -/
def execMaxu (p : Pred) (t : Tgt) (u : Tgt) (w : Width) (s : State) : Result :=
  .next (aluShell (.maxu p t u w) (fun l r _ => maxuOp w l r) s)

/-- CMP (R286). -/
def execCmp (p : Pred) (t : Tgt) (u : Tgt) (w : Width) (c : Cond) (s : State) : Result :=
  .next (aluShell (.cmp p t u w c) (fun l r _ => cmpOp c w l r) s)

/-- SEL (R307). -/
def execSel (t : Tgt) (u : Tgt) (s : State) : Result :=
  .next (aluShell (.sel t u) (selOp) s)

/-- SEXT (R306). -/
def execSext (p : Pred) (t : Tgt) (u : Tgt) (n : BitVec 6) (s : State) : Result :=
  .next (aluShell (.sext p t u n) (fun l _ _ => sextOp n l) s)

/-- ZEXT (R306). -/
def execZext (p : Pred) (t : Tgt) (u : Tgt) (n : BitVec 6) (s : State) : Result :=
  .next (aluShell (.zext p t u n) (fun l _ _ => zextOp n l) s)

/-- LEA (R301). -/
def execLea (p : Pred) (t : Tgt) (u : Tgt) (w : Width) (n : BitVec 6) (s : State) : Result :=
  .next (aluShell (.lea p t u w n) (fun l r _ => leaOp w n l r) s)

/-- CELL.INV as it stood when the instance of a slot started (R308). -/
def State.cellInv0 (s : State) (k : Nat) : Word :=
  match (s.slot k).inst with
  | some i => i.cellInv0
  | none => 0#64

/-- CELL (R309). -/
def execCell (t : Tgt) (u : Tgt) (s : State) : Result :=
  .next (aluShell (.cell t u) (cellOp (s.cellInv0 s.focus.slot)) s)

/-- HASHA (R310). -/
def execHasha (p : Pred) (t : Tgt) (u : Tgt) (s : State) : Result :=
  .next (aluShell (.hasha p t u) (fun l r _ => hashaOp l r) s)

/-- ABSD (R301). -/
def execAbsd (p : Pred) (t : Tgt) (u : Tgt) (w : Width) (s : State) : Result :=
  .next (aluShell (.absd p t u w) (fun l r _ => absdOp w l r) s)

/-- PADD (R311). -/
def execPadd (p : Pred) (t : Tgt) (u : Tgt) (m : PMode) (l : Lanes) (s : State) : Result :=
  .next (aluShell (.padd p t u m l) (fun x y _ => paddOp m l x y) s)

/-- PSUB (R311). -/
def execPsub (p : Pred) (t : Tgt) (u : Tgt) (m : PMode) (l : Lanes) (s : State) : Result :=
  .next (aluShell (.psub p t u m l) (fun x y _ => psubOp m l x y) s)

/-- PMUL (R311). -/
def execPmul (p : Pred) (t : Tgt) (u : Tgt) (m : PMode) (l : Lanes) (s : State) : Result :=
  .next (aluShell (.pmul p t u m l) (fun x y _ => pmulOp m l x y) s)

/-- PMAX (R311). -/
def execPmax (p : Pred) (t : Tgt) (u : Tgt) (unsigned : Bool) (l : Lanes) (s : State) : Result :=
  .next (aluShell (.pmax p t u unsigned l) (fun x y _ => pmaxOp unsigned l x y) s)

end Sys2Proof.Machine
end

