-- ==== Sys2Proof/Machine/Translation.lean ====
section
/-! DEFINITION. Page walks and the removal of translations as events: PAGE_WALK_START, PAGE_WALK_COMPLETE,
TLBI_COMPLETE (R27 to R37), and what a TLBI does when it acts (R383). -/

namespace Sys2Proof.Machine

/-- The die of a cluster key. -/
def clusterDie (c : Nat) : Nat := c / 128
/-- The module of a cluster key. -/
def clusterModule (c : Nat) : Nat := c / 512

/-- The two ask for the same page with the same ASID on the same die (R28). -/
def Walk.matches (a b : Walk) : Bool :=
  clusterDie a.cluster == clusterDie b.cluster && a.asid == b.asid && a.va == b.va

/-- The miss is listed by its cluster, and the walker of the die may take it (R28). -/
def walkAdmitted (s : State) (id : Nat) (w : Walk) : Bool :=
  !w.started && decide ((s.walks.filter fun p => p.2.cluster == w.cluster && decide (p.1 < id)).length < 32) &&
    decide ((s.walks.filter fun p => p.2.started && clusterDie p.2.cluster == clusterDie w.cluster).length < 128) &&
    !s.walks.any fun p => p.2.started && !p.2.stale && p.2.matches w

/-- How far a cluster stands from the one whose turn it is at its die's walker (R28). -/
def walkDistance (s : State) (c : Nat) : Nat := (c + 128 - (s.die (clusterDie c)).walkTurn % 128) % 128

/-- The walker takes this miss next: its cluster comes first in the round, and it is the oldest of its cluster (R28). -/
def walkMayStart (s : State) (id : Nat) (w : Walk) : Bool :=
  walkAdmitted s id w && s.walks.all fun p =>
    p.1 == id || clusterDie p.2.cluster != clusterDie w.cluster || !walkAdmitted s p.1 p.2 ||
      decide (walkDistance s w.cluster < walkDistance s p.2.cluster) || (p.2.cluster == w.cluster && decide (id < p.1))

/-- A walk reads the entry of a level: a single-copy-atomic read of tier-2 memory (R29). -/
def Walk.reads (w : Walk) (s : State) (level table : Nat) : Walk :=
  let a := entryAddr (clusterModule w.cluster) w.va level table
  { w with level := level, read := some (s.word a, s.wordPoisoned a) }

/-- Where a walk stands after what it has read: it has ended, or reads next in a table (R24, R29). -/
def Walk.step (s : State) (w : Walk) : WalkEnd ⊕ Nat :=
  match rootTable w.base, w.read with
  | none, _ => .inl (.fault causeProtection 2 4)
  | some b, none => .inr b
  | some _, some e => entryRead s (clusterModule w.cluster) w.va w.level e

/-- The read of a walk waits behind a hold on the entry's word (R77). -/
def walkHeld (s : State) (id : Nat) (w : Walk) (level table : Nat) : Option Nat :=
  firstBusy s (.msg id) [entryAddr (clusterModule w.cluster) w.va level table / 8]

/-- A walk reads its next entry, in its turn at the word. -/
def readEntryOf (id : Nat) (w : Walk) (level table : Nat) (s : State) : State :=
  match walkHeld s id w level table with
  | some x => waitTurn (.msg id) x s
  | none => endTurn (.msg id) { s with walks := tabPut s.walks id (w.reads s level table) }

/-- The event PAGE_WALK_START: the walker takes the miss in its cluster's turn, and reads the level-4 entry, where the base
lies in tier-2 memory (R24, R28, R29). -/
def execPageWalkStart (miss : Nat) (s : State) : Result :=
  .next (match tabFind s.walks miss with
    | none => s
    | some w =>
      if walkMayStart s miss w then
        let s := s.modDie (clusterDie w.cluster) fun d => { d with walkTurn := (w.cluster + 1) % 128 }
        let w := { w with started := true, stale := false, level := 5 }
        let s := { s with walks := tabPut s.walks miss w }
        match w.step s with
        | .inl _ => s
        | .inr b => readEntryOf miss w 4 b s
      else s)

/-- The walk's end reaches an access that waits for it (R27, R31). [DEDUCED: log 30] -/
def resumeAcc (k asid page : Nat) (e : WalkEnd) (id : Nat) (s : State) : State :=
  match s.acc? k id with
  | none => s
  | some a =>
    if a.st = .walking ∧ a.asid = asid ∧ a.va / 65536 = page then
      let w : Want := { core := slotCore k, sys := systemSlot k, va := a.va, size := a.op.size, use := a.op.use }
      match walked w (slotModule k) e with
      | .fault t => raise k t s
      | .at pa => enterAcc k { a with pa := pa } s
      | .miss => s
    else s

/-- The walk's end reaches a fetch that waits for it. -/
def resumeFetch (k asid page : Nat) (e : WalkEnd) (s : State) : State :=
  match (s.slot k).fetchMiss with
  | none => s
  | some va =>
    if (s.slot k).fetchAsid = asid ∧ va / 65536 = page then
      let s := s.modSlot k fun x => { x with fetchMiss := none }
      match walked { core := slotCore k, sys := systemSlot k, va := va, size := 4, use := .fetch } (slotModule k) e with
      | .fault t => raise k t s
      | .at _ | .miss => s
    else s

/-- The walk's end reaches what waits for it in a slot: accesses that were translated in its address space (R27, R31). -/
def resumeSlot (asid page : Nat) (e : WalkEnd) (k : Nat) (s : State) : State :=
  resumeFetch k asid page e (overAll (resumeAcc k asid page e) ((s.slot k).accs.map fun a => a.id) s)

/-- The slots of a cluster that are listed. -/
def clusterSlots (s : State) (c : Nat) : List Nat :=
  (s.slots.map fun p => p.1).filter fun k => coreCluster (slotCore k) == c

/-- The misses that a walk answers: its own, and those that have joined it (R28). -/
def joined (s : State) (id : Nat) (w : Walk) : Tab Walk :=
  s.walks.filter fun p => p.1 == id || (!p.2.started && !w.stale && p.2.matches w)

/-- A walk has ended: the leaf is installed in each cluster that waits for it, unless a TLBI of that cluster or of the walker
has come since, and every access that waits goes on or faults (R26 to R30, R37). -/
def endWalk (id : Nat) (w : Walk) (e : WalkEnd) (s : State) : State :=
  let mine := joined s id w
  let s := { s with walks := s.walks.filter fun p => !mine.any fun q => q.1 == p.1 }
  overAll (fun p s =>
    let c := p.2.cluster
    let s := match e with
      | .leaf level v => if w.stale || p.2.stale then s else installLeaf c (tlbOf w.asid level v w.va) s
      | .fault _ _ _ => s
    overAll (resumeSlot w.asid (w.va / 65536) e) (clusterSlots s c) s) mine s

/-- The event PAGE_WALK_COMPLETE: an entry that the walk has read ends it, or the walk reads one level further down, each
entry in a read of its own, and is complete at a later such event (R29). [DEDUCED: log 28] -/
def execPageWalkComplete (walk : Nat) (s : State) : Result :=
  .next (match tabFind s.walks walk with
    | none => s
    | some w =>
      if !w.started then s
      else match w.step s with
        | .inl e => endWalk walk w e (endTurn (.msg walk) s)
        | .inr table => readEntryOf walk w (w.level - 1) table s)

/-! ## TLBI (R37, R131, R383) -/

/-- Whether a TLBI removes an entry. -/
def tlbiHits (kind va asid : Nat) (e : TlbEntry) : Bool :=
  match kind with
  | 0 => e.vpn == va / 2 ^ pageBits e.level && (e.g || e.asid == asid)
  | 1 => !e.g && e.asid == asid
  | _ => true

/-- Whether a TLBI drops a parameter-block cache entry (R131). -/
def tlbiDrops (kind va asid : Nat) (e : PbEntry) : Bool :=
  match kind with
  | 0 => e.pba / 2 ^ 30 == va / 2 ^ 30
  | 1 => e.asid == asid
  | _ => true

/-- Whether a scope reaches beyond the issuing cluster. -/
def scopeReachesDie : Scope → Bool
  | .die | .mod | .tier => true
  | .slot | .core | .clus | .grp | .fab | .host | .zone | .eng | .hood => false

/-- Whether a TLBI of a slot covers a cluster (R383). -/
def tlbiCovers (k : Nat) (sc : Scope) (c : Nat) : Bool :=
  let mine := coreCluster (slotCore k)
  match sc with
  | .die => clusterDie c == clusterDie mine
  | .mod | .tier => clusterModule c == clusterModule mine
  | .slot | .core | .clus | .grp | .fab | .host | .zone | .eng | .hood => c == mine

/-- Whether it covers a die, its walker and engines. -/
def tlbiCoversDie (k : Nat) (sc : Scope) (d : Nat) : Bool :=
  match sc with
  | .die => d == coreDie (slotCore k)
  | .mod | .tier => d / 4 == slotModule k
  | .slot | .core | .clus | .grp | .fab | .host | .zone | .eng | .hood => false

/-- Whether a walk ran under a covered walker or for a covered cluster. -/
def tlbiCoversWalk (k : Nat) (sc : Scope) (w : Walk) : Bool :=
  tlbiCovers k sc w.cluster || tlbiCoversDie k sc (clusterDie w.cluster)

/-- A TLBI acts: translations and parameter blocks are dropped, and walks under way become stale, as does a miss of a covered
cluster that has joined another cluster's walk; its completion is awaited (R37, R383). -/
def tlbiAct (k kind va asid : Nat) (sc : Scope) (s : State) : State :=
  let s := { s with
    clusters := s.clusters.map fun (p : Nat × Cluster) =>
      if tlbiCovers k sc p.1 then (p.1, { p.2 with tlb := p.2.tlb.filter fun e => !tlbiHits kind va asid e }) else p
    dies := s.dies.map fun (p : Nat × Die) =>
      if tlbiCoversDie k sc p.1 then
        (p.1, { p.2 with engines := p.2.engines.map fun (q : Nat × Engine) =>
          (q.1, { q.2 with cache := q.2.cache.filter fun e => !tlbiDrops kind va asid e
                           tlb := q.2.tlb.filter fun e => !tlbiHits kind va asid e }) })
      else p
    walks := s.walks.map fun (p : Nat × Walk) =>
      if tlbiCoversWalk k sc p.2 && (p.2.started || s.walks.any fun q => q.2.started && !q.2.stale && q.2.matches p.2) then
        (p.1, { p.2 with stale := true })
      else p }
  s.send (.tlbi k kind va asid sc)

/-- An accepted copy from before the TLBI whose translations it may remove has not retired (R37). [DEDUCED: log 29] -/
def tlbiHeldByCopy (s : State) (id k kind asid : Nat) (sc : Scope) : Bool :=
  s.copies.any fun p => decide (p.1 < id) && p.2.accepted && scopeReachesDie sc &&
    tlbiCoversDie k sc (coreDie (slotCore p.2.slot)) &&
    (kind != 1 || (s.core (slotCore p.2.slot)).xlatAsid.toNat == asid)

/-- A request by global name, translated at its target before the TLBI, has not retired: it waits in a hold queue or a waiter
list, or comes back after a NACK, under a translation that the TLBI may have removed (R37). [DEDUCED: log 29] -/
def tlbiHeldByRequest (s : State) (id k kind va asid : Nat) (sc : Scope) : Bool :=
  scopeReachesDie sc && s.words.any fun p => (p.2.queue ++ p.2.waiters).any fun r => match r.trans with
    | some (a, v, t) => decide (t < id) && r.pa / 2 ^ 48 == slotModule k &&
        (kind == 2 || (kind == 1 && a == asid) || (kind == 0 && v / 2 ^ 30 == va / 2 ^ 30))
    | none => false

/-- The event TLBI_COMPLETE (R37): the slot's next instance may start. -/
def execTlbiComplete (id : Nat) (s : State) : Result :=
  .next (match tabFind s.net id with
    | some (.tlbi k kind va asid sc) =>
      if s.walks.any (fun p => p.2.stale && tlbiCoversWalk k sc p.2) || tlbiHeldByCopy s id k kind asid sc ||
          tlbiHeldByRequest s id k kind va asid sc then s
      else (s.drop id).modSlot k fun x => { x with post := x.post.filter fun p => p.2 != .tlbiWait id }
    | _ => s)

end Sys2Proof.Machine
end

