-- ==== Sys2Proof/Machine/Requests.lean ====
section
/-! DEFINITION. Events of memory requests: releases, cancels, resends, HOLD.LIMIT, combining, barrier
operations and the phase tree (R99 to R122, R243). -/

namespace Sys2Proof.Machine

/-- The event HOLD_RELEASE: the word opens, and the release is acknowledged (R99, R109). -/
def execHoldRelease (msg : Nat) (s : State) : Result :=
  .next (match tabFind s.net msg with
    | some (.release r) => answer r .ack (releaseWord r (s.drop msg))
    | _ => s)

/-- The event REQUEST_CANCEL (R109). -/
def execRequestCancel (msg : Nat) (s : State) : Result :=
  .next (match tabFind s.net msg with
    | some (.cancel k a _) => cancelReq k a (s.drop msg)
    | _ => s)

/-! ## Resends (R57, R100, R106) -/

/-- The slot and the access of a number. -/
def findAcc (s : State) (id : Nat) : Option (Nat × Acc) :=
  s.slots.findSome? fun p => (p.2.accs.find? fun a => a.id == id).map fun a => (p.1, a)

/-- The back-off of a part is over (R100). -/
def Acc.partDue (a : Acc) (now part : Nat) : Bool := decide ((if part = 0 then a.notBefore else a.notBeforeHi) ≤ now)

/-- Send an access again: of one that performs as two, each request that was refused once its own back-off is over (R57,
R100). -/
def resendAcc (k : Nat) (a : Acc) (s : State) : State :=
  if a.halves then
    let later := a.again.filter fun p => !a.partDue s.now p
    let s' := s.modAcc k a.id fun b => { b with st := if later = [] then .sent else .refused, again := later }
    overAll (fun r s => s.send (.req r)) ((a.requests k).filter fun r => a.again.contains r.part && a.partDue s.now r.part) s'
  else if a.partDue s.now 0 then launchAcc k { a with again := [] } s
  else s

/-- The event NACK_RESEND: the back-off is over (R100). -/
def execNackResend (msg : Nat) (s : State) : Result :=
  .next (match findAcc s msg with
    | some (k, a) => if a.st = .refused then resendAcc k a s else s
    | none => s)

/-- The event NOT_READY_RESEND: the slot resends at its next turn, as a park request after COUNT answers
(R106). -/
def execNotReadyResend (msg : Nat) (s : State) : Result :=
  .next (match findAcc s msg with
    | some (k, a) =>
      if a.st = .unready then launchAcc k { a with park := decide ((s.slot k).feRetry.toNat ≤ a.tries) } s else s
    | none => s)

/-! ## HOLD.LIMIT (R102, R243) -/

/-- The limit has passed since a cycle; the timer of a frozen module stands (R405). [DEDUCED: log 50] -/
def limitPassed (s : State) (k since : Nat) : Bool :=
  let limit := (s.core (slotCore k)).holdLimit.toNat
  limit != 0 && decide (since + limit ≤ s.now) && (s.module (slotModule k)).boot != .frozen

/-- The hold of lowest LSID among those granted. [DEDUCED: log 50] -/
def lowestHold (accs : List Acc) : Option Acc :=
  (accs.filter fun a => a.st = .granted).foldl (fun (m : Option Acc) a => match m with
    | some b => if a.lsid < b.lsid then some a else some b
    | none => some a) none

/-- The event RESERVATION_TIMEOUT of a held word, or of a core's matrix claim, whose argument is 2^80 + the
core's key (R102, R243). -/
def execReservationTimeout (word : Nat) (s : State) : Result :=
  .next (
    if word ≥ 2 ^ 80 then
      match (s.core (word - 2 ^ 80)).claim with
      | some (k, t) => if limitPassed s k t then raise k { cause := causeReservation, addr := 0, info := 0 } s else s
      | none => s
    else match (s.wordQ word).held with
      | none => s
      | some (k, inst, _) =>
        let sl := s.slot k
        match sl.inst with
        | none => s
        | some i =>
          match i.firstGrant, lowestHold (sl.accs.filter fun a => !a.committed) with
          | some t, some a =>
            if i.num = inst ∧ limitPassed s k t then raise k { cause := causeReservation, addr := a.va, info := 0 } s else s
          | _, _ => s)

/-! ## Combining (R105) -/

/-- The width and the addend of an AMADD. -/
def MemOp.addend : MemOp → Option (Width × Word)
  | .amadd w v _ => some (w, v)
  | _ => none

/-- The core that sent a request. -/
def Req.fromCore (r : Req) : Option Nat :=
  match r.src with
  | .slot k _ => some (slotCore k)
  | .refill c _ => some c
  | _ => none

/-- The stage of the Churn at which two ports of a die share a switch: 11 − j, where bit j is the first, from the lowest,
in which they differ (R105). -/
def meetStage (c d : Nat) : Option Nat := ((List.range 11).find? fun j => bitOf c j != bitOf d j).map fun j => 11 - j

/-- The switch of a stage on the way from a port to a bank: an omega network replaces the port's bits by the bank's one per
stage (R105). -/
def switchOf (stage port bank : Nat) : Nat := port % 2 ^ (11 - stage) * 2 ^ (stage - 1) + bank / 2 ^ (12 - stage)

/-- The stage of a switch's key. -/
def stageOf (key : Nat) : Nat := key / 2 ^ 12 % 16

/-- The switch at which two requests for one word, width and half of a global bank may meet, the first at its upper input:
at a stage after those at which either has been combined. A request of another die of the module comes into the Churn of the
bank's die at the port of its own die-local number (R56, R105). [DESIGN CHOICE: log 51] -/
def meetAt (a b : Req) : Option Nat :=
  match a.op.addend, b.op.addend, a.fromCore, b.fromCore with
  | some (w, _), some (w', _), some c, some d =>
    match meetStage (c % 2048) (d % 2048) with
    | some t =>
      if w = w' ∧ a.pa = b.pa ∧ regionOf (a.pa % 2 ^ 48) = some .global ∧ a.pa / 2 ^ 48 = coreModule c ∧
          coreModule c = coreModule d ∧ !bitOf c (11 - t) ∧ (a.joins ++ b.joins).all (fun j => decide (stageOf j < t)) then
        let bank := bankOf (a.pa % 2 ^ 48)
        some ((coreModule c * 4 + bank / 2048) * 2 ^ 16 + t * 2 ^ 12 + switchOf t (c % 2048) (bank % 2048))
      else none
    | none => none
  | _, _, _, _ => none

/-- The request's own instance holds the word: it performs under the hold, and goes on alone (R328). -/
def ownHold (s : State) (r : Req) : Bool := r.owns (s.wordQ (r.pa / 8))

/-- What each request behind a combined one adds to the old value. -/
def Req.shares (r : Req) (base : Word) : List (Nat × Source × Word) :=
  if r.combined = [] then [(r.inst, r.src, base)] else r.combined.map fun x => (x.1, x.2.1, x.2.2 + base)

/-- The combined request: the sum of the addends, modulo the width. [DESIGN CHOICE: log 51] -/
def combineReqs (a b : Req) : Req :=
  match a.op.addend, b.op.addend with
  | some (w, x), some (_, y) =>
    { a with op := .amadd w (x + y) none, combined := a.shares 0#64 ++ b.shares x }
  | _, _ => a

/-- A combining record of a switch is taken (R105). -/
def takeRecordOf (key : Nat) (s : State) : State := { s with switches := tabMod s.switches key 0 fun n => n + 1 }

/-- A combining record is free again. -/
def freeRecordOf (key : Nat) (s : State) : State :=
  { s with switches := if tabGet s.switches key 0 ≤ 1 then tabDel s.switches key else tabMod s.switches key 0 fun n => n - 1 }

/-- The event AMADD_COMBINE: two requests reach a switch in the same bank cycle, `msg` at its upper input. A switch whose
eight records are in use passes both on, the upper first (R105). -/
def execAmaddCombine (msg msg2 : Nat) (s : State) : Result :=
  .next (match tabFind s.net msg, tabFind s.net msg2 with
    | some (.req a), some (.req b) =>
      match meetAt a b with
      | none => s
      | some key =>
        if ownHold s a || ownHold s b then s
        else
          let s' := (s.drop msg).drop msg2
          if tabGet s.switches key 0 ≥ 8 then arriveReq b (arriveReq a s')
          else (takeRecordOf key s').send (.req { combineReqs a b with joins := key :: (a.joins ++ b.joins) })
    | _, _ => s)

/-- The answer for one of the combined requests. [DESIGN CHOICE: log 51; DEDUCED: log 125] -/
def splitAnswer (op : MemOp) (delta : Word) : Answer → Answer
  | .value o _ _ =>
    match op.addend with
    | some (.w32, _) => .value (BitVec.ofNat 64 ((o + delta).toNat % 2 ^ 32)) 0#64 false
    | _ => .value (o + delta) 0#64 false
  | a => a

/-- The event AMADD_REPLY_SPLIT: each switch on the way splits the reply and frees its record. -/
def execAmaddReplySplit (msg : Nat) (s : State) : Result :=
  .next (match tabFind s.net msg with
    | some (.combined r a) =>
      overAll (fun x s => s.send (.reply x.2.1 x.1 0 r.pa (splitAnswer r.op x.2.2 a))) r.combined (overAll freeRecordOf r.joins (s.drop msg))
    | _ => s)

/-! ## Barrier operations (R99, R113) -/

/-- The event BARRIER_OP_ARRIVAL: an operation on an object with a held word joins its hold queue. -/
def execBarrierOpArrival (msg : Nat) (s : State) : Result :=
  .next (match tabFind s.net msg with
    | some (.barrier r recorded) =>
      if r.persists && backingOff s r.src then s else arriveBarrier { r with recorded := recorded } (s.drop msg)
    | _ => s)

/-! ## The phase tree (R120 to R122) -/

/-- The PHASE of a level that a slot has sent is over. -/
def endPhaseAcc (level k : Nat) (s : State) : State :=
  s.modSlot k fun sl => { sl with accs := sl.accs.filter fun a => !(a.committed && a.op == .phase level && a.st == .sent) }

/-- All live members have arrived: the root ends the phase, and the release leaves (R121). [DEDUCED: log 56] -/
def phaseTest (ctx : Nat) (s : State) : State :=
  match tabFind s.phases ctx with
  | none => s
  | some c =>
    if c.broken || c.members = [] || !c.members.all (fun m => c.arrived.contains m) ||
        s.net.any (fun p => p.2 == .phaseRelease ctx) then s
    else s.send (.phaseRelease ctx)

/-- A waiting member of a broken context takes BARRIER BROKEN before its next instance (R122). -/
def brokenPhase (level k : Nat) (s : State) : State :=
  pendTrap k { cause := causeBarrier, addr := 0, info := level, origin := 1 } (endPhaseAcc level k s)

/-- The event PHASE_TREE_ARRIVAL. -/
def execPhaseTreeArrival (msg : Nat) (s : State) : Result :=
  .next (match tabFind s.net msg with
    | some (.phaseArrive level k) =>
      match s.phaseOf k level with
      | none => endPhaseAcc level k (s.drop msg)
      | some (ctx, c) =>
        if c.broken then brokenPhase level k (s.drop msg)
        else phaseTest ctx { (s.drop msg) with phases := tabPut s.phases ctx { c with arrived := c.arrived ++ [k] } }
    | _ => s)

/-- The event PHASE_RELEASE: every member goes on. -/
def execPhaseRelease (msg : Nat) (s : State) : Result :=
  .next (match tabFind s.net msg with
    | some (.phaseRelease ctx) =>
      match tabFind s.phases ctx with
      | none => s.drop msg
      | some c =>
        overAll (endPhaseAcc c.level) c.arrived
          { (s.drop msg) with phases := tabPut s.phases ctx { c with arrived := [] } }
    | _ => s)

/-- A member leaves a context at its normal end (R122). [DEDUCED: log 56] -/
def leavePhase (k ctx : Nat) (s : State) : State :=
  match tabFind s.phases ctx with
  | none => s
  | some c =>
    let c' := { c with members := c.members.filter (fun m => m != k), arrived := c.arrived.filter fun m => m != k }
    phaseTest ctx { s with phases := tabPut s.phases ctx c' }

/-- A killed member is an error of every collective of the context that is not complete (R361). -/
def breakColls (ctx : Nat) (s : State) : State :=
  { s with collectives := s.collectives.map fun (p : Nat × Collective) =>
      if p.2.ctx = ctx ∧ !p.2.ready then (p.1, { p.2 with error := true }) else p }

/-- A member is killed: its context breaks, and its collectives are in error (R122, R361). [DEDUCED: log 56] -/
def breakPhase (k ctx : Nat) (s : State) : State :=
  match tabFind s.phases ctx with
  | none => s
  | some c =>
    let s := breakColls ctx s
    let c' := { c with broken := true, arrived := [], members := c.members.filter fun m => m != k }
    overAll (brokenPhase c.level) (c.arrived.filter fun m => m != k) { s with phases := tabPut s.phases ctx c' }

/-- The contexts of which a slot is a member. -/
def phasesOf (s : State) (k : Nat) : List Nat :=
  (s.phases.filter fun p => p.2.members.contains k).map fun p => p.1

end Sys2Proof.Machine
end

