-- ==== Sys2Proof/Machine/Context.lean ====
section
/-! DEFINITION. Saved contexts (R402, R403): the 1 KiB image of a thread, written through to backing memory. -/

namespace Sys2Proof.Machine

/-- DEADLINE with LIMIT reduced by the time already run; an expired limit stays at 1 (R218, R402). -/
def reducedDeadline (now : Nat) (sl : Slot) : Word :=
  let limit := fld sl.deadline.toNat 48 16
  let run := match sl.task with
    | some t => (now - t.start) / 4000
    | none => 0
  if limit = 0 then sl.deadline
  else BitVec.ofNat 64 (max 1 (limit - run) * 2 ^ 48 + sl.deadline.toNat % 2 ^ 48)

/-- The address of an entry of a cluster's context cache in backing memory (R402). -/
def contextAddr (s : State) (cl e : Nat) : Nat :=
  sysAddr (clusterModule cl) (fld (s.die (clusterDie cl)).ctxBase.toNat 16 32 * 65536 + (cl % 128 * 64 + e) * 1024)

/-- STATE of a context (R403). -/
def haltCode : Halt → Nat
  | .none => 0
  | .parked | .replay _ => 1
  | .fatal => 2
  | .software => 3

/-- PENDMASK (R402). -/
def pendMask (sl : Slot) : Nat :=
  ((List.range 64).filter fun r => sl.collPending.any fun p => p.2 == r && r != 0).foldl (fun m r => m + 2 ^ r) 0

/-- The words of an image from offset 0x200 on; REG is the granules of the saving core's files (R402). -/
def imageTail (sl : Slot) (reg : Nat) : List Word :=
  let el := match sl.task with
    | some t => t.element.getD (2 ^ 32 - 1)
    | none => 2 ^ 32 - 1
  let members := (List.range 4).flatMap fun i => match sl.members[i]? with
    | some m => [BitVec.ofNat 64 m.addr, BitVec.ofNat 64 (m.gen.getD 0)]
    | none => [0#64, 0#64]
  [BitVec.ofNat 64 sl.next, BitVec.ofNat 64 (sl.handle * 2 ^ 32 + el), sl.fpc, sl.feRetry, sl.cellInv, sl.sepEps,
   sl.sepBeta, sl.deadline,
   BitVec.ofNat 64 (sl.join + reg * 16 + coreNum (slotCore sl.savedFrom) * 256 + bitField (sl.unretired != []) * 2 ^ 21)] ++
    members ++ [sl.trapCause, sl.trapAddr, sl.trapBlock, sl.trapInfo, sl.trapVec,
      BitVec.ofNat 64 (sl.queued * 256 + haltCode sl.halt), BitVec.ofNat 64 (pendMask sl)]

/-- Write a thread's image to backing memory; a poisoned register's word is poisoned (R402). [DEDUCED: log 112] -/
def writeImage (cl e : Nat) (sl : Slot) (s : State) : State :=
  let a := contextAddr s cl e
  let put (off : Nat) (v : Word) (p : Bool) (s : State) : State := (s.putWord (a + off) v).setWordPoison (a + off) p
  let s := overAll (fun r s => put (8 * r) (sl.reg r).val (sl.reg r).poison s) (List.range 64) s
  let tail := imageTail sl (partReg (s.partition (slotCore sl.savedFrom)))
  overAll (fun i s => put (0x200 + 8 * i) (tail.getD i 0#64) false s) (List.range 64) s

/-- Change a saved context, wherever its image stands (R403). -/
def modContext (cl e : Nat) (f : Slot → Slot) (s : State) : State :=
  match tabFind (s.cluster cl).contexts e with
  | none => s
  | some sl => writeImage cl e (f sl) (s.modCluster cl fun x => { x with contexts := tabPut x.contexts e (f sl) })

/-- The saved context of which something holds, with its cluster and entry. -/
def findContext (s : State) (p : Slot → Bool) : Option (Nat × Nat × Slot) :=
  s.clusters.findSome? fun c => (c.2.contexts.find? fun q => p q.2).map fun q => (c.1, q.1, q.2)

/-- A copy, send, collective or refill of a saved thread fails: its record is queued at once, QUEUED grows and STATE is 10
(R403). -/
def contextTrap (cl e k : Nat) (t : Trap) (s : State) : State :=
  match tabFind (s.cluster cl).contexts e with
  | none => s
  | some sl =>
    let s := modContext cl e (fun x =>
      { x with halt := .fatal, queued := min 255 (x.queued + 1) }) s
    s.send (.record k (coreDie (slotCore k)) (recordWords k sl t) false false)

/-- The key of a saved context as a thread: slot keys lie below 2^64. -/
def contextKey (cl e : Nat) : Nat := 2 ^ 64 + 64 * cl + e

/-- A trap of a thread, in the slot that holds it or in its saved context (R393, R403). `from_` is the slot
that issued what failed. -/
def threadTrap (key from_ : Nat) (t : Trap) (s : State) : State :=
  if key ≥ 2 ^ 64 then contextTrap ((key - 2 ^ 64) / 64) ((key - 2 ^ 64) % 64) from_ t s else pendTrap key t s

/-- Change a thread, in the slot that holds it or in its saved context. -/
def modThread (key : Nat) (f : Slot → Slot) (s : State) : State :=
  if key ≥ 2 ^ 64 then modContext ((key - 2 ^ 64) / 64) ((key - 2 ^ 64) % 64) f s else s.modSlot key f

/-- A thread moves: what names it by its old key names it by the new one (R191, R402). -/
def renameThread (old new : Nat) (s : State) : State :=
  let r (k : Nat) : Nat := if k = old then new else k
  let child (sl : Slot) : Slot := { sl with parent := sl.parent.map r }
  { s with
    slots := s.slots.map fun (p : Nat × Slot) => (p.1, child p.2)
    clusters := s.clusters.map fun (p : Nat × Cluster) =>
      (p.1, { p.2 with contexts := p.2.contexts.map fun (q : Nat × Slot) => (q.1, child q.2) })
    phases := s.phases.map fun (p : Nat × PhaseCtx) =>
      (p.1, { p.2 with all := p.2.all.map r, members := p.2.members.map r, arrived := p.2.arrived.map r })
    collectives := s.collectives.map fun (p : Nat × Collective) =>
      (p.1, { p.2 with vals := p.2.vals.map fun v => { v with slot := r v.slot } })
    cores := s.cores.map fun (p : Nat × Core) =>
      (p.1, { p.2 with refills := p.2.refills.map fun x => { x with slot := r x.slot } }) }

end Sys2Proof.Machine
end

