-- ==== Sys2Proof/Machine/Copies.lean ====
section
/-! DEFINITION. Asynchronous copies: the copy instructions and timelines (R123, R124, R141, R336 to R338),
mailboxes and acceptance (R125 to R132, R143), the moving of rows (R133 to R136), and retirement (R137 to
R140, R117 to R119). Landing sends share them (R153). -/

namespace Sys2Proof.Machine

/-! ## Instructions -/

/-- The own-pail offset of an address, through either window (R13). -/
def ownOffset (c va : Nat) : Option Nat :=
  match regionOf va with
  | some (.own off) => some off
  | some (.remote t off) => if t = coreNum c then some off else none
  | _ => none

/-- A copy request or landing send is queued when it fires (R124, R150). -/
def queueCopy (form : Nat) (land : Bool) (ctx : Nat) (reuse : Bool) (l : BitVec 5) (o : Fired) (s : State) : State :=
  let k := o.slot
  let a := o.l.toNat
  let bad (cause reason : Nat) : State :=
    raise k { cause := cause, addr := a, info := addrInfo reason false false 0 none } s
  let backed := (ownOffset (slotCore k) a).isSome || match regionOf a with
    | some .global | some .tier2 | some .cxl => true
    | _ => false
  if a / 2 ^ 48 ≠ 0 then bad causeProtection 6
  else if a % 64 ≠ 0 then bad causeMisaligned 0xC
  else if regionOf a = some .control ∧ !systemSlot k then bad causeProtection 5
  else if !backed then bad causeProtection 7
  else
    match (s.slot k).inst with
    | none => s
    | some i =>
      let r : CopyReq := { inst := i.num, lsid := l.toNat, form := form, land := land, ctx := ctx, reuse := reuse, pba := a }
      resolveLsid k l.toNat (setNode o .fired (s.modInst k fun x => { x with copies := x.copies ++ [r] }))

/-- The timeline counter of a context (R127). -/
def Core.tl (c : Core) (ctx : Nat) : Nat := tabGet c.timeline ctx 0

/-- TLWAIT's wait is over: its tokens are sent (R141). -/
def tlwaitDone (i : Instr) (k n ctx : Nat) (s : State) : State :=
  let v := BitVec.ofNat 64 ((s.core (slotCore k)).tl ctx)
  sendTokens k ((formOf i).send (.data v false)) (s.modInst k fun j => j.modNode n fun x => { x with st := .fired })

/-- The oldest mailbox that is full and not taken (R125, R337). -/
def oldestMailbox (c : Core) : Option (Nat × Mailbox) :=
  (c.mailboxes.filter fun p => p.2.full && !p.2.taken).foldl (fun (m : Option (Nat × Mailbox)) p => match m with
    | some q => if p.2.order < q.2.order then some p else some q
    | none => some p) none

/-- MBXR takes a mailbox: the state word and the number are sent (R337). -/
def mbxrTake (t u : Tgt) (k n : Nat) (s : State) : State :=
  let c := slotCore k
  match oldestMailbox (s.core c) with
  | none => s.modInst k fun j => j.modNode n fun x => { x with st := .waiting }
  | some (m, _) =>
    let v := (s.core c).mbWord m
    let s := s.modCore c fun x => { x with mailboxes := tabMod x.mailboxes m {} fun y => { y with taken := true } }
    let s := s.modInst k fun j =>
      (j.modNode n fun x => { x with st := .fired }).putAction n (.mbxTaken m)
    sendTokens k [(t, .data v false), (u, .data (BitVec.ofNat 64 m) false)] s

/-- The instance has taken a mailbox with MBXR (R338). [DEDUCED: log 127] -/
def Inst.hasTaken (i : Inst) (m : Nat) : Bool := i.actions.any fun p => p.2 == .mbxTaken m

/-- A system-level opcode in a program slot raises PROTECTION (R283). -/
def systemShell (i : Instr) (body : Fired → State → State) : State → State :=
  fire i fun o s =>
    if !systemSlot o.slot then raise o.slot levelFault s
    else if o.poison then raise o.slot poisonToken s
    else body o s

/-- TLWAIT (R141). -/
def execTlwait (p : Pred) (t : Tgt) (u : Tgt) (c : BitVec 3) (s : State) : Result :=
  .next (checkedShell (.tlwait p t u c) (fun o s =>
    if o.l.toNat ≤ (s.core (slotCore o.slot)).tl c.toNat then tlwaitDone (.tlwait p t u c) o.slot o.node c.toNat s
    else setNode o .waiting s) s)

/-- TLRD (R336). -/
def execTlrd (p : Pred) (t : Tgt) (u : Tgt) (issue : Bool) (c : BitVec 3) (s : State) : Result :=
  .next (checkedShell (.tlrd p t u issue c) (fun o s =>
    let co := s.core (slotCore o.slot)
    finish (.tlrd p t u issue c) o (.data (BitVec.ofNat 64 (if issue then tabGet co.issue c.toNat 0 else co.tl c.toNat)) false) s) s)

/-- The engine to which the vendor's movement routine submits, one for every four clusters (R128). -/
def vendorEngine (core : Nat) : Nat := coreNum core % 2048 / 64

/-- A movement routine may choose an engine: the vendor's, or any of the die at the expert level (R128, R417).
[DEDUCED: log 127] -/
def engineAllowed (s : State) (core engine : Nat) : Bool :=
  decide (engine ≤ 31) && (engine == vendorEngine core || expertFor s (coreModule core) ((s.core core).launch % 2 ^ 48) 1)

/-- MBXW (R338). [DEDUCED: log 127] -/
def execMbxw (p : Pred) (t : Tgt) (u : Tgt) (s : State) : Result :=
  .next (systemShell (.mbxw p t u) (fun o s =>
    let taken : Bool := match (s.slot o.slot).inst with
      | some i => i.hasTaken o.l.toNat
      | none => false
    if 3 < o.l.toNat ∨ ¬engineAllowed s (slotCore o.slot) o.r.toNat ∨ ¬taken then raise o.slot (illegalAt o.node) s
    else finish (.mbxw p t u) o (.data 0#64 false) (s.modInst o.slot fun i => i.putAction o.node (.mbxw o.l.toNat o.r.toNat))) s)

/-- MBXR (R337). -/
def execMbxr (p : Pred) (t : Tgt) (u : Tgt) (s : State) : Result :=
  .next (systemShell (.mbxr p t u) (fun o s => mbxrTake t u o.slot o.node s) s)

/-- CPY (R124). -/
def execCpy (p : Pred) (l : BitVec 5) (reuse : Bool) (c : BitVec 3) (s : State) : Result :=
  .next (checkedShell (.cpy p l reuse c) (queueCopy 0 false c.toNat reuse l) s)

/-- CPYX (R124). -/
def execCpyx (p : Pred) (l : BitVec 5) (reuse : Bool) (c : BitVec 3) (s : State) : Result :=
  .next (checkedShell (.cpyx p l reuse c) (queueCopy 1 false c.toNat reuse l) s)

/-- CPYT (R124). -/
def execCpyt (p : Pred) (l : BitVec 5) (reuse : Bool) (c : BitVec 3) (s : State) : Result :=
  .next (checkedShell (.cpyt p l reuse c) (queueCopy 2 false c.toNat reuse l) s)

/-- CPYS (R124). -/
def execCpys (p : Pred) (l : BitVec 5) (reuse : Bool) (c : BitVec 3) (s : State) : Result :=
  .next (checkedShell (.cpys p l reuse c) (queueCopy 3 false c.toNat reuse l) s)

/-- LZSEND: the checks and the queueing of a copy, on context TL7 (R150, R153). -/
def execLzsend (p : Pred) (l : BitVec 5) (reuse : Bool) (s : State) : Result :=
  .next (checkedShell (.lzsend p l reuse) (queueCopy 0 true 7 reuse l) s)

/-! ## Hand-off (R81, R82, R125, R127) -/

/-- What the hand-off of a request waits for: commit-time operations of earlier instances, the stores of its own, and whatever
of its own precedes it, so that it sees every write before it in program order (R81). [DEDUCED: log 57] -/
def handoffWaits (sl : Slot) (r : CopyReq) : Bool :=
  sl.accs.any fun a => a.committed && (a.inst < r.inst || (a.inst == r.inst && (decide (a.lsid < r.lsid) || match a.op with
    | .store _ _ _ _ | .stff _ _ | .rel _ _ | .stsync _ _ | .bytes _ _ => true
    | _ => false)))

/-- Hand the first request of a slot to the next mailbox, and number it. -/
def handoff (k : Nat) (s : State) : State :=
  let sl := s.slot k
  let c := slotCore k
  let co := s.core c
  match sl.copies with
  | [] => s
  | r :: rest =>
    if (tabGet co.mailboxes co.nextMbx {}).full || handoffWaits sl r then s
    else
      let n := tabGet co.issue r.ctx 0 + 1
      let after := if r.eng then tabPut sl.engAfter r.ctx (n - 1) else sl.engAfter
      let id := s.nextId
      let cp : Copy := { slot := k, req := r, number := n, after := tabGet after r.ctx 0 }
      let box : Mailbox := { full := true, req := some r, slot := slotNum k, number := n, order := id }
      let s := { s with copies := tabPut s.copies id cp, nextId := id + 1 }
      let s := s.modSlot k fun x => { x with copies := rest, unretired := x.unretired ++ [id], engAfter := after }
      s.modCore c fun x => { x with
        issue := tabPut x.issue r.ctx n, mailboxes := tabPut x.mailboxes co.nextMbx box
        nextMbx := (co.nextMbx + 1) % 4, handed := co.handed + 1 }

/-- The event MAILBOX_HANDOFF. -/
def execMailboxHandoff (slot : Nat) (s : State) : Result := .next (handoff slot s)

/-! ## The parameter block (R129, R130, R153) -/

/-- A word of a copy's snapshot. -/
def Copy.w (c : Copy) (i : Nat) : Nat := (c.block.getD i 0#64).toNat
/-- NX, NY, NZ, ESZ and DIR of SHAPE. -/
def Copy.nx (c : Copy) : Nat := fld (c.w 2) 0 16
/-- NY. -/
def Copy.ny (c : Copy) : Nat := fld (c.w 2) 16 16
/-- NZ. -/
def Copy.nz (c : Copy) : Nat := fld (c.w 2) 32 16
/-- ESZ. -/
def Copy.esz (c : Copy) : Nat := fld (c.w 2) 48 3
/-- DIR. -/
def Copy.dir (c : Copy) : Bool := bitOf (c.w 2) 51
/-- Bytes of a row. -/
def Copy.rowBytes (c : Copy) : Nat := c.nx * 2 ^ c.esz
/-- Rows in all. -/
def Copy.rows (c : Copy) : Nat := if c.req.form = 0 then c.ny * c.nz else if c.nz = 0 then 0 else c.ny
/-- Bytes in all. -/
def Copy.total (c : Copy) : Nat := c.rows * c.rowBytes
/-- A signed 32-bit field. -/
def signed32 (w lo : Nat) : Int := (BitVec.ofNat 32 (fld w lo 32)).toInt
/-- Some extent is 0 (R137). -/
def Copy.zeroExtent (c : Copy) : Bool := c.nx == 0 || c.ny == 0 || c.nz == 0

/-- A zone name that R151 admits. -/
def zoneNameOk (n : Nat) : Bool := n / 2 ^ 28 == 0

/-- The parameter block is malformed (R130, R153). -/
def Copy.malformed (c : Copy) : Bool :=
  let e := 2 ^ c.esz
  let odd (n : Nat) : Bool := n % e != 0
  let form := c.req.form
  let land := c.req.land
  let sy := c.w 3 % 2 ^ 32
  let sz := c.w 3 / 2 ^ 32
  let dy := c.w 4 % 2 ^ 32
  let dz := c.w 4 / 2 ^ 32
  let shape := c.w 2 / 2 ^ 52 != 0 || (c.dir && form != 1) || decide (c.esz > 3)
  let landBad := land && (!zoneNameOk (c.w 1) || c.w 4 != 0 || c.w 6 / 2 ^ 61 != 0)
  let stat := c.w 7 % 8 != 0
  if c.zeroExtent then shape || landBad
  else
    shape || landBad || stat || odd (c.w 0) || (!land && odd (c.w 1)) || odd sy || odd sz || odd dy || odd dz ||
      c.w 5 % 16 != 0 || (form != 0 && decide (c.nz > 1)) ||
      (match form with
        | 0 => !land && c.w 6 != 0
        | 1 => c.w 6 % 4 != 0
        | 2 => decide (c.w 6 ≥ 8) || decide (c.ny > 32) || decide (c.rowBytes > 64) || c.w 1 != 0 || c.w 4 != 0
        | _ => decide (c.w 6 ≥ 8192) || c.w 1 != 0 || dz != 0 || decide (dy ≥ 2 ^ 31) || dy % 8 != 0 ||
            decide (c.w 6 + (c.ny - 1) * dy + c.rowBytes > 8192))

/-! ## The scoreboard (R84, R143) -/

/-- The span of a strided side that begins at a pail offset, clamped to the pool. -/
def stridedSpan (c : Copy) (base strides : Nat) : Nat × Nat :=
  let sy := signed32 strides 0
  let sz := signed32 strides 32
  let ys : Int := sy * ((c.ny : Int) - 1)
  let zs : Int := if c.req.form = 0 then sz * ((c.nz : Int) - 1) else 0
  let lo : Int := base + min 0 ys + min 0 zs
  let hi : Int := base + max 0 ys + max 0 zs + c.rowBytes
  (lo.toNat, min hi.toNat 0x18000)

/-- The scoreboard entries of an accepted copy, none where it has no bytes (R137, R143, R153). -/
def copyRanges (id : Nat) (c : Copy) : List Range :=
  if c.zeroExtent then [] else
  let core := slotCore c.slot
  let side (va strides : Nat) (indexed write : Bool) : List Range :=
    match ownOffset core va with
    | none => []
    | some off =>
      let (lo, hi) := if indexed then (0, 0x18000) else stridedSpan c off strides
      [{ copy := id, lo := lo, hi := hi, write := write, scale := false }]
  let x := c.req.form = 1
  side (c.w 0) (c.w 3) (x && !c.dir) false ++
    (if c.req.land || c.req.form ≥ 2 then [] else side (c.w 1) (c.w 4) (x && c.dir) true) ++
    (if x then (match ownOffset core (c.w 6) with
      | some off => [{ copy := id, lo := off, hi := min (off + 4 * c.ny) 0x18000, write := false, scale := false }]
      | none => []) else []) ++
    (if c.req.form = 3 then
      [{ copy := id, lo := c.w 6, hi := c.w 6 + (c.ny - 1) * (c.w 4 % 2 ^ 32) + c.rowBytes, write := true, scale := true }]
    else [])

/-! ## Traps of copies (R139, R154) -/

/-- A trap of a retired copy: ORIGIN 10, never replayable (R139, R390). -/
def Copy.trapOf (c : Copy) (t : Trap) : Trap :=
  { t with origin := 2, replay := false, seq := c.number, block := c.req.pba + c.req.ctx }

/-- LANDING FAILURE (R154, R391). [DEDUCED: log 65] -/
def landingFault (addr reason module : Nat) : Trap :=
  { cause := causeLanding, addr := addr, info := addrInfo reason false false 0 (some module) }

/-- LANDING FAILURE by a source fault: the fault's own fields, with the target's module (R33, R154).
[DEDUCED: log 65] -/
def landingSource (t : Trap) (module : Nat) : Trap :=
  { t with cause := causeLanding, info := t.info % 2 ^ 10 + 2 ^ 10 + module * 2 ^ 16 }

/-- A copy has come to its end with a CODE, and perhaps a trap. -/
def endCopy (id code : Nat) (t : Option Trap) (s : State) : State :=
  s.modCopy id fun c => { c with code := some code, trap := t.map c.trapOf }

/-! ## Acceptance (R117, R119, R128, R131, R132) -/

/-- The level and address space of a copy's accesses. -/
def Copy.want (c : Copy) (va size : Nat) (u : Use) : Want :=
  { core := slotCore c.slot, sys := systemSlot c.slot, va := va, size := size, use := u }

/-- What an agent's read of bytes meets. -/
inductive Got where
  | data (v : Nat)
  | fault (t : Trap)
  /-- a word is held: the read waits for its turn there (R99) -/
  | wait (w : Nat)
  deriving DecidableEq, Repr, Inhabited

/-- POISON met by a copy or an agent at an address (R63). [DEDUCED: log 62] -/
def poisonAt (va pa : Nat) : Trap := { cause := causePoison, addr := va, info := dataInfo (errorSource pa) 0 0 false }

/-- Read an aligned value of up to 8 bytes at the place that the checks of R32 have found (R99, R131). -/
def readAt (s : State) (src : Source) (w : Want) : Checked → Got
  | .fault t => .fault t
  | .miss => .wait 0
  | .at pa =>
    if !mayTake s src (pa / 8) then .wait (pa / 8)
    else if s.wordPoisoned pa then .fault (poisonAt w.va pa)
    else .data (s.readN pa w.size)

/-- The read of an agent of a core, which translates at once. -/
def agentRead (s : State) (src : Source) (w : Want) : Got := readAt s src w (checkWalk s w)

/-- The engine of a die. -/
def State.engine (s : State) (d e : Nat) : Engine := tabGet (s.die d).engines e {}
/-- Change it. -/
def State.modEngine (s : State) (d e : Nat) (f : Engine → Engine) : State :=
  s.modDie d fun x => { x with engines := tabMod x.engines e {} f }

/-- The checks of an access of a copy, under its engine's own entries (R37, R133). -/
def Copy.check (s : State) (c : Copy) (w : Want) : Checked := checkWith (s.engine (coreDie (slotCore c.slot)) c.engine).tlb s w

/-- The engine keeps a translation that it has made, until a TLBI drops it (R37). [DESIGN CHOICE: log 136] -/
def Copy.keep (c : Copy) (w : Want) (s : State) : State :=
  let d := coreDie (slotCore c.slot)
  match checkRoot s w, cachedEntry (s.engine d c.engine).tlb s w, walkNow s w with
  | none, none, .leaf level e =>
    s.modEngine d c.engine fun x => { x with tlb := x.tlb ++ [tlbOf (s.core w.core).xlatAsid.toNat level e w.va] }
  | _, _, _ => s

/-- The same for every unit of a side. -/
def Copy.keepAll (c : Copy) (u : Use) (us : List (Nat × Nat)) (s : State) : State :=
  overAll (fun p => c.keep (c.want p.1 1 u)) us s

/-- Read the eight words of a parameter block: the words, the fault, or the word at which the read waits (R131). -/
def readBlock (s : State) (id : Nat) (c : Copy) : Nat → Except (Trap ⊕ Nat) (List Word)
  | 0 => .ok []
  | n + 1 =>
    match readBlock s id c n with
    | .error e => .error e
    | .ok ws =>
      let w := c.want (c.req.pba + 8 * n) 8 .load
      match readAt s (.copy id) w (c.check s w) with
      | .data v => .ok (ws ++ [BitVec.ofNat 64 v])
      | .fault t => .error (.inl t)
      | .wait x => .error (.inr x)

/-- The writer that an engine's write names (R401). -/
def Copy.writer (c : Copy) : Writer :=
  { kind := if c.req.land then 2 else 1, module := slotModule c.slot, core := coreNum (slotCore c.slot)
    slot := slotNum c.slot, engine := if c.req.land then 0 else c.engine }

/-- The barrier object of a tagged copy: its system address, or why there is none. -/
def copyBar (s : State) (c : Copy) : Checked :=
  if c.w 5 = 0 then .miss else c.check s (c.want (c.w 5) 16 .barWrite)

/-- The word of a barrier object, or of none at 0, at which a party must wait. -/
def barBusy (s : State) (src : Source) (pa : Nat) : Option Nat :=
  if pa = 0 then none else firstBusy s src [pa / 8, pa / 8 + 1]

/-- The engine takes a request, or refuses it with a back-off hint (R132). [DEDUCED: log 60] -/
def engineTake (id : Nat) (s : State) : State :=
  match tabFind s.copies id with
  | none => s
  | some c =>
    let d := coreDie (slotCore c.slot)
    if (s.engine d c.engine).queue.length < 16 then
      (s.modEngine d c.engine fun e => { e with queue := e.queue ++ [id] }).modCopy id fun x => { x with accepted := true }
    else
      let (h, s) := s.free
      let s := s.modCore (slotCore c.slot) fun x => { x with refusals := x.refusals + 1 }
      s.modCopy id fun x => { x with notBefore := s.now + max (h.toNat % 256) 1 * 64 }

/-- The object of a copy that has not been accepted, where it can be reached (R118, R119). -/
def Copy.named (s : State) (c : Copy) : Copy :=
  { c with tagged := false, bar := match copyBar s c with
      | .at pa => pa
      | .fault _ | .miss => 0 }

/-- The copy ends where it stands at acceptance: it moves nothing, and retires with its CODE. [DEDUCED: log 54] -/
def refuseCopy (id : Nat) (c : Copy) (code : Nat) (t : Option Trap) (s : State) : State :=
  endCopy id code t (endTurn (.copy id) { s with copies := tabPut s.copies id (c.named s) })

/-- Steps 3 to 5 of R128, once the block has been read and is well formed; the addition to PENDING comes
first, and overflow or the fault of the BAR address leaves the object as it was (R117, R119). -/
def acceptCopy (id : Nat) (c : Copy) (s : State) : State :=
  let core := slotCore c.slot
  let add (s : State) : Answer × Copy × State :=
    match copyBar s c with
    | .fault t => (.fault t, c, s)
    | .miss => (.ack, c, s)
    | .at pa =>
      if objectPoisoned s pa then (.full, c, s)
      else
        let b := readBar s pa
        if b.counts then (.ack, { c with bar := pa }, s)
        else if b.pending + c.total > barMax then (.full, c, s)
        else (.ack, { c with bar := pa, tagged := true }, modBar c.writer pa (fun b => { b with pending := b.pending + c.total }) s)
  match add s with
  | (.fault t, c, s) => endCopy id 2 (some t) { s with copies := tabPut s.copies id { c with bar := 0 } }
  | (.full, c, s) => endCopy id 4 none { s with copies := tabPut s.copies id c }
  | (_, c, s) =>
    let s := { s with copies := tabPut s.copies id c }
    let s := s.modCore core fun x => { x with
      scoreboard := x.scoreboard ++ copyRanges id c
      busyTiles := if c.req.form = 2 then x.busyTiles ++ [(c.w 6, id)] else x.busyTiles }
    engineTake id s

/-- The parameter-block cache of an engine holds a block (R131). [DEDUCED: log 61] -/
def cachedBlock (s : State) (d e asid pba : Nat) : Option PbEntry :=
  (s.engine d e).cache.find? fun x => x.asid == asid && x.pba == pba

/-- Put a block at the young end of a cache of 32 entries (R131). [DEDUCED: log 61] -/
def keepBlock (d e : Nat) (x : PbEntry) (s : State) : State :=
  s.modEngine d e fun g =>
    let rest := g.cache.filter fun y => !(y.asid == x.asid && y.pba == x.pba)
    { g with cache := (if rest.length ≥ 32 then rest.drop 1 else rest) ++ [x] }

/-- Too few scoreboard entries are free: submission waits (R128). -/
def submitWaits (s : State) (id : Nat) (c : Copy) : Bool :=
  decide ((s.core (slotCore c.slot)).scoreboard.length + (copyRanges id c).length > 16)

/-- The word of the object named at which the addition to PENDING waits (R99, R117). -/
def additionWaits (s : State) (id : Nat) (c : Copy) : Option Nat :=
  match copyBar s c with
  | .at pa => barBusy s (.copy id) pa
  | .fault _ | .miss => none

/-- Steps 2 to 5 of R128 for a copy whose block has been read: it is checked, and then waits for scoreboard entries, and for
its turn at the object that it names; `taken` empties its mailbox. A zero-extent copy whose STAT is not 8-byte aligned is
no malformed one by R130's order of checks, and writes no status word. [DEDUCED: log 55; DESIGN CHOICE: log 135] -/
def submitBlock (id : Nat) (c : Copy) (taken : State → State) (s : State) : State :=
  if c.malformed then refuseCopy id c 3 (some { cause := causeIllegal, addr := c.req.pba, info := illegalInfo 0xFC 0 }) (taken s)
  else if c.zeroExtent && !c.req.land then refuseCopy id c 0 none (taken s)
  else if c.req.form = 2 && !ownsUnit s c.slot .tile (c.w 6) then
    refuseCopy id c 5 (some { unownedFault .tile (c.w 6) with addr := c.req.pba }) (taken s)
  else if submitWaits s id c then s
  else match additionWaits s id c with
    | some w => waitTurn (.copy id) w s
    | none => endTurn (.copy id) (acceptCopy id c (taken s))

/-- Steps 2 to 5 of R128 for the request of a mailbox; it stays there while submission waits. [DEDUCED: log 55] -/
def submitCopy (core mbx engine : Nat) (s : State) : State :=
  let box := tabGet (s.core core).mailboxes mbx {}
  match tabFind s.copies box.order with
  | none => s
  | some c0 =>
    let c := { c0 with engine := engine }
    if !box.full then s
    else
      let id := box.order
      let d := coreDie core
      let asid := (s.core core).xlatAsid.toNat
      let empty (s : State) : State :=
        s.modCore core fun x => { x with mailboxes := tabMod x.mailboxes mbx {} fun y => { y with full := false, taken := false } }
      let got := if c.req.reuse then (match cachedBlock s d engine asid c.req.pba with
          | some e => .ok e.words
          | none => readBlock s id c 8)
        else readBlock s id c 8
      match got with
      | .error (.inr w) => waitTurn (.copy id) w s
      | .error (.inl t) => endCopy id 2 (some t) (endTurn (.copy id) (empty { s with copies := tabPut s.copies id c }))
      | .ok ws =>
        submitBlock id { c with block := ws } (fun s =>
          keepBlock d engine { asid := asid, pba := c.req.pba, words := ws } (c.keepAll .load [(c.req.pba, 64)] (empty s))) s

/-- The event COPY_SUBMIT: the vendor's movement routine takes the oldest full mailbox, and submits to
engine c[10:6] of the core's die (R128). -/
def execCopySubmit (core : Nat) (s : State) : Result :=
  .next (match oldestMailbox (s.core core) with
    | some (m, _) => submitCopy core m (vendorEngine core) s
    | none => s)

/-- The event ENGINE_REFUSAL_RESUBMIT (R132). [DEDUCED: log 60] -/
def execEngineRefusalResubmit (core copy : Nat) (s : State) : Result :=
  .next (match tabFind s.copies copy with
    | some c =>
      if slotCore c.slot = core ∧ ¬c.accepted ∧ c.code = none ∧ c.block ≠ [] ∧ c.notBefore ≤ s.now then engineTake copy s else s
    | none => s)

/-! ## Rows (R133 to R136) -/

/-- The units of a run of bytes, each with its size: the aligned 8-byte words, and one by one the bytes of an unaligned start
or end (R57). [DEDUCED: log 59] -/
def unitAddrs (va n : Nat) : List (Nat × Nat) :=
  let first := min n ((8 - va % 8) % 8)
  let whole := (n - first) / 8
  let tail := va + first + 8 * whole
  (List.range first).map (fun i => (va + i, 1)) ++ (List.range whole).map (fun i => (va + first + 8 * i, 8)) ++
    (List.range (n - first - 8 * whole)).map fun i => (tail + i, 1)

/-- Check the units of one side of a row: the system address of each, or the first fault (R133). [DEDUCED: log 59] -/
def checkUnits (s : State) (c : Copy) (u : Use) : List (Nat × Nat) → Except Trap (List (Nat × Nat))
  | [] => .ok []
  | (va, n) :: rest =>
    match c.check s (c.want va 1 u) with
    | .fault t => .error t
    | .miss => .error (addrFault (c.want va 1 u) causeTranslation 1 4)
    | .at pa =>
      match checkUnits s c u rest with
      | .error t => .error t
      | .ok xs => .ok ((pa, n) :: xs)

/-- The bytes of units, each with the poison of its word. [DEDUCED: log 62] -/
def unitBytes (s : State) : List (Nat × Nat) → List (Byte × Bool)
  | [] => []
  | (pa, n) :: rest => (s.bytesAt pa n).map (fun b => (b, s.wordPoisoned pa)) ++ unitBytes s rest

/-- Write the units of a destination, one after the other: a unit with a poisoned byte is written poisoned, a whole clean one
clears poison, and a partial one leaves it (R57, R59); each then does what its acknowledgement brings, by its bytes (R117,
R157). [DEDUCED: log 62] -/
def writeUnits (wr : Writer) (ack : Nat → State → State) : List (Nat × Nat) → List (Byte × Bool) → State → State
  | [], _, s => s
  | (pa, n) :: rest, bs, s =>
    let now := bs.take n
    let bad := now.any fun b => b.2
    let s := if bad then s.setWordPoison pa true else if n = 8 then s.setWordPoison pa false else s
    writeUnits wr ack rest (bs.drop n) (ack n (writeMem wr pa (now.map fun b => b.1) s))

/-- Where a row lies: its source and its destination, or the fault of its index (R134). -/
inductive RowPlace where
  | at (src dst : Nat)
  | fault (t : Trap)
  | wait (w : Nat)
  deriving DecidableEq, Repr, Inhabited

/-- Wrap an address modulo 2^64 (R129). -/
def wrapAddr (a : Int) : Nat := (a % 2 ^ 64).toNat

/-- The place of the next row (R129, R134). -/
def Copy.place (s : State) (id : Nat) (c : Copy) : RowPlace :=
  let row := c.row
  let sy := signed32 (c.w 3) 0
  let sz := signed32 (c.w 3) 32
  let dy := signed32 (c.w 4) 0
  let dz := signed32 (c.w 4) 32
  if c.req.form = 1 then
    let w := c.want (wrapAddr (c.w 6 + 4 * row : Nat)) 4 .copyRead
    match readAt s (.copy id) w (c.check s w) with
    | .fault t => .fault t
    | .wait w => .wait w
    | .data i =>
      if c.dir then .at (wrapAddr (c.w 0 + row * sy)) (wrapAddr (c.w 1 + i * dy))
      else .at (wrapAddr (c.w 0 + i * sy)) (wrapAddr (c.w 1 + row * dy))
  else
    let z := row / c.ny
    let y := row % c.ny
    .at (wrapAddr (c.w 0 + z * sz + y * sy)) (wrapAddr (c.w 1 + z * dz + y * dy))

/-- The destination units of a row. -/
def rowTarget (s : State) (c : Copy) (dst : Nat) : Except Trap (List (Nat × Nat)) :=
  let core := slotCore c.slot
  match c.req.form with
  | 2 => .ok (unitAddrs (tileAddr s core (c.w 6) + 64 * c.row) c.rowBytes)
  | 3 => .ok (unitAddrs (scaleBase core + c.w 6 + c.row * (c.w 4 % 2 ^ 32)) c.rowBytes)
  | _ => checkUnits s c .copyWrite (unitAddrs dst c.rowBytes)

/-- A row fails: PARTIAL for a later row of CPYX, else FAULT with its trap (R133, R134). -/
def rowFails (id : Nat) (c : Copy) (t : Trap) (s : State) : State :=
  if c.req.form = 1 ∧ c.row ≠ 0 then endCopy id 1 none s else endCopy id 2 (some t) s

/-- An instance of a core has staged writes to a tile or to a range of the scale memory (R244). -/
def stagedBusy (s : State) (c : Copy) : Bool :=
  match (s.core (slotCore c.slot)).claim with
  | none => false
  | some (k, _) => match (s.slot k).inst with
    | none => false
    | some i => (c.req.form == 2 && i.staged.tiles.contains (c.w 6)) ||
        (c.req.form == 3 && i.staged.bytes.any fun p =>
          decide (scaleBase (slotCore c.slot) + c.w 6 ≤ p.1) &&
            decide (p.1 < scaleBase (slotCore c.slot) + c.w 6 + (c.ny - 1) * (c.w 4 % 2 ^ 32) + c.rowBytes))

/-- The copy may move now: copies before a FENCE at ENG have retired, and a busy tile is its own (R82,
R135, R244). [DEDUCED: log 58] -/
def copyMayMove (s : State) (id : Nat) (c : Copy) : Bool :=
  c.accepted && c.code.isNone && decide (c.after ≤ (s.core (slotCore c.slot)).tl c.req.ctx) && !stagedBusy s c &&
    (c.req.form != 2 || match (s.core (slotCore c.slot)).busyTiles.find? fun p => p.1 == c.w 6 with
      | some p => p.2 == id
      | none => true)

/-- The bytes of a unit have been acknowledged: a tagged copy subtracts them (R117). -/
def Copy.land (c : Copy) (n : Nat) (s : State) : State :=
  if c.tagged then modBar c.writer c.bar (fun b => b.landed n) s else s

/-- The word at which the units of a row, or the object of a tagged copy, make it wait (R77, R99, R117). -/
def unitsBusy (s : State) (id : Nat) (c : Copy) (us : List (Nat × Nat)) : Option Nat :=
  (firstBusy s (.copy id) (us.map fun p => p.1 / 8)) <|> (if c.tagged then barBusy s (.copy id) c.bar else none)

/-- The engine keeps the translations of a row (R37). -/
def Copy.keepRow (c : Copy) (src dst : Nat) (s : State) : State :=
  let s := c.keepAll .copyRead (unitAddrs src c.rowBytes) s
  if c.req.form ≥ 2 then s else c.keepAll .copyWrite (unitAddrs dst c.rowBytes) s

/-- Move one row of a copy, unit by unit, or find that all have been moved (R133). [DEDUCED: log 58] -/
def moveRow (id : Nat) (c : Copy) (s : State) : State :=
  if c.row ≥ c.rows then endCopy id 0 none s
  else match c.place s id with
    | .wait w => waitTurn (.copy id) w s
    | .fault t => rowFails id c t (endTurn (.copy id) s)
    | .at src dst =>
      match checkUnits s c .copyRead (unitAddrs src c.rowBytes), rowTarget s c dst with
      | .error t, _ => rowFails id c t (endTurn (.copy id) s)
      | .ok _, .error t => rowFails id c t (endTurn (.copy id) s)
      | .ok from_, .ok into =>
        match unitsBusy s id c (from_ ++ into) with
        | some w => waitTurn (.copy id) w s
        | none =>
          let s := writeUnits c.writer c.land into (unitBytes s from_) (c.keepRow src dst s)
          endTurn (.copy id) (s.modCopy id fun x => { x with row := x.row + 1 })

/-- Rows of a landing send, as the addresses of its packed payload bytes `lo` to `hi` (R153). -/
def payloadUnits (c : Copy) (lo hi : Nat) : List (Nat × Nat) :=
  let n := c.rowBytes
  (List.range (hi - lo)).map fun i =>
    let b := lo + i
    let row := b / n
    (wrapAddr (c.w 0 + (row / c.ny) * signed32 (c.w 3) 32 + (row % c.ny) * signed32 (c.w 3) 0 + (b % n)), 1)

/-- The module that a zone name names. -/
def zoneModule (name : Nat) : Nat := fld name 0 13
/-- Its core's key. -/
def zoneCore (name : Nat) : Nat := zoneModule name * 8192 + fld name 13 13
/-- Its zone. -/
def zoneNum (name : Nat) : Nat := fld name 26 2

/-- Send the next packet of a landing send, of at most 256 bytes (R153); a source fault aborts it (R154).
[DEDUCED: log 63] -/
def movePacket (id : Nat) (c : Copy) (s : State) : State :=
  let hi := min c.total (c.sent + 256)
  if c.sentAt.isSome then s
  else match checkUnits s c .copyRead (payloadUnits c c.sent hi) with
    | .error t =>
      (endCopy id 6 (some (landingSource t (zoneModule (c.w 1)))) (endTurn (.copy id) s)).inject (slotCore c.slot)
        (zoneModule (c.w 1)) (c.w 1) (.abort id c.slot (c.w 1) (c.w 6))
    | .ok us =>
      match firstBusy s (.copy id) (us.map fun p => p.1 / 8) with
      | some w => waitTurn (.copy id) w s
      | none =>
        let s := (c.keepAll .copyRead (payloadUnits c c.sent hi) s).inject (slotCore c.slot) (zoneModule (c.w 1)) (c.w 1)
          (.landing id c.slot (c.w 1) (c.w 6) c.total c.sent (unitBytes s us))
        endTurn (.copy id) (s.modCopy id fun x => { x with sent := hi, sentAt := if hi = c.total then some s.now else none })

/-- The event COPY_ROW_TRANSFER. -/
def execCopyRowTransfer (copy : Nat) (s : State) : Result :=
  .next (match tabFind s.copies copy with
    | some c => if copyMayMove s copy c then (if c.req.land then movePacket copy c s else moveRow copy c s) else s
    | none => s)

/-! ## Retirement (R127, R138 to R140) -/

/-- Count retired numbers on a context, in number order (R127). -/
def advanceTimeline (ctx : Nat) : Nat → Core → Core
  | 0, c => c
  | n + 1, c =>
    let next := c.tl ctx + 1
    if c.retired.contains (ctx, next) then
      advanceTimeline ctx n { c with timeline := tabPut c.timeline ctx next, retired := c.retired.erase (ctx, next) }
    else c

/-- A request on a context has retired (R127, R140). -/
def retireNumber (core ctx n : Nat) (ok : Bool) (s : State) : State :=
  s.modCore core fun c =>
    let c := { c with retired := c.retired ++ [(ctx, n)]
                      tlerr := if ok then c.tlerr else c.tlerr ||| BitVec.ofNat 64 (2 ^ ctx) }
    advanceTimeline ctx c.retired.length c

/-- The thread that issued a copy takes its trap, in the slot that holds it or in its saved context
(R139, R403). -/
def copyTrap (id : Nat) (c : Copy) (t : Trap) (s : State) : State :=
  match s.slots.find? fun p => p.2.unretired.contains id with
  | some p => pendTrap p.1 t s
  | none => match findContext s fun sl => sl.unretired.contains id with
    | some (cl, e, _) => contextTrap cl e c.slot t s
    | none => s

/-- Forget a copy wherever it is listed. -/
def forgetCopy (id : Nat) (c : Copy) (s : State) : State :=
  let s := s.modCore (slotCore c.slot) fun x => { x with
    scoreboard := x.scoreboard.filter fun r => r.copy != id
    busyTiles := x.busyTiles.filter fun p => p.2 != id }
  let s := s.modEngine (coreDie (slotCore c.slot)) c.engine fun e => { e with queue := e.queue.filter fun q => q != id }
  let drop (sl : Slot) : Slot := { sl with unretired := sl.unretired.filter fun q => q != id }
  let s := { s with
    copies := tabDel s.copies id
    slots := s.slots.map fun (p : Nat × Slot) => (p.1, drop p.2) }
  match findContext s fun sl => sl.unretired.contains id with
  | some (cl, e, _) => modContext cl e drop s
  | none => s

/-- The bytes of a copy that have not been written. -/
def Copy.unwritten (c : Copy) : Nat := c.total - (if c.req.land then c.put else c.row * c.rowBytes)

/-- The object of a copy or landing send at its retirement: an error marks it, in byte mode with what was added and has not been
written, and in COUNT_COPIES mode the retirement is an arrival (R118, R119). [DEDUCED: log 54, 55, 64] -/
def finishBar (c : Copy) (code : Nat) (s : State) : State :=
  if c.bar = 0 ∨ code = 4 then s
  else modBar c.writer c.bar (fun b =>
    let b := if code = 0 then b else b.fail c.unwritten (c.tagged && !b.counts)
    if b.counts then b.arrive else b) s

/-- The status word is written (R138): the CODE after that, with the trap if it faults; or the held word at which the write
waits (R99). -/
def writeStatus (id : Nat) (c : Copy) (code : Nat) (s : State) : Nat ⊕ (Nat × Option Trap × State) :=
  let stat := c.w 7
  if c.block = [] ∨ stat = 0 ∨ stat % 8 ≠ 0 then .inr (code, c.trap, s)
  else
    match c.check s (c.want stat 8 .copyWrite) with
    | .fault t => .inr (2, some (c.trapOf t), s)
    | .miss => .inr (code, c.trap, s)
    | .at pa =>
      if !mayTake s (.copy id) (pa / 8) then .inl (pa / 8)
      else
        let count := if c.req.land then (if code = 0 ∧ c.total ≠ 0 then c.rows else 0) else c.row
        let v := BitVec.ofNat 64 (code * 2 ^ 60 + count)
        .inr (code, c.trap, writeWord c.writer pa v (s.setWordPoison pa false))

/-- A copy whose CODE is known retires, unless it comes after a FENCE at ENG and an earlier one of its context has not, or a
held word makes it wait (R82, R138 to R140). -/
def retireCopy (id : Nat) (s : State) : State :=
  match tabFind s.copies id with
  | none => s
  | some c =>
    match c.code with
    | none => s
    | some code =>
      if (s.core (slotCore c.slot)).tl c.req.ctx < c.after then s
      else match barBusy s (.copy id) c.bar with
      | some w => waitTurn (.copy id) w s
      | none => match writeStatus id c code s with
        | .inl w => waitTurn (.copy id) w s
        | .inr (code, t, s) =>
          let s := finishBar c code s
          let s := match t with
            | some t => copyTrap id c t s
            | none => s
          retireNumber (slotCore c.slot) c.req.ctx c.number (code == 0) (forgetCopy id c (endTurn (.copy id) s))

/-- The event COPY_RETIRE. -/
def execCopyRetire (copy : Nat) (s : State) : Result := .next (retireCopy copy s)

end Sys2Proof.Machine
end

