-- ==== Sys2Proof/Machine/Landing.lean ====
section
/-! DEFINITION. Landing zones: LZRSV, LZARM and LZFREE (R150, R151), the service slot's table (R149, R152,
R155, R157), and the ends of landing sends (R154). -/

namespace Sys2Proof.Machine

/-! ## Routes and modules (R19, R161, R405) -/

/-- A module is there. -/
def populated (s : State) (t : Nat) : Bool := (s.module t).populated

/-- A module answers: it has booted. A frozen one keeps serving remote accesses (R405, R408). [DEDUCED: log 121] -/
def answers (s : State) (t : Nat) : Bool :=
  populated s t && ((s.module t).boot == .running || (s.module t).boot == .frozen)

/-- A message for a module arrives there now: its way is open, and the module answers. [DEDUCED: log 40] -/
def arrives (s : State) (id t : Nat) : Bool := wayOpen s id && answers s t

/-- A module reaches another now, by a packet of its core 0. [DEDUCED: log 40] -/
def delivers (s : State) (m t : Nat) : Bool :=
  (m == t || portsOpen s t m (newRoute s (m * 8192) t 0).ports) && answers s t

/-- Two launches are parts of one: the same record of the same origin (R199). [DESIGN CHOICE: log 106] -/
def sameLaunch (s : State) (a b : Nat) : Bool :=
  a != 0 && b != 0 && (a == b || (a % 2 ^ 48 == b % 2 ^ 48 && launchInst a == launchInst b &&
    (s.launch a).origin == (s.launch b).origin && (s.launch a).modules.contains (launchModule b)))

/-! ## Instructions -/

/-- A fabric or zone access that names no address of R10: it enters with a location of its own. -/
def startPlain (o : Fired) (l : Nat) (kind : PerformKind) (ordered : Bool) (op : MemOp) (va pa : Nat) (remote : Option Nat)
    (s : State) : State :=
  let num := match (s.slot o.slot).inst with | some i => i.num | none => 0
  let a : Acc := { id := s.nextId, inst := num, lsid := l, node := o.node, kind := kind, ordered := ordered, op := op
                   va := va, pa := pa, remote := remote, asid := (s.core (slotCore o.slot)).xlatAsid.toNat
                   blk := (s.slot o.slot).blk }
  let s := { s with nextId := s.nextId + 1 }
  enterAcc o.slot a (resolveLsid o.slot l (setNode o (if kind = .commitTime then .fired else .waiting) s))

/-- LZRSV (R150, R151). -/
def execLzrsv (p : Pred) (t : Tgt) (l : BitVec 5) (s : State) : Result :=
  .next (memShell (.lzrsv p t l) false (fun o s =>
    if 0xFFFF < o.r.toNat then raise o.slot (illegalAt o.node) s
    else if !zoneNameOk o.l.toNat then
      raise o.slot { cause := causeProtection, addr := o.l.toNat, info := addrInfo 6 false false 0 none } s
    else startPlain o l.toNat .inBlock false (.zrsv o.r.toNat) o.l.toNat (2 ^ 62 + 8 * s.nextId) (some (zoneModule o.l.toNat)) s) s)

/-- LZARM (R150). -/
def execLzarm (p : Pred) (l : BitVec 5) (z : BitVec 2) (s : State) : Result :=
  .next (memShell (.lzarm p l z) false (fun o s =>
    let d := (tabGet (s.core (slotCore o.slot)).zdesc z.toNat 0#64).toNat
    if !zdEn d || !zdBarEn d || decide (barMax < o.l.toNat) then raise o.slot (illegalAt o.node) s
    else
      let pa := sysAddr (slotModule o.slot) (zdBar d)
      startPlain o l.toNat .commitTime true (.arm o.l.toNat) (zdBar d) pa none s) s)

/-- LZFREE (R150). -/
def execLzfree (p : Pred) (l : BitVec 5) (z : BitVec 2) (n : BitVec 4) (s : State) : Result :=
  .next (memShell (.lzfree p l z n) false (fun o s =>
    let d := (tabGet (s.core (slotCore o.slot)).zdesc z.toNat 0#64).toNat
    if !zdEn d || decide (zdSlots d ≤ n.toNat) then raise o.slot (illegalAt o.node) s
    else startPlain o l.toNat .commitTime true (.zfree z.toNat n.toNat) 0 (2 ^ 62 + 8 * s.nextId) none s) s)

/-! ## The table of R149 -/

/-- A zone slot. -/
def State.zoneSlot (s : State) (core z n : Nat) : ZoneSlot := tabGet (s.core core).zslots (16 * z + n) {}
/-- Set it. -/
def State.setZoneSlot (s : State) (core z n : Nat) (x : ZoneSlot) : State :=
  s.modCore core fun c => { c with zslots := tabPut c.zslots (16 * z + n) x }

/-- When a timer started now expires (R149). -/
def zoneTimer (s : State) (d : Nat) : Option Nat := if zdTmo d = 0 then none else some (s.now + zdTmo d * 4000)

/-- The grant token (R152). [DEDUCED: log 66] -/
def grantToken (status zone slot seq : Nat) : Word := BitVec.ofNat 64 (status * 2 ^ 61 + zone * 2 ^ 52 + slot * 2 ^ 48 + seq)

/-- The lowest-numbered FREE slot of a zone. -/
def freeZoneSlot (s : State) (core z n : Nat) : Option Nat :=
  (List.range n).find? fun i => (s.zoneSlot core z i).st == .free

/-- The sequence counter of a zone (R147); 2^48 when it has stopped. [DEDUCED: log 66] -/
def Core.seqOf (c : Core) (z : Nat) : Nat := tabGet c.zseq z 1

/-- The service slot answers a reservation (R147, R152). [DEDUCED: log 66] -/
def reserveZone (sender core z bytes : Nat) (s : State) : Word × State :=
  let co := s.core core
  let d := (tabGet co.zdesc z 0#64).toNat
  let seq := co.seqOf z
  if !zdEn d then (grantToken 2 z 0 0, s)
  else if seq ≥ 2 ^ 48 then (grantToken 3 z 0 0, s)
  else if bytes > zdLen d - 8 then (grantToken 4 z 0 0, s)
  else match freeZoneSlot s core z (zdSlots d) with
    | none => (grantToken 1 z 0 0, s)
    | some n =>
      let base := poolBase core + zoneBase (s.partition core) + zdBase d * 1024 + n * zdLen d
      let x : ZoneSlot := { st := .reserved, sender := sender, seq := seq, bytes := bytes, timer := zoneTimer s d
                            base := base, stamp := base + zdLen d - 8
                            bar := if zdBarEn d then sysAddr (coreModule core) (zdBar d) else 0 }
      (grantToken 0 z n seq, (s.setZoneSlot core z n x).modCore core fun c => { c with zseq := tabPut c.zseq z (seq + 1) })

/-- The event LZ_RESERVATION. -/
def execLzReservation (msg : Nat) (s : State) : Result :=
  .next (match tabFind s.net msg with
    | some (.reserveZone k acc name bytes) =>
      let m := zoneModule name
      let core := zoneCore name
      if !arrives s msg m then s
      else
        let s := s.drop msg
        let inst := match s.acc? k acc with | some a => a.inst | none => 0
        let reply (a : Answer) (s : State) : State := s.send (.reply (.slot k acc) inst 0 0 a)
        if !sameLaunch s (s.core (slotCore k)).launch (s.core core).launch then
          reply (.fault { cause := causeProtection, addr := name, info := addrInfo 9 false false 0 (some m) }) s
        else
          let (v, s) := reserveZone k core (zoneNum name) bytes s
          reply (.value v 0#64 false) s
    | _ => s)

/-- The writer of a landing send's units (R401). -/
def landingWriter (sender : Nat) : Writer :=
  { kind := 2, module := slotModule sender, core := coreNum (slotCore sender), slot := slotNum sender }

/-- The stamp of a slot is written (R155). [DEDUCED: log 63] -/
def writeStamp (x : ZoneSlot) (v : Word) (s : State) : State :=
  writeWord (landingWriter x.sender) x.stamp v (s.setWordPoison x.stamp false)

/-- The slot of a zone that a grant names, where the zone name agrees. -/
def grantSlot (grant : Nat) : Nat := fld grant 48 4

/-- A send and its grant match a reservation. The sender that a reservation records is the thread's slot: a grant used from
another slot is refused (R149). [DESIGN CHOICE: log 66] -/
def ZoneSlot.fits (x : ZoneSlot) (sender name grant total : Nat) : Bool :=
  fld grant 52 2 == zoneNum name && x.sender == sender && x.seq == fld grant 0 48 && x.bytes == total

/-- A slot lands: its stamp is the sequence number, and the sender hears of it. [DEDUCED: log 64] -/
def landSlot (core z n copy : Nat) (x : ZoneSlot) (s : State) : State :=
  (writeStamp x (BitVec.ofNat 64 x.seq) (s.setZoneSlot core z n { x with st := .landed, timer := none })).send (.landAck copy true)

/-- A slot is poisoned: the barrier is cleaned up before the failure stamp, and a send in it fails (R149,
R157). -/
def poisonSlot (core z n : Nat) (x : ZoneSlot) (s : State) : State :=
  let s := if x.bar = 0 then s else modBar (landingWriter x.sender) x.bar (fun b => b.fail (x.bytes - x.landed) true) s
  let s := writeStamp x (BitVec.allOnes 64) (s.setZoneSlot core z n { x with st := .poisoned, timer := none })
  if x.send = 0 then s else s.send (.landAck x.send false)

/-- The word of a slot's stamp or of its arrival barrier at which a change of the slot waits (R99). -/
def zoneBusy (s : State) (src : Source) (x : ZoneSlot) : Option Nat := firstBusy s src [x.stamp / 8] <|> barBusy s src x.bar

/-- The party that a zone slot's own changes are: zones are numbered 4 × core key + zone. -/
def zoneParty (zone zslot : Nat) : Source := .unit (16 * zone + zslot)

/-- A zone slot's change is made in its turn at the words that it writes. -/
def zoneTurn (src : Source) (x : ZoneSlot) (f : State → State) (s : State) : State :=
  match zoneBusy s src x with
  | some w => waitTurn src w s
  | none => endTurn src (f s)

/-- The pool has acknowledged the bytes of a landed unit: they count at the arrival barrier, and at the object that tags the
send (R117, R157). [DEDUCED: log 64] -/
def landUnit (copy : Nat) (x : ZoneSlot) (n : Nat) (s : State) : State :=
  let s := if x.bar = 0 then s else modBar (landingWriter x.sender) x.bar (fun b => b.landed n) s
  match tabFind s.copies copy with
  | some c => (c.land n s).modCopy copy fun y => { y with put := y.put + n }
  | none => s

/-- The units of a packet are written, and counted as each is acknowledged (R149, R155, R157). [DEDUCED: log 63] -/
def fillSlot (core z n copy off : Nat) (bytes : List (Byte × Bool)) (x : ZoneSlot) (s : State) : State :=
  let d := (tabGet (s.core core).zdesc z 0#64).toNat
  let s := writeUnits (landingWriter x.sender) (landUnit copy x) (unitAddrs (x.base + off) bytes.length) bytes s
  s.setZoneSlot core z n { x with st := .filling, send := copy, landed := x.landed + bytes.length, timer := zoneTimer s d }

/-- The word at which a packet waits: of its units, of the arrival barrier, or of the object that tags its send (R99). -/
def packetBusy (s : State) (src : Source) (copy off n : Nat) (x : ZoneSlot) : Option Nat :=
  firstBusy s src ((unitAddrs (x.base + off) n).map fun p => p.1 / 8) <|> barBusy s src x.bar <|>
    match tabFind s.copies copy with
    | some c => if c.tagged then barBusy s src c.bar else none
    | none => none

/-- The event LANDING_PACKET. -/
def execLandingPacket (msg : Nat) (s : State) : Result :=
  .next (match tabFind s.net msg with
    | some (.landing copy sender name grant total off bytes) =>
      let core := zoneCore name
      let z := zoneNum name
      let n := grantSlot grant
      let x := s.zoneSlot core z n
      if !arrives s msg (zoneModule name) then s
      else if x.fits sender name grant total && (x.st == .reserved || (x.st == .filling && x.send == copy)) then
        if total = 0 then zoneTurn (.msg msg) x (fun s => landSlot core z n copy x (s.drop msg)) s
        else match packetBusy s (.msg msg) copy off bytes.length x with
          | some w => waitTurn (.msg msg) w s
          | none => endTurn (.msg msg) (fillSlot core z n copy off bytes x (s.drop msg))
      else (endTurn (.msg msg) (s.drop msg)).send (.landAck copy false)
    | _ => s)

/-- The event SLOT_LANDED; zones are numbered 4 × core key + zone. -/
def execSlotLanded (zone zslot : Nat) (s : State) : Result :=
  .next (
    let x := s.zoneSlot (zone / 4) (zone % 4) zslot
    if x.st = .filling ∧ x.landed = x.bytes then
      zoneTurn (zoneParty zone zslot) x (landSlot (zone / 4) (zone % 4) zslot x.send x) s
    else s)

/-- The event ZONE_SLOT_TIMEOUT: the timer has expired, the sender's module is lost, or the zone has been
disabled (R149). -/
def execZoneSlotTimeout (zone zslot : Nat) (s : State) : Result :=
  .next (
    let core := zone / 4
    let x := s.zoneSlot core (zone % 4) zslot
    let expired : Bool := match x.timer with
      | some t => decide (t ≤ s.now)
      | none => false
    let lost := (s.module (coreModule core)).lostModules.contains (slotModule x.sender)
    let off := !zdEn (tabGet (s.core core).zdesc (zone % 4) 0#64).toNat
    if (x.st = .reserved ∨ x.st = .filling) ∧ (expired ∨ lost ∨ off) then
      zoneTurn (zoneParty zone zslot) x (poisonSlot core (zone % 4) zslot x) s
    else s)

/-- The event SENDER_ABORT. -/
def execSenderAbort (msg : Nat) (s : State) : Result :=
  .next (match tabFind s.net msg with
    | some (.abort _ sender name grant) =>
      let core := zoneCore name
      let z := zoneNum name
      let x := s.zoneSlot core z (grantSlot grant)
      if !arrives s msg (zoneModule name) then s
      else if x.fits sender name grant x.bytes && (x.st == .reserved || x.st == .filling) then
        zoneTurn (.msg msg) x (fun s => poisonSlot core z (grantSlot grant) x (s.drop msg)) s
      else endTurn (.msg msg) (s.drop msg)
    | _ => s)

/-- The event LZFREE_PERFORM. -/
def execLzfreePerform (msg : Nat) (s : State) : Result :=
  .next (match tabFind s.net msg with
    | some (.lzfree k acc z n) =>
      let core := slotCore k
      let x := s.zoneSlot core z n
      let inst := match s.acc? k acc with | some a => a.inst | none => 0
      if x.st = .landed ∨ x.st = .poisoned then
        zoneTurn (.msg msg) x (fun s =>
          (writeStamp x 0#64 ((s.drop msg).setZoneSlot core z n {})).send (.reply (.slot k acc) inst 0 0 .ack)) s
      else
        ((s.drop msg).modModule (coreModule core) fun m => { m with zoneMisuse := m.zoneMisuse + 1 }).send
          (.reply (.slot k acc) inst 0 0 .ack)
    | _ => s)

/-! ## The sender's end (R154) -/

/-- The event LANDING_SEND_RETIRE: the stamp's acknowledgement or a refusal. [DEDUCED: log 64] -/
def execLandingSendRetire (msg : Nat) (s : State) : Result :=
  .next (match tabFind s.net msg with
    | some (.landAck copy ok) =>
      let s := s.drop msg
      match tabFind s.copies copy with
      | none => s
      | some c =>
        if c.code.isSome then s
        else if ok then retireCopy copy (endCopy copy 0 none s)
        else retireCopy copy (endCopy copy 6 (some (landingFault (c.w 1) 7 (zoneModule (c.w 1)))) s)
    | _ => s)

/-- FAB.TMO of a core in cycles (R167): 1 ms is 4,000,000 cycles. [DEDUCED: log 75] -/
def fabTimeout (s : State) (c : Nat) : Nat := max 1 ((s.core c).fabTmo.toNat % 65536) * 4000000

/-- A packet of a landing send found no valid entry (R154, R161). -/
def sendStranded (s : State) (copy : Nat) : Bool :=
  s.net.any fun p => noRoute s p.1 && match p.2 with
    | .landing c _ _ _ _ _ _ => c == copy
    | _ => false

/-- The event LANDING_ACK_TIMEOUT: no acknowledgement in time, or no way to the target (R154, R161). -/
def execLandingAckTimeout (copy : Nat) (s : State) : Result :=
  .next (match tabFind s.copies copy with
    | none => s
    | some c =>
      let m := zoneModule (c.w 1)
      let late : Bool := match c.sentAt with
        | some t => decide (t + fabTimeout s (slotCore c.slot) ≤ s.now)
        | none => false
      if c.req.land ∧ c.accepted ∧ c.code = none ∧ (late ∨ sendStranded s copy ∨ ¬populated s m) then
        retireCopy copy (endCopy copy 6 (some (landingFault (c.w 1) 0xD m)) s)
      else s)

end Sys2Proof.Machine
end

