-- ==== Sys2Proof/Machine/Queues.lean ====
section
/-! DEFINITION. Work queues: descriptors (R339), QPOP and QPUSH (R340), and the refill unit (R341, R342). -/

namespace Sys2Proof.Machine

/-! ## Reads that carry no LSID (R73, R84, R99) -/

/-- A relaxed in-block read of `n` bytes of a slot's instance may be sent now: no earlier access of the slot to its words is
unacknowledged, no fence or phase holds it back, and the scoreboard does not stall it. -/
def readOrder (s : State) (k pa n : Nat) : Bool :=
  let sl := s.slot k
  let num := match sl.inst with | some i => i.num | none => sl.count + 1
  let a : Acc := { id := 0, inst := num, lsid := 0, node := 0, kind := .inBlock, ordered := false, op := .load n false
                   va := pa, pa := pa }
  !heldBack sl a && !scoreboardStalls s k a && sl.accs.all fun b => !(decide (b.inst < num) && b.sameWord a && !b.performed)

/-- The first word of such a read of an instruction that another holds: it waits there (R77, R99). -/
def readBusy (s : State) (k node pa n : Nat) : Option Nat :=
  let num := match (s.slot k).inst with | some i => i.num | none => (s.slot k).count + 1
  (wordsOf pa n).find? fun w => match (s.wordQ w).held with
    | some (k', i, _) => !(k' == k && i == num) && k' != (Source.node k node).key
    | none => false

/-- The read may be made now. -/
def readMayGo (s : State) (k node pa n : Nat) : Bool := readOrder s k pa n && (readBusy s k node pa n).isNone

/-- A read that may not: once it has been sent, it waits in the hold queue of the word that it meets held. -/
def readWaits (k node pa n : Nat) (s : State) : State :=
  if readOrder s k pa n then (match readBusy s k node pa n with
    | some w => waitTurn (.node k node) w s
    | none => s)
  else s

/-- A word at an own-pail offset of a core. -/
def pailWord (s : State) (c off : Nat) : Nat := (s.word (poolBase c + off)).toNat

/-! ## Descriptors (R339) -/

/-- A work-queue descriptor as it stands. -/
structure Queue where
  ring : Nat
  state : Nat
  poolw : Nat
  ownw : Nat
  deriving DecidableEq, Repr, Inhabited

/-- Read a descriptor. -/
def readQueue (s : State) (c off : Nat) : Queue :=
  { ring := pailWord s c off, state := pailWord s c (off + 8), poolw := pailWord s c (off + 16), ownw := pailWord s c (off + 24) }

/-- CAP. -/
def Queue.cap (q : Queue) : Nat := 2 ^ fld q.ring 60 4
/-- LOW. -/
def Queue.low (q : Queue) : Nat := fld q.ring 40 16
/-- BATCH. -/
def Queue.batch (q : Queue) : Nat := fld q.ring 24 16
/-- RINGOFF. -/
def Queue.off (q : Queue) : Nat := fld q.ring 0 17
/-- HEAD. -/
def Queue.head (q : Queue) : Nat := fld q.state 32 32
/-- TAIL. -/
def Queue.tail (q : Queue) : Nat := fld q.state 0 32
/-- COUNT. -/
def Queue.count (q : Queue) : Nat := (q.tail + 2 ^ 32 - q.head) % 2 ^ 32
/-- REFILLING. -/
def Queue.refilling (q : Queue) : Bool := bitOf q.poolw 63
/-- EXHAUSTED. -/
def Queue.exhausted (q : Queue) : Bool := bitOf q.poolw 62
/-- POOL. -/
def Queue.pool (q : Queue) : Nat := fld q.poolw 0 48
/-- The own-pail offset of item t. -/
def Queue.item (q : Queue) (t : Nat) : Nat := q.off + 8 * (t % q.cap)

/-- A refill is due (R341). -/
def Queue.refillDue (q : Queue) : Bool :=
  bitOf q.ownw 4 && q.pool != 0 && !q.refilling && !q.exhausted && decide (q.count ≤ q.low) &&
    decide (q.batch + q.count ≤ q.cap)

/-- What a descriptor's fields must obey (R340). -/
def Queue.bad (q : Queue) (slot pail : Nat) : Bool :=
  !bitOf q.ownw 4 || q.ownw % 16 != slot || fld q.ring 56 4 != 0 || fld q.ring 17 7 != 0 || fld q.poolw 48 14 != 0 ||
    q.ownw / 32 != 0 || fld q.ring 60 4 == 0 || decide (fld q.ring 60 4 > 12) || q.batch == 0 ||
    decide (q.batch > min 64 q.cap) || decide (q.low ≥ q.cap) || q.off % 8 != 0 || decide (q.off + 8 * q.cap > pail)

/-- The checks of QPOP and QPUSH on the offset of a descriptor (R340). [DEDUCED: log 38, 68] -/
def qplace (s : State) (k : Nat) (left : Word) : Option Trap :=
  let a := left.toNat
  if a + 32 > zoneBase (s.partition (slotCore k)) then
    some { cause := causeProtection, addr := a, info := addrInfo 8 false false 0 none }
  else if a % 32 ≠ 0 then some { cause := causeMisaligned, addr := a, info := addrInfo 0xC false false 0 none }
  else none

/-- The checks of QPOP and QPUSH when they fire: the offset, then the descriptor as it reads (R63, R340).
[DEDUCED: log 38, 68] -/
def qcheck (s : State) (k node : Nat) (left : Word) : Option Trap :=
  let c := slotCore k
  let a := left.toNat
  match qplace s k left with
  | some t => some t
  | none => match [a, a + 8, a + 16, a + 24].find? fun x => s.wordPoisoned (poolBase c + x) with
    | some x => some { cause := causePoison, addr := x, info := dataInfo 1 0 0 false }
    | none => if (readQueue s c a).bad (slotNum k) (zoneBase (s.partition c)) then some (illegalAt node) else none

/-- A QPOP or QPUSH fires once its descriptor can be read: the offset is checked before, the descriptor then (R340). -/
def withQueue (o : Fired) (go : State → State) (s : State) : State :=
  let pa := poolBase (slotCore o.slot) + o.l.toNat
  match qplace s o.slot o.l with
  | some t => raise o.slot t s
  | none =>
    if !readMayGo s o.slot o.node pa 32 then readWaits o.slot o.node pa 32 s
    else match qcheck s o.slot o.node o.l with
      | some t => raise o.slot t (endTurn (.node o.slot o.node) s)
      | none => go (endTurn (.node o.slot o.node) s)

/-- QPOPs of the instance on a queue that have fired. -/
def Inst.pops (i : Inst) (desc : Nat) : Nat :=
  (i.actions.filter fun p => match p.2 with
    | .popped d _ _ => d == desc
    | _ => false).length

/-- Earlier accepted pushes of the instance on a queue. -/
def Inst.pushes (i : Inst) (desc : Nat) : Nat :=
  (i.actions.filter fun p => match p.2 with
    | .push d _ => d == desc
    | _ => false).length

/-- How many QPOPs of the instance on the queue came before one: as it noted when it fired. -/
def Inst.popsBefore (i : Inst) (n desc : Nat) : Nat :=
  match tabFind i.actions n with
  | some (.popped _ before _) => before
  | _ => i.pops desc

/-- QPOP takes an item, finds the queue spent, or waits (R340). [DEDUCED: log 68] -/
def tryPop (t u : Tgt) (k n desc : Nat) (s : State) : State :=
  let c := slotCore k
  match (s.slot k).inst with
  | none => s
  | some i =>
    let before := i.popsBefore n desc
    let stand (st : NodeSt) (items : Nat) (s : State) : State :=
      s.modInst k fun j => (j.modNode n fun x => { x with st := st }).putAction n (.popped desc before items)
    let q := readQueue s c desc
    if !readMayGo s k n (poolBase c + desc) 32 then readWaits k n (poolBase c + desc) 32 (stand .waiting 0 s)
    else if q.count > before then
      let off := q.item (q.head + before)
      let pa := poolBase c + off
      if !readMayGo s k n pa 8 then readWaits k n pa 8 (stand .waiting 0 s)
      else if s.wordPoisoned pa then
        raise k { cause := causePoison, addr := off, info := dataInfo 1 0 0 false } (endTurn (.node k n) s)
      else sendTokens k [(t, .data (s.word pa) false), (u, .data 1#64 false)] (stand .fired 1 (endTurn (.node k n) s))
    else if q.refilling || q.refillDue then stand .waiting 0 (endTurn (.node k n) s)
    else sendTokens k [(t, .null), (u, .data 0#64 false)] (stand .fired 0 (endTurn (.node k n) s))

/-- QPOP (R340). -/
def execQpop (p : Pred) (t : Tgt) (u : Tgt) (s : State) : Result :=
  .next (checkedShell (.qpop p t u) (fun o => withQueue o (tryPop t u o.slot o.node o.l.toNat)) s)

/-- QPUSH (R340). -/
def execQpush (p : Pred) (t : Tgt) (u : Tgt) (s : State) : Result :=
  .next (checkedShell (.qpush p t u) (fun o => withQueue o fun s =>
    match (s.slot o.slot).inst with
    | none => s
    | some i =>
      let d := o.l.toNat
      let q := readQueue s (slotCore o.slot) d
      let used := q.count + i.pushes d + (if q.refilling then q.batch else 0)
      if used < q.cap then
        finish (.qpush p t u) o (.data 1#64 false) (s.modInst o.slot fun j => j.putAction o.node (.push d o.r))
      else finish (.qpush p t u) o (.data 0#64 false) s) s)

/-! ## At commit (R340) -/

/-- Set STATE of a descriptor. -/
def putQueueState (wr : Writer) (c desc head tail : Nat) (s : State) : State :=
  writeWord wr (poolBase c + desc + 8) (BitVec.ofNat 64 (head % 2 ^ 32 * 2 ^ 32 + tail % 2 ^ 32)) s

/-- HEAD advances. [DEDUCED: log 68] -/
def popCommit (k desc n : Nat) (s : State) : State :=
  let c := slotCore k
  let q := readQueue s c desc
  putQueueState (writerOf k (poolBase c)) c desc (q.head + n) q.tail s

/-- An item is written at TAIL, and TAIL advances. -/
def pushCommit (k desc : Nat) (item : Word) (s : State) : State :=
  let c := slotCore k
  let q := readQueue s c desc
  let wr := writerOf k (poolBase c)
  let pa := poolBase c + q.item q.tail
  putQueueState wr c desc q.head (q.tail + 1) (writeWord wr pa item (s.setWordPoison pa false))

/-- The pops and pushes at the head of a slot's line that are of one instance. -/
def queueActs (sl : Slot) (num : Nat) : List Action :=
  ((sl.post.takeWhile fun p => p.1 == num && p.2.ofQueue).map fun p => p.2)

/-- The words that some pops and pushes use: the descriptors, and the ring words of the pushes. -/
def queueWords (s : State) (c : Nat) : List Action → List Action → List Nat
  | _, [] => []
  | seen, a :: rest =>
    (match a with
      | .popped d _ _ => wordsOf (poolBase c + d) 32
      | .push d _ =>
        let q := readQueue s c d
        let before := (seen.filter fun b => match b with
          | .push e _ => e == d
          | _ => false).length
        wordsOf (poolBase c + d) 32 ++ [(poolBase c + q.item (q.tail + before)) / 8]
      | _ => []) ++ queueWords s c (seen ++ [a]) rest

/-- The word at which the pops and pushes of an instance wait at commit. -/
def queueBusy (s : State) (k : Nat) (acts : List Action) : Option Nat :=
  firstBusy s (.node k 64) (queueWords s (slotCore k) [] acts)

/-- The descriptors of which some pops move HEAD, each once, with the number of items. -/
def popCounts (acts : List Action) : List (Nat × Nat) :=
  acts.foldl (fun (m : List (Nat × Nat)) a => match a with
    | .popped _ _ 0 => m
    | .popped d _ n => tabMod m d 0 fun x => x + n
    | _ => m) []

/-! ## The refill unit (R341, R342) -/

/-- The writer that a refill names (R401). -/
def refillWriter (c : Nat) : Writer := { kind := 4, module := coreModule c, core := coreNum c }

/-- Set REFILLING and EXHAUSTED of a descriptor. -/
def putQueuePool (c desc : Nat) (refilling exhausted : Bool) (s : State) : State :=
  let w := pailWord s c (desc + 16)
  writeWord (refillWriter c) (poolBase c + desc + 16)
    (BitVec.ofNat 64 (bitField refilling * 2 ^ 63 + bitField exhausted * 2 ^ 62 + w % 2 ^ 62)) s

/-- A refill ends in a fault: the owner slot takes it before its next instance (R342, R390). [DEDUCED: log 70] -/
def refillFault (c desc slot : Nat) (t : Trap) (s : State) : State :=
  let from_ := match (s.core c).refills.find? fun r => r.desc == desc with
    | some r => r.issuer
    | none => slot
  let s := putQueuePool c desc false true s
  let s := s.modCore c fun x => { x with refills := x.refills.filter fun r => r.desc != desc }
  threadTrap slot from_ { t with origin := 2, replay := false, seq := 0, block := desc } s

/-- Change a refill of a core. -/
def modRefill (c desc : Nat) (f : Refill → Refill) (s : State) : State :=
  s.modCore c fun x => { x with refills := x.refills.map fun r => if r.desc = desc then f r else r }

/-- A refill has failed: it ends, in its turn at the descriptor (R99, R342). -/
def refillFails (c : Nat) (r : Refill) (t : Trap) (s : State) : State :=
  match firstBusy s (.refill c r.desc) (wordsOf (poolBase c + r.desc) 32) with
  | some w => waitTurn (.refill c r.desc) w (modRefill c r.desc (fun y => { y with failed := some t }) s)
  | none => endTurn (.refill c r.desc) (refillFault c r.desc r.slot t s)

/-- The level and address space of a refill: its owner's. -/
def refillWant (c slot va size : Nat) (u : Use) : Want :=
  { core := c, sys := decide (slot < 2 ^ 64) && systemSlot slot, va := va, size := size, use := u }

/-- A refill address: POOL must lie in global memory (R342). -/
def refillAddr (s : State) (w : Want) : Checked :=
  match regionOf w.va with
  | some .global => checkWalk s w
  | _ => .fault (addrFault w causeProtection 7 0)

/-- The claim of a refill: an AMADD of BATCH to NEXT (R341). -/
def refillAdd (c : Nat) (r : Refill) (pa : Nat) : Req :=
  { src := .refill c r.desc, inst := r.desc, op := .amadd .w64 (BitVec.ofNat 64 r.batch) none, pa := pa }

/-- Start a refill that is due: REFILLING is set, and NEXT is claimed by an AMADD (R341). [DEDUCED: log 69] -/
def startRefill (slot desc : Nat) (s : State) : State :=
  let c := slotCore slot
  let q := readQueue s c desc
  if q.bad (slotNum slot) (zoneBase (s.partition c)) || desc % 32 != 0 || decide (desc + 32 > zoneBase (s.partition c)) ||
      !q.refillDue then s
  else match firstBusy s (.refill c desc) (wordsOf (poolBase c + desc) 32) with
  | some w => waitTurn (.refill c desc) w s
  | none =>
    let t := endTurn (.refill c desc) (putQueuePool c desc true false s)
    match refillAddr s (refillWant c slot q.pool 8 .add) with
    | .fault f => refillFault c desc slot f t
    | .miss => s
    | .at pa =>
      let r : Refill := { slot := slot, issuer := slot, desc := desc, pool := q.pool, batch := q.batch }
      (t.modCore c fun x => { x with refills := x.refills ++ [r] }).send (.req (refillAdd c r pa))

/-- The commit of an instance's pops and pushes together: HEAD of each queue, then the items in index order; a refill that a new
HEAD makes due is started after that (R340, R341). [DEDUCED: log 68] -/
def queueCommit (k : Nat) (acts : List Action) (s : State) : State :=
  let heads := popCounts acts
  let s := overAll (fun x => popCommit k x.1 x.2) heads s
  let s := overAll (fun a s => match a with
    | .push d item => pushCommit k d item s
    | _ => s) acts s
  overAll (fun x => startRefill k x.1) heads (endTurn (.node k 64) s)

/-- The event REFILL_START. -/
def execRefillStart (slot queue : Nat) (s : State) : Result := .next (startRefill slot queue s)

/-- The refill of a descriptor. -/
def refillOf (s : State) (c desc : Nat) : Option Refill := (s.core c).refills.find? fun r => r.desc == desc

/-- The answer to a refill's AMADD (R100, R341, R342). [DEDUCED: log 69] -/
def refillReply (c desc pa : Nat) (a : Answer) (s : State) : State :=
  match refillOf s c desc with
  | none => s
  | some r =>
    match a with
    | .value v _ _ => modRefill c desc (fun y => { y with old := some v.toNat }) s
    | .nack =>
      modRefill c desc (fun y => { y with nacks := y.nacks + 1, again := some (s.now + backOff (y.nacks + 1)) })
        (s.modCore c fun x => { x with nacks := x.nacks + 1 })
    | .poisoned _ _ => refillFails c r (poisonAt r.pool pa) s
    | .fault t => refillFails c r t s
    | .grant _ | .ack | .notReady | .full | .gen _ | .unsup => s

/-- Load the items `i` to `i + n − 1` of a pool, in 8-byte units. -/
def loadItems (s : State) (c : Nat) (r : Refill) (i : Nat) : Nat → Except (Trap ⊕ Nat) (List Word)
  | 0 => .ok []
  | n + 1 =>
    match loadItems s c r i n with
    | .error e => .error e
    | .ok ws =>
      match agentRead s (.refill c r.desc) (refillWant c r.slot (r.pool + 16 + 8 * (i + n)) 8 .load) with
      | .data v => .ok (ws ++ [BitVec.ofNat 64 v])
      | .fault t => .error (.inl t)
      | .wait w => .error (.inr w)

/-- Write items at ring positions from `t` on. -/
def writeItems (c : Nat) (q : Queue) : Nat → List Word → State → State
  | _, [], s => s
  | t, w :: ws, s =>
    let pa := poolBase c + q.item t
    writeItems c q (t + 1) ws (writeWord (refillWriter c) pa w (s.setWordPoison pa false))

/-- Steps 3 to 5 of a refill whose claim has been answered (R341). [DEDUCED: log 69] -/
def finishRefill (c : Nat) (r : Refill) (o : Nat) (s : State) : State :=
  let me : Source := .refill c r.desc
  match agentRead s me (refillWant c r.slot (r.pool + 8) 8 .load) with
  | .wait w => waitTurn me w s
  | .fault t => refillFails c r t s
  | .data limit =>
    let n := min r.batch (limit - o)
    match loadItems s c r o n with
    | .error (.inr w) => waitTurn me w s
    | .error (.inl t) => refillFails c r t s
    | .ok ws =>
      let q := readQueue s c r.desc
      match firstBusy s me (wordsOf (poolBase c + r.desc) 32 ++ wordsOf (poolBase c + q.off) (8 * q.cap)) with
      | some w => waitTurn me w s
      | none =>
        let s := writeItems c q q.tail ws s
        let s := putQueueState (refillWriter c) c r.desc q.head (q.tail + n) s
        let s := putQueuePool c r.desc false (q.exhausted || decide (limit ≤ o + r.batch)) s
        endTurn me (s.modCore c fun x => { x with refills := x.refills.filter fun y => y.desc != r.desc })

/-- A refill whose AMADD was answered NACK asks again when its back-off is over (R100). -/
def retryRefill (c : Nat) (r : Refill) (s : State) : State :=
  match r.again, refillAddr s (refillWant c r.slot r.pool 8 .add) with
  | some t, .at pa =>
    if t ≤ s.now then (modRefill c r.desc (fun y => { y with again := none }) s).send (.req (refillAdd c r pa)) else s
  | _, _ => s

/-- The event REFILL_COMPLETE, or the resending of its claim (R100, R341); a refill is numbered 2^17 × core key + descriptor. -/
def execRefillComplete (refill : Nat) (s : State) : Result :=
  .next (
    let c := refill / 2 ^ 17
    match refillOf s c (refill % 2 ^ 17) with
    | none => s
    | some r => match r.failed, r.old with
      | some t, _ => refillFails c r t s
      | none, some o => finishRefill c r o s
      | none, none => retryRefill c r s)

end Sys2Proof.Machine
end

