-- ==== Sys2Proof/Machine/Tasks.lean ====
section
/-! DEFINITION. Run lists and the graph (R200 to R208), task references (R343), the task instructions 0x90 to
0x9D (R344 to R353), and what POST, DEC, TRETRY, TDROP and PRIO do at commit (R189, R215). -/

namespace Sys2Proof.Machine

/-! ## Time (R205, R206) -/

/-- The fabric time of a module in microseconds. [DEDUCED: log 75] -/
def fabricNow (s : State) (m : Nat) : Nat := (s.module m).fabricTime + s.now / 4000

/-- The time of a post: one whose age would be 0 counts as 1 µs later (R205). [DEDUCED: log 74] -/
def postTime (s : State) (m : Nat) : Nat := if fabricNow s m % 65536 = 0 then fabricNow s m + 1 else fabricNow s m

/-- The post time as an age: never 0 (R205). [DEDUCED: log 74] -/
def ageNow (s : State) (m : Nat) : Nat := postTime s m % 65536

/-- The age of a post at a time, as it is read for a comparison: never more than 2^14 behind (R205). [DEDUCED: log 74] -/
def readAge (now t : Nat) : Nat := max t (now - 16384) % 65536

/-- The age of a post at one time is older than that of a post at another (R205). [DEDUCED: log 74] -/
def older (now t u : Nat) : Bool :=
  let d := (readAge now u + 65536 - readAge now t) % 65536
  decide (1 ≤ d) && decide (d < 32768)

/-- The time of which the age in a word holds the low bits: as noted when it was recorded, else the latest. -/
def ageTime (s : State) (m word age : Nat) : Nat :=
  let now := fabricNow s m
  match tabFind s.ages word with
  | some t => if t % 65536 = age then t else now - (now + 65536 - age) % 65536
  | none => now - (now + 65536 - age) % 65536

/-- Note the time behind the age in a word. -/
def noteAge (word t : Nat) (s : State) : State :=
  { s with ages := if t = 0 then tabDel s.ages word else tabPut s.ages word t }

/-! ## The graph descriptor (R200, R201) -/

/-- A word of a descriptor. -/
def descW (d : List Word) (i : Nat) : Nat := (d.getD i 0#64).toNat
/-- NELEM. -/
def nelem (d : List Word) : Nat := fld (descW d 0) 0 32
/-- EPC. -/
def epc (d : List Word) : Nat := fld (descW d 0) 32 16
/-- ROWPTR. -/
def rowPtr (d : List Word) : Nat := descW d 1
/-- COLIDX. -/
def colIdx (d : List Word) : Nat := descW d 2
/-- COLOURS. -/
def colours (d : List Word) : Nat := descW d 3
/-- SWOFF. -/
def swOff (d : List Word) : Nat := fld (descW d 4) 0 17
/-- RLOFF. -/
def rlOff (d : List Word) : Nat := fld (descW d 4) 17 17
/-- RLCAP. -/
def rlCap (d : List Word) : Nat := fld (descW d 4) 34 16
/-- DDEF. -/
def ddef (d : List Word) : Word := d.getD 5 0#64

/-- The home core of an element, where the launch has an element level (R201). -/
def homeOf (l : Launch) (e : Nat) : Option Nat := l.homes[e / epc l.desc]?

/-- The system address of the stall word of an element (R201). -/
def stallAddr (l : Launch) (e : Nat) : Option Nat :=
  (homeOf l e).map fun c => poolBase c + swOff l.desc + 8 * (e % epc l.desc)

/-- The key of a core's run list: its system address (R203). -/
def coreList (d : List Word) (c : Nat) : Nat := poolBase c + rlOff d
/-- The key of a cluster's run list (R208). -/
def clusterList (cl : Nat) : Nat := 2 ^ 80 + cl

/-! ## Run-list entries (R203) -/

/-- ST of an entry. -/
def ListEntry.st (e : ListEntry) : Nat := fld e.w0.toNat 61 3
/-- PRIO. -/
def ListEntry.prio (e : ListEntry) : Nat := fld e.w0.toNat 59 2
/-- COUNT. -/
def ListEntry.count (e : ListEntry) : Nat := fld e.w0.toNat 32 16
/-- ELEMENT; all ones when unbound. -/
def ListEntry.element (e : ListEntry) : Nat := fld e.w0.toNat 0 32
/-- AGE. -/
def ListEntry.age (e : ListEntry) : Nat := fld e.w1.toNat 48 16
/-- ENTRY. -/
def ListEntry.start (e : ListEntry) : Nat := fld e.w1.toNat 0 48

/-- An entry from its fields. -/
def entryOf (st prio count element age start : Nat) (arg : Word) : ListEntry :=
  { w0 := BitVec.ofNat 64 (st * 2 ^ 61 + prio * 2 ^ 59 + count % 65536 * 2 ^ 32 + element % 2 ^ 32)
    w1 := BitVec.ofNat 64 (age % 65536 * 2 ^ 48 + start % 2 ^ 48), w2 := arg }

/-- An entry with another ST, PRIO and COUNT. -/
def ListEntry.with_ (e : ListEntry) (st prio count : Nat) : ListEntry :=
  { entryOf st prio count e.element e.age e.start e.w2 with launch := e.launch, posted := e.posted }

/-- Read an entry of a list. -/
def readEntry (s : State) (list n : Nat) : ListEntry :=
  if list ≥ 2 ^ 80 then tabGet (s.cluster (list - 2 ^ 80)).list n {}
  else
    let w1 := s.word (list + 32 * n + 8)
    { w0 := s.word (list + 32 * n), w1 := w1, w2 := s.word (list + 32 * n + 16)
      posted := ageTime s (list / 2 ^ 48) ((list + 32 * n + 8) / 8) (fld w1.toNat 48 16) }

/-- The core key of a pool address. -/
def coreOfPool (pa : Nat) : Nat := pa / 2 ^ 48 * 8192 + (pa % 2 ^ 48 - 0x100000000) / 0x20000

/-- The Parlour agent as a writer (R401). -/
def agentWriter (c : Nat) : Writer := { kind := 5, module := coreModule c, core := coreNum c }

/-- Write an entry of a list. -/
def putEntry (list n : Nat) (e : ListEntry) (s : State) : State :=
  if list ≥ 2 ^ 80 then s.modCluster (list - 2 ^ 80) fun c => { c with list := tabPut c.list n e }
  else
    let wr := agentWriter (coreOfPool list)
    let put (off : Nat) (v : Word) (s : State) : State :=
      if s.word (list + 32 * n + off) = v then s else writeWord wr (list + 32 * n + off) v s
    noteAge ((list + 32 * n + 8) / 8) e.posted (put 0 e.w0 (put 8 e.w1 (put 16 e.w2 s)))

/-- Free an entry. -/
def freeEntry (list n : Nat) (s : State) : State :=
  if list ≥ 2 ^ 80 then s.modCluster (list - 2 ^ 80) fun c => { c with list := tabDel c.list n }
  else (putEntry list n {} s).modCore (coreOfPool list) fun c => { c with launchPosted := c.launchPosted.filter fun x => x != n }

/-- The size of a list. -/
def listCap (s : State) (list : Nat) : Nat := if list ≥ 2 ^ 80 then 256 else rlCap (s.core (coreOfPool list)).desc

/-- An action reserves an entry that has not been posted yet (R345). -/
def Action.reserves (a : Action) (list n : Nat) : Bool :=
  match a with
  | .post l e _ _ _ _ => l == list && e == n
  | _ => false

/-- An entry is reserved by a POST or POSTC that has not taken effect. -/
def reservedEntry (s : State) (list n : Nat) : Bool :=
  s.slots.any fun p => p.2.post.any (fun q => q.2.reserves list n) || match p.2.inst with
    | some i => i.actions.any fun q => q.2.reserves list n
    | none => false

/-- An entry is free (R203, R345). -/
def entryIsFree (s : State) (list n : Nat) : Bool := (readEntry s list n).st == 0 && !reservedEntry s list n

/-- The lowest-numbered free entry of a list (R345). -/
def freeEntryOf (s : State) (list : Nat) : Option Nat := (List.range (listCap s list)).find? fun n => entryIsFree s list n

/-- The handle of an entry (R189, R208). -/
def handleOf (list n : Nat) : Nat :=
  if list ≥ 2 ^ 80 then coreNum ((list - 2 ^ 80) * 16) * 2 ^ 19 + 0x40000 + n
  else coreNum (coreOfPool list) * 2 ^ 19 + n

/-- The task reference of an entry (R343). -/
def refOf (list n : Nat) : Nat :=
  (if list ≥ 2 ^ 80 then (list - 2 ^ 80) / 512 else list / 2 ^ 48) * 2 ^ 32 + handleOf list n

/-! ## Task references (R343) -/

/-- Whether some core of a cluster belongs to a launch. -/
def clusterOfLaunch (s : State) (cl la : Nat) : Bool :=
  (List.range 16).any fun i => sameLaunch s (s.core (cl * 16 + i)).launch la

/-- Resolve a task reference for a slot: the list and the entry, or the trap it raises (R343). [DEDUCED: log 71] -/
def resolveRef (s : State) (k node : Nat) (ref : Word) : Except Trap (Nat × Nat) :=
  let r := ref.toNat
  let la := (s.slot k).launch
  let m := fld r 32 13
  let c := m * 8192 + fld r 19 13
  let n := fld r 0 19
  let ill : Except Trap (Nat × Nat) := .error (illegalAt node)
  if r / 2 ^ 45 ≠ 0 then ill
  else if n ≥ 0x40000 then
    if n - 0x40000 > 255 ∨ c % 16 ≠ 0 ∨ !clusterOfLaunch s (c / 16) la then ill
    else .ok (clusterList (c / 16), n - 0x40000)
  else if !sameLaunch s (s.core c).launch la then
    .error { cause := causeProtection, addr := r
             info := addrInfo 9 false false 0 (if m = slotModule k then none else some m) + (if m = slotModule k then m * 65536 else 0) }
  else if (s.core c).desc = [] ∨ n ≥ rlCap (s.core c).desc then ill
  else .ok (coreList (s.core c).desc c, n)

/-! ## Posting (R189, R345, R346) -/

/-- The launch of a slot. -/
def State.launchOf (s : State) (k : Nat) : Launch := s.launch (s.slot k).launch

/-- ENTRY of a launch record. -/
def Launch.entry (l : Launch) : Nat := (l.record.getD 1 0#64).toNat

/-- The list that POST and POSTC name: an element's home, or the poster's cluster (R207, R345). [DEDUCED: log 73] -/
def postList (s : State) (k e : Nat) : Option Nat :=
  let l := s.launchOf k
  if (s.slot k).launch = 0 then none
  else if e = 2 ^ 32 - 1 then some (clusterList (coreCluster (slotCore k)))
  else if l.desc = [] ∨ e ≥ nelem l.desc then none
  else (homeOf l e).map (coreList l.desc)

/-- POST and POSTC fire: the lowest free entry is reserved; a full list answers NACK, and is asked again after the back-off
(R100, R345). [DEDUCED: log 73] -/
def postBody (i : Instr) (count prio : Nat) (o : Fired) (s : State) : State :=
  let e := fld o.l.toNat 0 32
  match postList s o.slot e with
  | none => raise o.slot (illegalAt o.node) s
  | some list =>
    let src : Source := .node o.slot o.node
    if backingOff s src then s
    else match freeEntryOf s list with
    | none => nackParty src s
    | some n =>
      let start := wrapAddr ((s.launchOf o.slot).entry + 4 * signed32 o.l.toNat 32)
      let s := putEntry list n (entryOf 0 0 count 0 0 0 0#64) (endTurn src s)
      let s := s.modInst o.slot fun j => j.putAction o.node (.post list n e start o.r prio)
      finish i o (.data (BitVec.ofNat 64 (refOf list n)) false) s

/-- A task misuse is counted (R346, R353, R378). -/
def countMisuse (m : Nat) (s : State) : State := s.modModule m fun x => { x with taskMisuse := x.taskMisuse + 1 }

/-- POST and POSTC at commit (R345). [DESIGN CHOICE: log 72] -/
def postCommit (k list n element start : Nat) (arg : Word) (prio : Nat) (s : State) : State :=
  let count := (readEntry s list n).count
  let e := entryOf (if count = 0 then 2 else 1) prio count element (ageNow s (slotModule k)) start arg
  putEntry list n { e with launch := if list ≥ 2 ^ 80 then (s.slot k).launch else 0, posted := postTime s (slotModule k) } s

/-- DEC at commit (R346). [DESIGN CHOICE: log 72] -/
def decCommit (k list n : Nat) (s : State) : State :=
  let e := readEntry s list n
  if entryIsFree s list n ∨ e.count = 0 then countMisuse (slotModule k) s
  else putEntry list n (e.with_ (if e.st = 1 ∧ e.count = 1 then 2 else e.st) e.prio (e.count - 1)) s

/-- PRIO at commit (R353). -/
def prioCommit (k list n prio : Nat) (s : State) : State :=
  let e := readEntry s list n
  if entryIsFree s list n then countMisuse (slotModule k) s else putEntry list n (e.with_ e.st prio e.count) s

/-! ## Stall words (R209, R211) -/

/-- STATE of a stall word: 0 FREE, 1 SHARED, 2 EXCLUSIVE, 3 QUARANTINED. -/
def swState (w : Nat) : Nat := fld w 62 2
/-- SCOUNT. -/
def swCount (w : Nat) : Nat := fld w 48 14
/-- PAGE. -/
def swPage (w : Nat) : Nat := fld w 32 16
/-- OWNER. -/
def swOwner (w : Nat) : Nat := fld w 0 32
/-- A stall word from its fields. -/
def swWord (st count page owner : Nat) : Nat := st * 2 ^ 62 + count * 2 ^ 48 + page * 2 ^ 32 + owner

/-- A request of a task posted at time `a` is admissible at a word whose PAGE, unless 0, is the age of a post at time `p`
(R211). -/
def swAdmits (now a p w : Nat) : Bool := swPage w == 0 || !older now p a
/-- Record an age. -/
def swRecord (now a p w : Nat) : Nat :=
  if swPage w = 0 ∨ older now a p then swWord (swState w) (swCount w) (a % 65536) (swOwner w) else w
/-- PAGE after a grant. -/
def swClear (a w : Nat) : Nat := if swPage w = a % 65536 then 0 else swPage w

/-- An exclusive request: whether it is granted, and the word after it (R211). -/
def swTakeX (now a p handle w : Nat) : Bool × Nat :=
  match swState w with
  | 0 => if swAdmits now a p w then (true, swWord 2 0 (swClear a w) handle) else (false, w)
  | 1 => if swAdmits now a p w then (false, swRecord now a p w) else (false, w)
  | 2 => (false, swRecord now a p w)
  | _ => (false, w)

/-- A shared request (R211). -/
def swTakeS (now a p w : Nat) : Bool × Nat :=
  match swState w with
  | 2 => (false, swRecord now a p w)
  | 3 => if swCount w < 16383 then (true, swWord 3 (swCount w + 1) (swPage w) (swOwner w)) else (false, w)
  | _ =>
    if !swAdmits now a p w then (false, w)
    else if swCount w < 16383 then (true, swWord 1 (swCount w + 1) (swClear a w) (swOwner w))
    else (false, swRecord now a p w)

/-- A shared hold is released (R211). -/
def swDropS (w : Nat) : Nat :=
  let n := swCount w - 1
  swWord (if swState w = 1 ∧ n = 0 then 0 else swState w) n (swPage w) (swOwner w)

/-- An exclusive hold is released (R211). -/
def swDropX (w : Nat) : Nat := if swState w = 2 then swWord 0 0 (swPage w) 0 else w

/-- The holder takes a fatal fault (R211, R214). -/
def swFault (w : Nat) : Nat := if swState w = 2 then swWord 3 (swCount w) 0 (swOwner w) else w

/-- A connectivity error on the element (R211, R216). -/
def swError (w : Nat) : Nat := if swState w = 0 ∨ swState w = 1 then swWord 3 (swCount w) 0 (2 ^ 32 - 1) else w

/-- TRETRY or TDROP of a task on the element (R211, R215). -/
def swRetry (w : Nat) : Nat := if swState w = 3 then swWord (if swCount w > 0 then 1 else 0) (swCount w) 0 0 else w

/-- Change a stall word at its home agent. -/
def modStall (pa : Nat) (f : Nat → Nat) (s : State) : State :=
  let w := (s.word pa).toNat
  if f w = w then s else writeWord (agentWriter (coreOfPool pa)) pa (BitVec.ofNat 64 (f w)) s

/-- A word of a core is released: entries that it refused may be tried again (R204). -/
def wakeEntries (pa : Nat) (s : State) : State :=
  s.modCore (coreOfPool pa) fun c =>
    let mine := (c.wakeable.filter fun p => p.2 == pa).map fun p => p.1
    { c with refused := c.refused.filter fun (p : Nat × Nat) => !mine.contains p.1
             wakeable := c.wakeable.filter fun p => p.2 != pa }

/-- Release a hold at a word: shared, or exclusive (R211, R212). -/
def dropStall (pa : Nat) (exclusive : Bool) (s : State) : State :=
  wakeEntries pa (modStall pa (if exclusive then swDropX else swDropS) s)

/-- Quarantine an element for a connectivity error that a core has met, by a CTRL message where its home is on another module
(R216). -/
def quarantineElement (core la e : Nat) (s : State) : State :=
  match stallAddr (s.launch la) e with
  | none => s
  | some pa =>
    if pa / 2 ^ 48 = coreModule core then modStall pa swError s else s.inject core (pa / 2 ^ 48) 0 (.quarantine la e)

/-- The event QUARANTINE_MESSAGE (R216). -/
def execQuarantineMessage (msg : Nat) (s : State) : Result :=
  .next (match tabFind s.net msg with
    | some (.quarantine la e) =>
      match stallAddr (s.launch la) e with
      | none => s.drop msg
      | some pa => if arrives s msg (pa / 2 ^ 48) then modStall pa swError (s.drop msg) else s
    | _ => s)

/-! ## TRETRY, TDROP (R215, R353) -/

/-- The stall word of a task's element leaves quarantine. -/
def retryElement (la e : Nat) (s : State) : State :=
  match stallAddr (s.launch la) e with
  | some pa => if e = 2 ^ 32 - 1 then s else wakeEntries pa (modStall pa swRetry s)
  | none => s

/-- The launch of a module that a slot's launch is part of (R199). [DESIGN CHOICE: log 106] -/
def launchPart (s : State) (la m : Nat) : Nat :=
  if launchModule la = m then la
  else match s.launches.find? fun p => launchModule p.1 == m && sameLaunch s la p.1 with
    | some p => p.1
    | none => la

/-- The module of a list. -/
def listModule (list : Nat) : Nat := if list ≥ 2 ^ 80 then (list - 2 ^ 80) / 512 else list / 2 ^ 48

/-- TRETRY at commit (R215). [DESIGN CHOICE: log 72] -/
def tretryCommit (k list n : Nat) (s : State) : State :=
  let e := readEntry s list n
  if e.st = 4 ∨ e.st = 5 then
    let s := retryElement (s.slot k).launch e.element s
    putEntry list n (e.with_ 2 e.prio e.count) s
  else countMisuse (slotModule k) s

/-- TDROP at commit (R215). [DESIGN CHOICE: log 72] -/
def tdropCommit (k list n : Nat) (s : State) : State :=
  let e := readEntry s list n
  if e.st = 4 ∨ e.st = 5 then
    freeEntry list n (retryElement (s.slot k).launch e.element s)
  else countMisuse (slotModule k) s

/-! ## Instructions -/

/-- POST (R345). -/
def execPost (p : Pred) (t : Tgt) (u : Tgt) (y : BitVec 2) (s : State) : Result :=
  .next (checkedShell (.post p t u y) (postBody (.post p t u y) 0 y.toNat) s)

/-- POSTC (R345). -/
def execPostc (p : Pred) (t : Tgt) (u : Tgt) (c : BitVec 8) (s : State) : Result :=
  .next (checkedShell (.postc p t u c) (postBody (.postc p t u c) c.toNat 0) s)

/-- The mould of a deferred action that takes a task reference and sends 0 (R343, R344). [DEDUCED: log 71] -/
def refOp (i : Instr) (act : Word → Action) : State → State :=
  checkedShell i fun o s =>
    match resolveRef s o.slot o.node o.l with
    | .error t => raise o.slot t s
    | .ok _ => finish i o (.data 0#64 false) (s.modInst o.slot fun j => j.putAction o.node (act o.l))

/-- DEC (R346). -/
def execDec (p : Pred) (t : Tgt) (u : Tgt) (s : State) : Result := .next (refOp (.dec p t u) .dec s)

/-- TRETRY (R353). -/
def execTretry (p : Pred) (t : Tgt) (u : Tgt) (s : State) : Result := .next (refOp (.tretry p t u) .tretry s)

/-- TDROP (R353). -/
def execTdrop (p : Pred) (t : Tgt) (u : Tgt) (s : State) : Result := .next (refOp (.tdrop p t u) .tdrop s)

/-- The reference of a slot's own task. -/
def ownRef (sl : Slot) : Option Word := sl.task.map fun t => BitVec.ofNat 64 (refOf t.list t.entry)

/-- PRIO; a handle of all ones names the issuing task's own entry (R353). -/
def execPrio (p : Pred) (t : Tgt) (u : Tgt) (y : BitVec 2) (s : State) : Result :=
  .next (checkedShell (.prio p t u y) (fun o s =>
    let ref := if fld o.l.toNat 0 32 = 2 ^ 32 - 1 then ownRef (s.slot o.slot) else some o.l
    match if o.l.toNat / 2 ^ 45 = 0 then ref else none with
    | none => raise o.slot (illegalAt o.node) s
    | some r =>
      match resolveRef s o.slot o.node r with
      | .error f => raise o.slot f s
      | .ok _ =>
        finish (.prio p t u y) o (.data 0#64 false) (s.modInst o.slot fun j => j.putAction o.node (.prio r y.toNat))) s)

/-- SPAWN (R190, R347). -/
def execSpawn (p : Pred) (t : Tgt) (u : Tgt) (s : State) : Result :=
  .next (checkedShell (.spawn p t u) (fun o s =>
    finish (.spawn p t u) o (.data 0#64 false) (s.modInst o.slot fun j => j.putAction o.node (.spawn o.l.toNat o.r))) s)

/-- JOIN fires, and waits until the join count is 0 (R347). -/
def execJoin (p : Pred) (t : Tgt) (u : Tgt) (s : State) : Result :=
  .next (checkedShell (.join p t u) (fun o s =>
    if (s.slot o.slot).join = 0 then finish (.join p t u) o (.data 0#64 false) s else setNode o .waiting s) s)

/-- The instance has a MIGR already. -/
def Inst.migrates (i : Inst) : Bool :=
  i.actions.any fun p => match p.2 with
    | .migr _ => true
    | _ => false

/-- MIGR (R348). -/
def execMigr (p : Pred) (t : Tgt) (u : Tgt) (s : State) : Result :=
  .next (checkedShell (.migr p t u) (fun o s =>
    let c := slotModule o.slot * 8192 + o.l.toNat
    let again : Bool := match (s.slot o.slot).inst with
      | some i => i.migrates
      | none => false
    if 8192 ≤ o.l.toNat ∨ again then raise o.slot (illegalAt o.node) s
    else if !sameLaunch s (s.core c).launch (s.slot o.slot).launch then
      raise o.slot { cause := causeProtection, addr := o.l.toNat, info := addrInfo 9 false false 0 none } s
    else finish (.migr p t u) o (.data 0#64 false) (s.modInst o.slot fun j => j.putAction o.node (.migr c))) s)

/-- REPOST, an exit of tasks (R350). -/
def execRepost (p : Pred) (e : BitVec 6) (s : State) : Result :=
  .next (fire (.repost p e) (fun o s =>
    if o.poison then raise o.slot poisonToken s
    else if (s.slot o.slot).task.isNone then raise o.slot (illegalAt o.node) s
    else exitBody (fun _ => .repost o.l) e.toNat o s) s)

/-! ## The graph (R349) -/

/-- The instruction reads the graph at an element: its launch has one, and the element is in it. -/
def graphOf (s : State) (k e : Nat) : Option Launch :=
  let l := s.launchOf k
  if (s.slot k).launch = 0 ∨ l.desc = [] ∨ e ≥ nelem l.desc then none else some l

/-- An instruction's read without an LSID, in its order and its turn (R73, R99, R349); it waits at word 0 for its order. -/
def nodeRead (s : State) (k node va size pa : Nat) : Got :=
  if !readOrder s k pa size then .wait 0
  else match readBusy s k node pa size with
    | some x => .wait x
    | none => if s.wordPoisoned pa then .fault (poisonAt va pa) else .data (s.readN pa size)

/-- A read of the graph by an instruction (R349). -/
def graphRead (s : State) (k node va size : Nat) : Got :=
  match checkWalk s { core := slotCore k, sys := systemSlot k, va := va, size := size, use := .load } with
  | .fault t => .fault t
  | .miss => .wait 0
  | .at pa => nodeRead s k node va size pa

/-- A data error: a poisoned word, rather than a fault of R32. -/
def dataError (t : Trap) : Bool := t.cause == causePoison && t.info % 16 == 0

/-- The list of an element has failed: the element is quarantined, and the slot takes QUARANTINED ELEMENT
(R216, R349). -/
def listFails (o : Fired) (e reason : Nat) (s : State) : State :=
  raise o.slot { cause := causeQuarantined, addr := e, info := reason }
    (quarantineElement (slotCore o.slot) (s.slot o.slot).launch e (endTurn (.node o.slot o.node) s))

/-- A read of an instruction has to wait, at word 0 only for its order. -/
def nodeWaits (o : Fired) (w : Nat) (s : State) : State := if w = 0 then s else waitTurn (.node o.slot o.node) w s

/-- Go on with a value of the graph, or take what its read met. -/
def withGraph (o : Fired) (e : Nat) (g : Got) (f : Nat → State → State) (s : State) : State :=
  match g with
  | .data v => f v s
  | .wait w => nodeWaits o w s
  | .fault t => if dataError t then listFails o e 1 s else raise o.slot t (endTurn (.node o.slot o.node) s)

/-- ELEM stall (R349): the stall word is read at its home pail, through a CTRL message where that lies on another module.
[DEDUCED: log 139] -/
def elemStall (i : Instr) (o : Fired) (pa : Nat) (s : State) : State :=
  let m := pa / 2 ^ 48
  if m = slotModule o.slot then
    match nodeRead s o.slot o.node (pa % 2 ^ 48) 8 pa with
    | .data v => finish i o (.data (BitVec.ofNat 64 v) false) (endTurn (.node o.slot o.node) s)
    | .wait w => nodeWaits o w s
    | .fault t => raise o.slot t (endTurn (.node o.slot o.node) s)
  else
    let sl := s.slot o.slot
    let a : Acc := { id := s.nextId, inst := (sl.inst.map fun j => j.num).getD 0, lsid := 0, node := o.node, kind := .inBlock
                     ordered := false, op := .load 8 false, va := pa % 2 ^ 48, pa := pa % 2 ^ 48, remote := some m
                     asid := (s.core (slotCore o.slot)).xlatAsid.toNat, blk := sl.blk }
    setNode o .waiting ({ s with nextId := s.nextId + 1 }.modSlot o.slot fun x => { x with accs := x.accs ++ [a] })

/-- ELEM (R349). -/
def execElem (p : Pred) (t : Tgt) (u : Tgt) (m : ElemMode) (s : State) : Result :=
  .next (checkedShell (.elem p t u m) (fun o s =>
    let e := o.l.toNat
    let send (v : Nat) (s : State) : State :=
      finish (.elem p t u m) o (.data (BitVec.ofNat 64 v) false) (endTurn (.node o.slot o.node) s)
    match graphOf s o.slot e with
    | none => raise o.slot (illegalAt o.node) s
    | some l =>
      match homeOf l e with
      | none => raise o.slot (illegalAt o.node) s
      | some c =>
        match m with
        | .home => send (coreModule c * 8192 + coreNum c) s
        | .local => send (e % epc l.desc) s
        | .handle => send (refOf (coreList l.desc c) (e % epc l.desc)) s
        | .stall => match stallAddr l e with
          | some pa => elemStall (.elem p t u m) o pa s
          | none => s
        | .colour =>
          if colours l.desc = 0 then raise o.slot (illegalAt o.node) s
          else match graphRead s o.slot o.node (colours l.desc + e) 1 with
            | .data v => send v s
            | .wait w => nodeWaits o w s
            | .fault f => raise o.slot f (endTurn (.node o.slot o.node) s)) s)

/-- NBRN (R349). -/
def execNbrn (p : Pred) (t : Tgt) (u : Tgt) (s : State) : Result :=
  .next (checkedShell (.nbrn p t u) (fun o s =>
    let e := o.l.toNat
    match graphOf s o.slot e with
    | none => raise o.slot (illegalAt o.node) s
    | some l =>
      withGraph o e (graphRead s o.slot o.node (rowPtr l.desc + 4 * e) 4) (fun lo s =>
        withGraph o e (graphRead s o.slot o.node (rowPtr l.desc + 4 * e + 4) 4) (fun hi s =>
          if hi < lo then listFails o e 2 s
          else finish (.nbrn p t u) o (.data (BitVec.ofNat 64 (hi - lo)) false) (endTurn (.node o.slot o.node) s)) s) s) s)

/-- NBR (R349). -/
def execNbr (p : Pred) (t : Tgt) (u : Tgt) (s : State) : Result :=
  .next (checkedShell (.nbr p t u) (fun o s =>
    let e := o.l.toNat
    match graphOf s o.slot e with
    | none => raise o.slot (illegalAt o.node) s
    | some l =>
      withGraph o e (graphRead s o.slot o.node (rowPtr l.desc + 4 * e) 4) (fun lo s =>
        withGraph o e (graphRead s o.slot o.node (rowPtr l.desc + 4 * e + 4) 4) (fun hi s =>
          if hi < lo then listFails o e 2 s
          else if hi - lo ≤ o.r.toNat then
            finish (.nbr p t u) o (.data (BitVec.allOnes 64) false) (endTurn (.node o.slot o.node) s)
          else
            withGraph o e (graphRead s o.slot o.node (colIdx l.desc + 4 * (lo + o.r.toNat)) 4) (fun v s =>
              if v = e ∨ nelem l.desc ≤ v then listFails o e 2 s
              else finish (.nbr p t u) o (.data (BitVec.ofNat 64 v) false) (endTurn (.node o.slot o.node) s)) s) s) s) s)

/-! ## Colour (R217, R351) -/

/-- The launch dispatches by colour. -/
def Launch.byColour (l : Launch) : Bool := bitOf (l.record.getD 0 0#64).toNat 24

/-- COLOUR cur (R351). -/
def execColourCur (p : Pred) (t : Tgt) (u : Tgt) (s : State) : Result :=
  .next (checkedShell (.colourCur p t u) (fun o s =>
    let la := (s.slot o.slot).launch
    let l := s.launch la
    let org := s.launch (partKey la l.origin)
    let v : Word := if la != 0 && l.byColour then BitVec.ofNat 64 (org.colour - 1) else BitVec.allOnes 64
    finish (.colourCur p t u) o (.data v false) s) s)

/-- COLOUR set (R351): a relaxed store of one byte at commit, checked as the slot's. -/
def execColourSet (p : Pred) (t : Tgt) (u : Tgt) (s : State) : Result :=
  .next (checkedShell (.colourSet p t u) (fun o s =>
    match graphOf s o.slot o.l.toNat with
    | none => raise o.slot (illegalAt o.node) s
    | some l =>
      if colours l.desc = 0 ∨ 255 < o.r.toNat then raise o.slot (illegalAt o.node) s
      else
        let va := colours l.desc + o.l.toNat
        match checkWalk s { core := slotCore o.slot, sys := systemSlot o.slot, va := va, size := 1, use := .store } with
        | .fault f => raise o.slot f s
        | .miss => s
        | .at pa =>
          finish (.colourSet p t u) o (.data 0#64 false) (s.modInst o.slot fun j => j.putAction o.node (.colour va pa o.r.toNat))) s)

end Sys2Proof.Machine
end

