-- ==== Sys2Proof/Machine/Fabric.lean ====
section
/-! DEFINITION. The fabric: messages (R356 to R359), remote accesses at their target (R20, R80, R162, R167 to
R169), links (R165), ranks (R360) and collectives (R170, R361). -/

namespace Sys2Proof.Machine

/-- Mark a fault as raised at the target of a global name (R33, R35); the address is the operand.
[DEDUCED: log 113] -/
def remoteFault (m va : Nat) (t : Trap) : Trap :=
  if t.cause = causePoison ∧ t.info % 16 = 0 then { t with addr := va }
  else { t with addr := va, info := t.info + 1024 + m * 65536 }

/-! ## Messages (R356, R357) -/

/-- An injection or receive entry of a core: its system address (R42, R356). -/
def injectAddr (s : State) (c e : Nat) : Nat := poolBase c + queueBase (s.partition c) + 64 * e
/-- A receive entry. -/
def receiveAddr (s : State) (c e : Nat) : Nat := injectAddr s c e + 0x800

/-- The core has QUEUE granules. [DEDUCED: log 114] -/
def hasQueues (s : State) (c : Nat) : Bool := partQueue (s.partition c) != 0

/-- INJ (R357). [DEDUCED: log 113] -/
def execInj (p : Pred) (t : Tgt) (u : Tgt) (s : State) : Result :=
  .next (checkedShell (.inj p t u) (fun o s =>
    if 31 < o.l.toNat then raise o.slot (illegalAt o.node) s
    else if !hasQueues s (slotCore o.slot) then
      raise o.slot { cause := causeProtection, addr := o.l.toNat, info := addrInfo 8 false false 0 none } s
    else finish (.inj p t u) o (.data 0#64 false) (s.modInst o.slot fun j => j.putAction o.node (.inj o.l.toNat o.node))) s)

/-- The first action of a slot after commit may be performed: every access up to its instance has been
acknowledged (R86, R357, R383, R387, R389). -/
def postReady (sl : Slot) (num : Nat) : Bool := sl.accs.all fun a => !a.committed || decide (num < a.inst)

/-- The first action of a slot after commit is done. -/
def postDone (k : Nat) (s : State) : State := s.modSlot k fun x => { x with post := x.post.drop 1 }

/-- The words of an injection entry are read: LEN of the header decides how many. [DEDUCED: log 113] -/
def injectWords (s : State) (a n : Nat) : List Word := (List.range n).map fun i => s.word (a + 8 * (i + 1))

/-- A failure of a message, taken before a later instance of its slot (R33, R357, R390). [DEDUCED: log 113] -/
def messageFault (k e blk cause reason target : Nat) (s : State) : State :=
  pendTrap k { cause := cause, addr := e, info := addrInfo reason false false 0 (some target), origin := 1, own := some blk } s

/-- INJ reads its entry, in its turn at the words, and sends the packet; what is wrong with the entry is taken before the next
instance (R99, R357). [DEDUCED: log 113] -/
def injSend (k e : Nat) (s : State) : State :=
  let c := slotCore k
  let a := injectAddr s c e
  let header := s.word a
  let len := fld header.toNat 26 3
  let all := (List.range (len + 1)).map fun i => a + 8 * i
  match firstBusy s (.node k 64) (all.map fun x => x / 8) with
  | some w => waitTurn (.node k 64) w s
  | none =>
    let s := endTurn (.node k 64) (postDone k s)
    let blk := (s.slot k).blk
    match all.find? fun x => s.wordPoisoned x with
    | some x =>
      pendTrap k { cause := causePoison, addr := x - poolBase c, info := dataInfo 1 0 0 true, origin := 1, own := some blk } s
    | none =>
      let m := fld header.toNat 0 13
      if fld header.toNat 29 3 ≠ 0 then messageFault k e blk causeIllegal 0 m s
      else
        let target := m * 8192 + fld header.toNat 13 13
        s.inject c m 0 (.packet k target e blk s.now 0 0 header (injectWords s a len))

/-- The event INJ_SEND. -/
def execInjSend (slot : Nat) (s : State) : Result :=
  .next (match (s.slot slot).post with
    | (num, .inj e _) :: _ => if postReady (s.slot slot) num then injSend slot e s else s
    | _ => s)

/-- A packet of the same slot to the same core was sent earlier and is still on its way (R162, R357). -/
def packetBefore (s : State) (id k target : Nat) : Bool :=
  s.net.any fun p => decide (p.1 < id) && match p.2 with
    | .packet k' t _ _ _ _ _ _ _ => k == k' && t == target
    | _ => false

/-- The header of a received entry: the sender's core and module (R356). -/
def receivedHeader (k : Nat) (h : Word) : Word :=
  BitVec.ofNat 64 (fld h.toNat 26 38 * 2 ^ 26 + coreNum (slotCore k) * 2 ^ 13 + slotModule k)

/-- A message lands in the next receive entry (R358). -/
def receive (k target : Nat) (header : Word) (payload : List Word) (s : State) : State :=
  let e := (s.core target).rcvNext
  let a := receiveAddr s target e
  let ws := receivedHeader k header :: (List.range 7).map fun i => payload.getD i 0#64
  let wr := writerOf k a
  let s := overAll (fun i s => writeWord wr (a + 8 * i) (ws.getD i 0#64) (s.setWordPoison (a + 8 * i) false)) (List.range 8) s
  s.modCore target fun x => { x with
    rcv := tabPut x.rcv e .full, rcvNext := (e + 1) % 32, rcvOrder := x.rcvOrder ++ [e] }

/-- The event MESSAGE_ARRIVAL (R357, R358): a full queue answers NACK, and the packet is sent again after the back-off of
R100. -/
def execMessageArrival (msg : Nat) (s : State) : Result :=
  .next (match tabFind s.net msg with
    | some (.packet k target e blk _ nacks notBefore header payload) =>
      let m := coreModule target
      let fault (cause reason : Nat) (s : State) : State := messageFault k e blk cause reason m (s.drop msg)
      if !arrives s msg m || packetBefore s msg k target || decide (s.now < notBefore) then s
      else if !sameLaunch s (s.core (slotCore k)).launch (s.core target).launch then fault causeProtection 9 s
      else if !hasQueues s target then fault causeProtection 8 s
      else if tabGet (s.core target).rcv (s.core target).rcvNext .empty != .empty then
        let s := s.modCore (slotCore k) fun c => { c with nacks := c.nacks + 1 }
        let again := s.now + backOff (nacks + 1)
        { s with net := tabPut s.net msg (.packet k target e blk again (nacks + 1) again header payload) }.reroute
          msg (slotCore k) m 0
      else receive k target header payload (s.drop msg)
    | _ => s)

/-! ## RCVP (R358) -/

/-- RCVP take claims the oldest FULL entry that is not claimed, or waits. [DEDUCED: log 114] -/
def rcvTake (t u : Tgt) (k n : Nat) (s : State) : State :=
  let c := slotCore k
  match (s.core c).rcvOrder.find? fun e => !(s.core c).rcvClaimed.contains e with
  | none => s.modInst k fun j => j.modNode n fun x => { x with st := .waiting }
  | some e =>
    let s := s.modCore c fun x => { x with rcvClaimed := setIns x.rcvClaimed e }
    let s := s.modInst k fun j => (j.modNode n fun x => { x with st := .fired }).putAction n (.rcvTaken e)
    let v : Token := .data (BitVec.ofNat 64 e) false
    sendTokens k [(t, v), (u, v)] s

/-- RCVP take (R358). [DEDUCED: log 114] -/
def execRcvpTake (p : Pred) (t : Tgt) (u : Tgt) (s : State) : Result :=
  .next (checkedShell (.rcvpTake p t u) (fun o s => rcvTake t u o.slot o.node s) s)

/-- RCVP free (R358). -/
def execRcvpFree (p : Pred) (t : Tgt) (u : Tgt) (s : State) : Result :=
  .next (checkedShell (.rcvpFree p t u) (fun o s =>
    if 31 < o.l.toNat then raise o.slot (illegalAt o.node) s
    else finish (.rcvpFree p t u) o (.data 0#64 false) (s.modInst o.slot fun j => j.putAction o.node (.rcvFree o.l.toNat))) s)

/-- RCVP take at commit: the entry is TAKEN. -/
def rcvTakeCommit (k e : Nat) (s : State) : State :=
  s.modCore (slotCore k) fun x => { x with
    rcv := tabPut x.rcv e .taken, rcvClaimed := setDel x.rcvClaimed e, rcvOrder := x.rcvOrder.erase e }

/-- RCVP free at commit: a TAKEN entry is EMPTY; any other counts as misuse. -/
def rcvFreeCommit (k e : Nat) (s : State) : State :=
  let c := slotCore k
  if tabGet (s.core c).rcv e .empty = .taken then s.modCore c fun x => { x with rcv := tabDel x.rcv e }
  else countMisuse (slotModule k) s

/-! ## Remote accesses at their target (R20, R35, R80, R162) -/

/-- An earlier request of the same slot to the same word of the same module is still on its way (R80). -/
def remoteBefore (s : State) (k m seq : Nat) (r : Req) : Bool :=
  s.net.any fun p => match p.2 with
    | .remote _ seq' k' m' r' => k == k' && m == m' && decide (seq' < seq) && r.words.any fun w => r'.words.contains w
    | _ => false

/-- A core of the launch on a module: its windows, partition and address space serve a remote access. -/
def partCore (s : State) (la m : Nat) : Option Nat :=
  (s.cores.find? fun p => coreModule p.1 == m && p.2.launch != 0 && p.2.launch == launchPart s la m).map fun p => p.1

/-- The checks at the target of a global name: every window is remote there, and an own-pail address names
no core (R10 to R17, R20, R32). [DEDUCED: log 39] -/
def checkRemote (s : State) (k m : Nat) (op : MemOp) (va : Nat) : Checked :=
  let core := partCore s (s.slot k).launch m
  let w : Want := { core := core.getD (m * 8192), sys := systemSlot k, va := va, size := op.size, use := op.use }
  match regionOf va with
  | some (.own _) => .fault (addrFault w causeProtection 7 0)
  | some (.remote c off) =>
    let target := m * 8192 + c
    if (core.isNone || !sameLaunch s (s.core target).launch (s.slot k).launch) && !w.sys then
      .fault (addrFault w causeProtection 9 0)
    else if poolClass (s.partition target) off == .pail && !guarded s w target off then .at (poolBase target + off)
    else .fault (addrFault w causeProtection 8 0)
  | _ =>
    match checkFlat s w with
    | some c => c
    | none => if core.isNone then .fault (addrFault w causeProtection 0xA 0) else checkWalk s w

/-- The ASID under which a target translates for a launch (R20). -/
def remoteAsid (s : State) (k m : Nat) : Option Nat := (partCore s (s.slot k).launch m).map fun c => (s.core c).xlatAsid.toNat

/-- The access of a source. -/
def sourceAcc (s : State) (src : Source) : Option Acc :=
  match src with
  | .slot k id => s.acc? k id
  | _ => none

/-- A fabric request that has arrived is performed, queued or answered; one for control space goes on to the
registers of its module (R15, R20). [DEDUCED: log 41, 115] -/
def remoteServe (k m : Nat) (r : Req) (s : State) : State :=
  match r.op with
  | .rel _ _ | .reln _ =>
    let phys := match sourceAcc s r.src with
      | some a => a.phys
      | none => 0
    let r := { r with pa := phys / 8 * 8 + r.pa % 8 }
    answer r .ack (releaseWord r s)
  | op =>
    if op.addend.isSome && !(s.module m).addRemote then answer r .unsup s
    else match checkRemote s k m op r.pa with
    | .fault t => answer r (.fault (remoteFault m (m * 2 ^ 48 + r.pa) t)) s
    | .at pa =>
      if regionOf (pa % 2 ^ 48) = some .control then s.send (.req { r with pa := pa })
      else arriveReq { r with pa := pa, trans := (remoteAsid s k m).map fun a => (a, r.pa, s.nextId) } s
    | .miss => s

/-- The event REMOTE_REQUEST_ARRIVAL. -/
def execRemoteRequestArrival (msg : Nat) (s : State) : Result :=
  .next (match tabFind s.net msg with
    | some (.remote _ seq k m r) =>
      if !arrives s msg m || remoteBefore s k m seq r then s else remoteServe k m r (s.drop msg)
    | _ => s)

/-! ## Links (R165) -/

/-- The event LINK_STATE_CHANGE: a link is module × 64 + port, its state the lanes that pass training. Each such event counts
one retrain. What a link had not delivered is replayed, or, when it goes DOWN, injected again upstream on another route.
[DESIGN CHOICE: log 138] -/
def execLinkStateChange (link state : Nat) (s : State) : Result :=
  .next (
    let port := link % 64
    if state > 8 ∨ port = 31 ∨ port ≥ 48 then s
    else reinject (s.modModule (link / 64) fun m =>
      { m with links := tabMod m.links port {} fun l => { lanes := state, retrains := l.retrains + 1 } }))

/-! ## Ranks (R360) -/

/-- The innermost non-element level of a launch. -/
def Launch.innermost (l : Launch) : Nat := if levelDomain (l.level l.nlevm1) = 7 then l.nlevm1 - 1 else l.nlevm1

/-- Rank and size over levels `from_` and on, `n` of them: the first is the most significant. [DEDUCED: log 79] -/
def rankOver (l : Launch) (ranks : List Nat) (from_ : Nat) : Nat → Nat × Nat
  | 0 => (0, 1)
  | n + 1 =>
    let (r, size) := rankOver l ranks (from_ + 1) n
    (ranks.getD from_ 0 * size + r, levelCount (l.level from_) * size)

/-- RANK (R360). [DEDUCED: log 79] -/
def execRank (p : Pred) (t : Tgt) (u : Tgt) (m : RankMode) (v : BitVec 3) (s : State) : Result :=
  .next (fire (.rank p t u m v) (fun o s =>
    let sl := s.slot o.slot
    let l := s.launch sl.launch
    let n := v.toNat
    let send (x : Word) (s : State) : State := finish (.rank p t u m v) o (.data x false) s
    if sl.launch = 0 ∨ l.nlevm1 < n then raise o.slot (illegalAt o.node) s
    else if levelDomain (l.level n) = 7 then
      match m with
      | .index => send (match sl.task with
          | some x => (match x.element with | some e => BitVec.ofNat 64 e | none => BitVec.allOnes 64)
          | none => BitVec.allOnes 64) s
      | .rank | .size => raise o.slot (illegalAt o.node) s
    else
      let (r, size) := rankOver l sl.ranks (n + 1) (l.innermost - n)
      match m with
      | .rank => send (BitVec.ofNat 64 r) s
      | .size => send (BitVec.ofNat 64 size) s
      | .index => send (BitVec.ofNat 64 (sl.ranks.getD n 0)) s) s)

/-! ## Collectives (R170, R361) -/

/-- One step of a reduction, in TYPE and the mode. [DEDUCED: log 81] -/
def collStep (ty : CollTy) (op : CollOp) (mode : Rounding) (l r : Word) : Word :=
  let low (v : Word) : Word := BitVec.ofNat 64 (v.toNat % 2 ^ 32)
  let float (f : FForm) : Word := match op with
    | .add => (faddOp f mode l r).v
    | .min => (fminOp f l r).v
    | .max => (fmaxOp f l r).v
  let int (w : Width) : Word := match op with
    | .add => l + r
    | .min => if sOf w r < sOf w l then r else l
    | .max => if sOf w l < sOf w r then r else l
  match ty with
  | .e11m52 => float .e11m52
  | .e8m23 => low (float .e8m23)
  | .s64 => int .w64
  | .s32 => low (int .w32)

/-- One level of the tree: neighbours are paired, and an odd last value is carried up (R170). -/
def collLevel (f : Word → Word → Word) : List Word → List Word
  | a :: b :: rest => f a b :: collLevel f rest
  | l => l

/-- The tree of R170; `n` levels are enough for 2^n values. -/
def collTree (f : Word → Word → Word) : Nat → List Word → Word
  | _, [] => 0#64
  | _, [v] => v
  | 0, v :: _ => v
  | n + 1, vs => collTree f n (collLevel f vs)

/-- The form in which a result is sent: an E8M23 has its high half 0, an S32 is sign-extended. -/
def collForm (ty : CollTy) (v : Word) : Word :=
  match ty with
  | .e11m52 | .s64 => v
  | .e8m23 => BitVec.ofNat 64 (v.toNat % 2 ^ 32)
  | .s32 => signFrom 32 v.toNat

/-- COLL (R361). -/
def execColl (p : Pred) (t : Tgt) (rmSrc : Bool) (y : CollTy) (op : CollOp) (v : BitVec 3) (s : State) : Result :=
  .next (checkedShell (.coll p t rmSrc y op v) (fun o s =>
    match s.phaseOf o.slot v.toNat with
    | none => raise o.slot (illegalAt o.node) s
    | some _ =>
      let mode := if rmSrc then fmodeOf (s.fpc0 o.slot) .fpc else .rne
      pendPut o t (fun reg s =>
        setNode o .fired (s.modInst o.slot fun j => j.putAction o.node (.coll v.toNat y op mode o.l (reg.getD 0)))) s) s)

/-- Members that will never contribute: they have ended or been killed. -/
def collMissing (c : PhaseCtx) (x : Collective) : Bool :=
  c.all.any fun m => !c.members.contains m && !x.vals.any fun v => v.slot == m

/-- The members disagree on OP or TYPE. [DESIGN CHOICE: log 80] -/
def collDiffer (x : Collective) : Bool :=
  match x.vals with
  | [] => false
  | a :: rest => rest.any fun b => a.op != b.op || a.ty != b.ty

/-- The modes of the members differ: the spec gives no sum then. [DESIGN CHOICE: log 80] -/
def collModes (x : Collective) : Bool :=
  match x.vals with
  | [] => false
  | a :: rest => rest.any fun b => a.mode != b.mode

/-- The result over all members, in the order of their ranks. [DESIGN CHOICE: log 80; DEDUCED: log 81] -/
def collResult (c : PhaseCtx) (x : Collective) (free : Word) : Word :=
  let vs := c.all.filterMap fun m => x.vals.find? fun v => v.slot == m
  match vs with
  | [] => 0#64
  | a :: rest =>
    let isFloat : Bool := match a.ty with
      | .e11m52 | .e8m23 => true
      | .s64 | .s32 => false
    if collModes x && isFloat && a.op == .add && rest != [] then collForm a.ty free
    else collForm a.ty (collTree (collStep a.ty a.op a.mode) 32 (vs.map fun v => v.v))

/-- See whether a collective is complete, and send its result to the members that have contributed. -/
def collTest (id : Nat) (s : State) : State :=
  match tabFind s.collectives id with
  | none => s
  | some x =>
    let c := tabGet s.phases x.ctx { launch := 0, level := 0, index := [] }
    let bad := x.error || collDiffer x || collMissing c x
    let (free, s) := if collModes x then s.free else (0#64, s)
    let x := if x.ready then x
      else if bad then { x with ready := true, error := true }
      else if c.all.all fun m => x.vals.any fun v => v.slot == m then { x with ready := true, result := collResult c x free }
      else x
    if !x.ready then { s with collectives := tabPut s.collectives id x }
    else
      let due := x.vals.filter fun v => !x.given.contains v.tag
      overAll (fun v s => s.send (.collective id v.tag)) due
        { s with collectives := tabPut s.collectives id { x with given := x.given ++ due.map fun v => v.tag } }

/-- COLL at commit: the value joins the thread's next collective of the level, a request on TL6 (R127,
R361). -/
def collCommit (k level : Nat) (ty : CollTy) (op : CollOp) (mode : Rounding) (v : Word) (reg : Nat) (s : State) : State :=
  let c := slotCore k
  let n := tabGet (s.slot k).collCount level 0
  let number := tabGet (s.core c).issue 6 0 + 1
  let s := s.modCore c fun x => { x with issue := tabPut x.issue 6 number }
  let tag := s.nextId
  let s := { s with nextId := tag + 2 }
  let s := s.modSlot k fun x => { x with
    collCount := tabPut x.collCount level (n + 1), collPending := x.collPending ++ [(tag, reg)] }
  let ctx := match s.phaseOf k level with
    | some (i, _) => i
    | none => 0
  let val : Contribution := { tag := tag, slot := k, core := c, number := number, ty := ty, op := op, mode := mode, v := v }
  let (id, x) : Nat × Collective := match s.collectives.find? fun p => p.2.ctx == ctx && p.2.k == n with
    | some p => (p.1, p.2)
    | none => (tag + 1, { ctx := ctx, k := n })
  collTest id { s with collectives := tabPut s.collectives id { x with vals := x.vals ++ [val] } }

/-- A member has ended or been killed: its open collectives are tested (R361). [DEDUCED: log 81] -/
def collEnded (s : State) : State := overAll collTest (s.collectives.map fun p => p.1) s

/-- The key of the thread that awaits a contribution's result. -/
def collHolder (s : State) (tag : Nat) : Option (Nat × Nat) :=
  let reg (sl : Slot) : Option Nat := (sl.collPending.find? fun p => p.1 == tag).map fun p => p.2
  match s.slots.findSome? fun p => (reg p.2).map fun r => (p.1, r) with
  | some x => some x
  | none => match findContext s fun sl => (reg sl).isSome with
    | some (cl, e, sl) => (reg sl).map fun r => (contextKey cl e, r)
    | none => none

/-- The record of a collective that has failed: the POISON that its register now holds (R63, R361, R390, R393, R403).
[DEDUCED: log 140] -/
def collTrap (reg number : Nat) : Trap :=
  { cause := causePoison, addr := reg, info := dataInfo 6 reg 0 true, origin := 2, seq := number, block := 6 }

/-- The slot that a thread runs in, or was saved from. -/
def issuerOf (s : State) (key : Nat) : Nat :=
  if key < 2 ^ 64 then key
  else match tabFind (s.cluster ((key - 2 ^ 64) / 64)).contexts ((key - 2 ^ 64) % 64) with
    | some sl => sl.savedFrom
    | none => 0

/-- The result is written into a thread's register, poisoned on an error (R361, R403). -/
def collWrite (key tag reg : Nat) (v : Word) (bad : Bool) (s : State) : State :=
  let s := if key < 2 ^ 64 then replyReg key reg v bad s
    else modThread key (fun sl =>
      if (sl.reg reg).pending then sl.setReg reg { val := v, poison := bad, pending := false } else sl) s
  modThread key (fun sl => { sl with collPending := sl.collPending.filter fun p => p.1 != tag }) s

/-- The event COLLECTIVE_RESULT: the register is written, an error is a trap of the thread, and the member's TL6 advances (R127,
R140, R393, R403). -/
def execCollectiveResult (msg : Nat) (s : State) : Result :=
  .next (match tabFind s.net msg with
    | some (.collective id tag) =>
      match tabFind s.collectives id with
      | none => s.drop msg
      | some x =>
        let s := s.drop msg
        let number := ((x.vals.find? fun v => v.tag == tag).map fun v => v.number).getD 0
        let s := match collHolder s tag with
          | some (key, reg) =>
            let s := collWrite key tag reg x.result x.error s
            if x.error then threadTrap key (issuerOf s key) (collTrap reg number) s else s
          | none => s
        let s := match x.vals.find? fun v => v.tag == tag with
          | some v => retireNumber v.core 6 v.number (!x.error) s
          | none => s
        let c := tabGet s.phases x.ctx { launch := 0, level := 0, index := [] }
        if x.given.length ≥ c.all.length ∧ !s.net.any fun p => match p.2 with
            | .collective i _ => i == id
            | _ => false
        then { s with collectives := tabDel s.collectives id } else s
    | _ => s)

end Sys2Proof.Machine
end

