-- ==== Sys2Proof/Machine/Matrix.lean ====
section
/-! DEFINITION. The matrix unit: the shell of Q operations (R242 to R244, R362, R415), pail transfers (R363),
tiles, accumulators and scales (R238 to R246), and opcodes 0xA0 to 0xAE (R364 to R373) with the summation of
R235 to R237. -/

namespace Sys2Proof.Machine

/-! ## The shell (R242, R243, R362) -/

/-- What the body of a Q operation comes to: a trap, a wait, or a token with the instance and its new
accesses. -/
inductive QEnd where
  | fault (t : Trap)
  /-- not yet: it waits at a word that is held, or, at 0, for something else -/
  | wait (w : Nat)
  | done (token : Word) (poison : Bool) (i : Inst) (accs : List Acc)
  deriving DecidableEq, Repr, Inhabited

/-- The staging limits of R243. [DEDUCED: log 93] -/
def stagedTooMuch (core : Nat) (i : Inst) : Bool :=
  let ts := i.staged.tiles.eraseDups
  let as := i.staged.accs.eraseDups
  let accsOk := decide (as.length ≤ 1) || (as.length == 2 && as.all fun a => as.all fun b => a / 2 == b / 2)
  decide (ts.length > 2) || !accsOk ||
    decide ((i.staged.bytes.filter fun p => decide (scaleBase core ≤ p.1)).length > 1024)

/-- The matrix unit is the slot's: it holds the claim, or is first in line for a free one (R243). [DEDUCED: log 92] -/
def claimUnit (k : Nat) (s : State) : Option State :=
  let c := slotCore k
  let co := s.core c
  match co.claim with
  | some (h, _) => if h = k then some (s.modCore c fun x => { x with claimWait := x.claimWait.filter fun n => n != k }) else none
  | none =>
    if co.claimWait.head? = some k then
      some (s.modCore c fun x => { x with claim := some (k, s.now), claimWait := x.claimWait.drop 1 })
    else none

/-- A need above REQ raises REQ from the next period (R415). -/
def raiseRequest (c need : Nat) (s : State) : State :=
  if (s.core c).pwrReq < need then s.modCore c fun x => { x with pwrNext := max x.pwrNext need } else s

/-- A tile that a copy is writing is busy (R244). -/
def tilesBusy (co : Core) (units : List (UnitKind × Nat)) : Bool :=
  units.any fun u => u.1 = .tile && co.busyTiles.any fun b => b.1 == u.2

/-- A scale range that a copy is writing is busy (R244). -/
def scaleBusy (co : Core) (lo n : Nat) : Bool :=
  co.scoreboard.any fun r => r.scale && decide (lo < r.hi) && decide (r.lo < lo + n)

/-- Start a Q operation that has fired, once the unit, the units it names and the power grant allow, and its pail reads have had
their turn (R99, R243, R244, R415). [DEDUCED: log 92] -/
def qStart (o : Fired) (units : List (UnitKind × Nat)) (need : Nat) (body : State → Inst → QEnd) (s : State) : State :=
  let k := o.slot
  let c := slotCore k
  match claimUnit k s with
  | none => s
  | some s =>
    if (s.core c).pwrGrant < need then raiseRequest c need s
    else if tilesBusy (s.core c) units then s
    else match (s.slot k).inst with
      | none => s
      | some i =>
        match body s i with
        | .wait w => nodeWaits o w s
        | .fault t => raise k t (endTurn (.node k o.node) s)
        | .done tok p j accs =>
          let s := endTurn (.node k o.node) s
          if stagedTooMuch c j then raise k (illegalAt o.node) s
          else
            let s := s.modSlot k fun x => { x with
              inst := some j
              accs := x.accs ++ accs.mapIdx fun n a => { a with id := s.nextId + n, inst := j.num, node := o.node } }
            { s with nextId := s.nextId + accs.length }.modCore c fun x => { x with qbusy := some (k, o.node, tok, p) }

/-- The first unit named that the slot may not use (R362). -/
def unownedUnit (s : State) (k : Nat) (units : List (UnitKind × Nat)) : Option Trap :=
  (units.find? fun u => !ownsUnit s k u.1 u.2).map fun u => unownedFault u.1 u.2

/-- The shell of R362. A Q operation that has fired waits, its slot not runnable, until it completes; while
it waits to start, this tries to start it. [DEDUCED: log 92] -/
def qShell (i : Instr) (units : List (UnitKind × Nat)) (need : Nat) (body : Fired → State → Inst → QEnd) (s : State) : State :=
  let k := s.focus.slot
  let idx := s.focus.node
  match (s.slot k).inst with
  | none => s
  | some inst =>
    match inst.nodes[idx]? with
    | none => s
    | some n =>
      let f := formOf i
      let o := n.fired f k idx
      if n.st = .idle then
        if inst.complete || !n.ready f || !qTurn inst idx then s
        else if (f.predicated && Token.poisoned n.third) || o.poison then raise k poisonToken s
        else match unownedUnit s k units with
          | some t => raise k t s
          | none =>
            let s := (setNode o .waiting s).modSlot k fun x => { x with matrix := true }
            let s := s.modCore (slotCore k) fun x => { x with claimWait := x.claimWait ++ [k] }
            qStart o units need (body o) s
      else if n.st = .waiting && (match (s.core (slotCore k)).qbusy with | some (h, _) => h != k | none => true) then
        qStart o units need (body o) s
      else s

/-- The event MATRIX_OP_COMPLETE: the slot is runnable again and T0 is sent (R242). -/
def execMatrixOpComplete (core : Nat) (s : State) : Result :=
  .next (match (s.core core).qbusy with
    | none => s
    | some (k, n, tok, p) =>
      let s := (s.modCore core fun x => { x with qbusy := none }).modSlot k fun x => { x with matrix := false }
      let s := s.modInst k fun i => i.modNode n fun x => { x with st := .fired }
      match (s.slot k).inst with
      | none => s
      | some i => match i.nodes[n]? with
        | none => s
        | some x => sendTokens k [(x.form.t, .data tok p)] s)

/-! ## Pail transfers (R363) -/

/-- The checks of a pail address and of every span of bytes that it reaches. [DEDUCED: log 37, 38] -/
def pailCheck (s : State) (k left : Nat) (spans : List (Nat × Nat)) (write : Bool) : Option Trap :=
  let c := slotCore k
  let w := s.partition c
  let prot (r : Nat) : Option Trap := some { cause := causeProtection, addr := left, info := addrInfo r false false 0 none }
  let want : Want := { core := c, sys := systemSlot k, va := left, size := 8, use := .store }
  if left ≥ 0x18000 then prot 7
  else if spans.any fun x => x.2 != 0 && decide (x.1 + x.2 > zoneBase w) then prot 8
  else if write && spans.any fun x => guarded s { want with va := x.1, size := x.2 } c x.1 then prot 8
  else if left % 8 ≠ 0 then some { cause := causeMisaligned, addr := left, info := addrInfo 0xC false false 0 none }
  else none

/-- The rows of a transfer: offset and length. -/
def pailRows (left stride rows n : Nat) : List (Nat × Nat) := (List.range rows).map fun r => (left + r * stride, n)

/-- A stride is legal (R363). [DEDUCED: log 38] -/
def strideOk (v : Nat) : Bool := decide (v < 2 ^ 16) && v % 8 == 0

/-- Read a span of the pail, or the word at which the read waits: 0 where it waits for its order. A byte of a poisoned word is
poisoned. -/
def pailRead (s : State) (k node off n : Nat) : Except Nat (List (Byte × Bool)) :=
  let pa := poolBase (slotCore k) + off
  if n = 0 then .ok []
  else if !readOrder s k pa n then .error 0
  else match readBusy s k node pa n with
    | some w => .error w
    | none => .ok ((List.range n).map fun j => (s.byte (pa + j), s.wordPoisoned (pa + j)))

/-- Read the rows of a transfer. -/
def pailReadRows (s : State) (k node : Nat) : List (Nat × Nat) → Except Nat (List (List (Byte × Bool)))
  | [] => .ok []
  | x :: xs => match pailRead s k node x.1 x.2 with
    | .error w => .error w
    | .ok r => match pailReadRows s k node xs with
      | .error w => .error w
      | .ok rs => .ok (r :: rs)

/-- The last run that gives a byte at an offset: where rows overlap the higher row stands (R365). -/
def lastByte (rows : List (Nat × List (Byte × Bool))) (off : Nat) : Option (Byte × Bool) :=
  rows.foldl (fun m r => if r.1 ≤ off ∧ off < r.1 + r.2.length then some (r.2.getD (off - r.1) (0#8, false)) else m) none

/-- The words that rows of bytes touch. [DEDUCED: log 94] -/
def rowWords (rows : List (Nat × List (Byte × Bool))) : List Nat :=
  (rows.flatMap fun r => wordsOf r.1 r.2.length).foldl setIns []

/-- The relaxed commit-time writes of rows of bytes to the own pail: one run of bytes per word; a poisoned unit
poisons the word (R363). They follow the accesses that have an LSID. [DEDUCED: log 94] -/
def pailWrites (k node : Nat) (rows : List (Nat × List (Byte × Bool))) : List Acc :=
  (rowWords rows).map fun w =>
    let here := (List.range 8).map fun j => lastByte rows (8 * w + j)
    let first := (here.takeWhile fun x => x.isNone).length
    let bs := here.filterMap fun x => x
    { id := 0, inst := 0, lsid := 1000 + node, node := node, kind := .commitTime, ordered := false
      op := .store bs.length (BitVec.ofNat 64 (leNat (bs.map fun b => b.1))) 0#64 (bs.any fun b => b.2)
      va := 8 * w + first, pa := poolBase (slotCore k) + 8 * w + first }

/-! ## Formats (R221 to R224) -/

/-- Bits of an element of a format code; 0 for a reserved code. -/
def elemBits (code : Nat) : Nat :=
  match code with
  | 0x01 => 64
  | 0x02 | 0x03 | 0x0B => 32
  | 0x04 | 0x05 | 0x0C => 16
  | 0x06 | 0x07 | 0x08 | 0x09 | 0x0D | 0x0F | 0x12 | 0x13 => 8
  | 0x0A | 0x0E | 0x10 | 0x11 | 0x14 => 4
  | _ => 0

/-- The floating format of the elements of a code. -/
def elemFloat (code : Nat) : Option FloatFmt :=
  match code with
  | 0x01 => some fmtE11M52
  | 0x02 => some fmtE8M23
  | 0x03 => some fmtE8M10
  | 0x04 => some fmtE5M10
  | 0x05 => some fmtE8M7
  | 0x06 | 0x12 => some fmtE4M3
  | 0x07 => some fmtE5M2
  | 0x08 | 0x13 => some fmtE3M2
  | 0x09 => some fmtE2M3
  | 0x0A | 0x14 => some fmtE2M1
  | _ => none

/-- The integer formats, and which of them are signed. -/
def elemInt (code : Nat) : Option Bool :=
  match code with
  | 0x0B | 0x0C | 0x0D | 0x0E => some true
  | 0x0F | 0x10 => some false
  | _ => none

/-- The K4 levels in units of 2^−8 (R224). -/
def k4Level (j : Nat) : Int :=
  [-256, -178, -134, -101, -74, -50, -26, 0, 20, 40, 62, 86, 114, 146, 186, 256].getD j 0

/-- The integer of an element. -/
def elemInteger (code bits : Nat) : Int :=
  match elemInt code with
  | some true => signedOf (elemBits code) bits
  | _ => bits

/-- The value of an element, without scales. -/
def elemValue (code bits : Nat) : Val :=
  match elemFloat code with
  | some f => valueOf f bits
  | none => if code = 0x11 then .fin (k4Level bits < 0) (k4Level bits).natAbs (-8) else intVal (elemInteger code bits)

/-- The range of an integer format. -/
def elemRange (code : Nat) : Int × Int :=
  let n := elemBits code
  match elemInt code with
  | some true => (-(2 ^ (n - 1)), 2 ^ (n - 1) - 1)
  | _ => (0, 2 ^ n - 1)

/-- A value converted to a scalar format (R225, R229). -/
def elemEncode (code : Nat) (mode : Rounding) (v : Val) : Nat :=
  match elemFloat code with
  | some f => (roundTo f mode v).bits
  | none => ((toIntSat mode (elemRange code) v).1 % 2 ^ elemBits code).toNat

/-- Elements and bytes of a block (R224); 0 for a format without scales. -/
def blockElems (code : Nat) : Nat := if code = 0x11 then 64 else if 0x12 ≤ code ∧ code ≤ 0x14 then 32 else 0
/-- Bytes of a block. -/
def blockBytes (code : Nat) : Nat := if code = 0x14 then 16 else if 0x11 ≤ code ∧ code ≤ 0x13 then 32 else 1
/-- The format has scales. -/
def scaled (code : Nat) : Bool := blockElems code != 0

/-! ## Tiles (R238 to R240) -/

/-- A tile as its TCFG describes it. -/
structure Tile where
  n : Nat
  fmt : Nat
  rows : Nat
  /-- bytes per row -/
  rb : Nat
  scol : Nat
  deriving DecidableEq, Repr, Inhabited

/-- TCFG of a tile as it stood when the instance started (R239). -/
def tileOf (i : Inst) (n : Nat) : Tile :=
  let w := (tabGet i.tcfg0 n tcfgReset).toNat
  { n := n, fmt := fld w 11 5, rows := fld w 6 5 + 1, rb := fld w 0 6 + 1, scol := fld w 16 8 }

/-- Elements per row. -/
def Tile.k (t : Tile) : Nat := t.rb * 8 / elemBits t.fmt

/-- UNSUPPORTED FORMAT: the code, and the tile that held it (R391). -/
def formatFault (t : Tile) : Trap := { cause := causeFormat, addr := 0, info := t.fmt + t.n * 256 }

/-- A format that is reserved, or a row that is not whole elements and blocks (R240). -/
def Tile.bad (t : Tile) : Bool :=
  elemBits t.fmt == 0 || t.rb * 8 % elemBits t.fmt != 0 || t.rb % blockBytes t.fmt != 0

/-- An element: its pattern, and whether its tile word is poisoned. -/
abbrev Elem := Nat × Bool

/-- The elements of a row (R222, R238). -/
def rowElems (s : State) (i : Inst) (core : Nat) (t : Tile) (r : Nat) : List Elem :=
  let a := tileAddr s core t.n + 64 * r
  let x := leNat (qBytes s i a t.rb)
  let bad := (List.range ((t.rb + 7) / 8)).map fun w => qPoison s i 8 (a + 8 * w)
  let w := elemBits t.fmt
  (List.range t.k).map fun j => (x / 2 ^ (j * w) % 2 ^ w, bad.getD (j * w / 64) false)

/-- Stage elements of a tile row from element 0 on: their bytes, with the poison of each. A 4-bit pair shares
a byte. -/
def packElems (w : Nat) (xs : List Elem) : List (Byte × Bool) :=
  let x := xs.foldr (fun e acc => acc * 2 ^ w + e.1 % 2 ^ w) 0
  let n := xs.length * w / 8
  (natBytes n x).mapIdx fun j b => (b, ((xs.drop (j * 8 / w)).take (max 1 (8 / w))).any fun e => e.2)

/-- Stage a run of bytes of a tile. -/
def stageTile (s : State) (core n off : Nat) (bs : List (Byte × Bool)) (i : Inst) : Inst :=
  let j := qStage s 8 (tileAddr s core n + off) bs i
  { j with staged := { j.staged with tiles := setIns j.staged.tiles n } }

/-! ## Scales (R245) -/

/-- A scale: its value, and the poisoned unit of scale memory that it lies in, as a byte offset. -/
structure Scale where
  v : Val
  bad : Option Nat := none
  deriving DecidableEq, Repr, Inhabited

/-- The byte offset of column `n` of a scale group. -/
def scaleColumn (t : Tile) (coff n : Nat) : Nat := 32 * ((t.scol + 8 * coff + n) % 256)

/-- The 8-byte unit of scale memory at an offset, where it is poisoned. -/
def scaleBad (s : State) (i : Inst) (core off : Nat) : Option Nat :=
  if qPoison s i 8 (scaleBase core + off) then some (off / 8 * 8) else none

/-- The scale of block `b` of row `r` (R224, R245). -/
def scaleOf (s : State) (i : Inst) (core : Nat) (t : Tile) (coff r b : Nat) : Scale :=
  if !scaled t.fmt then { v := .fin false 1 0 }
  else
    let off := scaleColumn t coff b + r
    let c := (qByte s i (scaleBase core + off)).toNat
    if t.fmt = 0x11 then
      let so := scaleColumn t coff (4 + r / 8) + 4 * (r % 8)
      let sup := valueOf fmtE8M23 (leNat (qBytes s i (scaleBase core + so) 4))
      { v := (Val.mul (.fin false c 0) sup).1
        bad := (scaleBad s i core off).orElse fun _ => scaleBad s i core so }
    else { v := if c = 0xFF then .nan else .fin false 1 ((c : Int) - 127), bad := scaleBad s i core off }

/-- The scales of a row, one for each block. [DEDUCED: log 96] -/
def rowScales (s : State) (i : Inst) (core : Nat) (t : Tile) (coff r : Nat) : List Scale :=
  let n := if scaled t.fmt then t.k / blockElems t.fmt else 1
  (List.range n).map fun b => scaleOf s i core t coff r b

/-- The scale of an element of a row. -/
def scaleAt (t : Tile) (sc : List Scale) (j : Nat) : Scale :=
  sc.getD (if scaled t.fmt then j / blockElems t.fmt else 0) default

/-- The columns of a tile's scale group are being written by a copy (R244). -/
def groupBusy (co : Core) (t : Tile) (coff : Nat) : Bool :=
  scaled t.fmt && (List.range 8).any fun n => scaleBusy co (scaleColumn t coff n) 32

/-- Record a scale error, once per instance (R61, R63): byte offset, rows, column. [DEDUCED: log 96] -/
def Inst.noteScale (i : Inst) (off : Nat) (rows : Nat) : Inst :=
  match i.scaleError with
  | some _ => i
  | none => { i with scaleError := some (off, rows, off / 32) }

/-! ## MOD (R246) -/

/-- The mode of a MOD field. -/
def modMode (m : BitVec 6) : Rounding := if bitOf m.toNat 5 then Rounding.ofCode (fld m.toNat 3 2) else .rne
/-- COFF. -/
def modCoff (m : BitVec 6) : Nat := fld m.toNat 0 3
/-- The mode of ACCRD. -/
def matRounding : MatMode → Rounding
  | .rneDefault _ => .rne
  | .enabled rm => rm

/-! ## Accumulators (R241) -/

/-- Element [i][j] of an accumulator or of a pair: its address and its bytes. -/
def accElem (s : State) (core n : Nat) (pair : Bool) (i j : Nat) : Nat × Nat :=
  if pair then (accAddr s core n + 256 * i + 8 * j, 8) else (accAddr s core n + 128 * i + 4 * j, 4)

/-- Read it: its pattern, and whether it is poisoned. -/
def readAcc (s : State) (i : Inst) (core n : Nat) (pair : Bool) (r c : Nat) : Elem :=
  let (a, w) := accElem s core n pair r c
  (leNat (qBytes s i a w), qPoison s i 4 a || (pair && qPoison s i 4 (a + 4)))

/-- The accumulators that an operation names. -/
def accsOf (n : Nat) (pair : Bool) : List Nat := if pair then [n, n + 1] else [n]

/-- Stage it. -/
def stageAcc (s : State) (core n : Nat) (pair : Bool) (r c : Nat) (x : Elem) (i : Inst) : Inst :=
  let (a, w) := accElem s core n pair r c
  let j := qStage s 4 a ((natBytes w x.1).map fun b => (b, x.2)) i
  { j with staged := { j.staged with accs := (accsOf n pair).foldl setIns j.staged.accs } }

/-! ## MMA (R235 to R237, R368) -/

/-- The rate classes of R368: formats that may pair. -/
inductive RateClass where
  | e11m52 | e8m23 | bits16 | bits8 | bits4 | s32 | s16 | int8 | int4
  deriving DecidableEq, Repr, Inhabited

/-- The class of a format. -/
def rateOf (code : Nat) : Option RateClass :=
  match code with
  | 0x01 => some .e11m52
  | 0x02 => some .e8m23
  | 0x03 | 0x04 | 0x05 => some .bits16
  | 0x06 | 0x07 | 0x08 | 0x09 | 0x12 | 0x13 => some .bits8
  | 0x0A | 0x11 | 0x14 => some .bits4
  | 0x0B => some .s32
  | 0x0C => some .s16
  | 0x0D | 0x0F => some .int8
  | 0x0E | 0x10 => some .int4
  | _ => none

/-- The pairs that MMA and MMAS accept, and MMAK (R368). -/
def pairOk (mixed : Bool) (a b : Nat) : Bool :=
  if mixed then a == 0x11 && rateOf b == some .bits8
  else rateOf a != none && rateOf a == rateOf b && (rateOf a != some .bits16 || a == b)

/-- The need of an operation on formats (R415). -/
def needOf (mixed : Bool) (a : Nat) : Nat :=
  if mixed then 100
  else match rateOf a with
    | some .e11m52 | some .e8m23 | some .s32 => 80
    | _ => 100

/-- L (R235). -/
def chunkLen (a b : Nat) : Nat := if a = 0x01 then 8 else if a = 0x02 ∨ b = 0x02 then 16 else 32

/-- A product with its scales: a zero takes the sign of its two factors, which a scale never changes
(R236). [DEDUCED: log 90] -/
def scaledProduct (x y sa sb : Val) : Val :=
  let p := (Val.mul x y).1
  match (Val.mul p (Val.mul sa sb).1).1 with
  | .fin n m e => if m = 0 then .fin p.neg? 0 0 else .fin n m e
  | v => v

/-- One chunk: the accumulator and the scaled products, summed exactly and rounded once (R235, R236).
[DEDUCED: log 90] -/
def chunkStep (f : FloatFmt) (mode : Rounding) (acc : Nat) (ps : List Val) : Nat :=
  (roundTo f mode (sumVals mode (valueOf f acc :: ps)).1).bits

/-- Cut a list into chunks. -/
def chunks {α : Type} (n : Nat) : Nat → List α → List (List α)
  | 0, _ => []
  | _ + 1, [] => []
  | k + 1, l => l.take n :: chunks n k (l.drop n)

/-- A row prepared for products: its element values, its poison, its scales. -/
structure RowVals where
  vals : List Val
  ints : List Int
  poison : Bool
  scales : List Scale
  deriving DecidableEq, Repr, Inhabited

/-- Prepare the rows of a tile. -/
def prepareRows (s : State) (i : Inst) (core : Nat) (t : Tile) (coff : Nat) : List RowVals :=
  (List.range t.rows).map fun r =>
    let es := rowElems s i core t r
    { vals := es.map fun e => elemValue t.fmt e.1, ints := es.map fun e => elemInteger t.fmt e.1
      poison := es.any fun e => e.2, scales := rowScales s i core t coff r }

/-- A floating element of the result over all chunks (R235). -/
def floatElem (f : FloatFmt) (mode : Rounding) (len : Nat) (ta tb : Tile) (a b : RowVals) (acc : Nat) : Nat :=
  let ps := (a.vals.zip b.vals).mapIdx fun j x => scaledProduct x.1 x.2 (scaleAt ta a.scales j).v (scaleAt tb b.scales j).v
  (chunks len 64 ps).foldl (chunkStep f mode) acc

/-- An integer element of the result, modulo 2^32 (R237). -/
def intElem (a b : RowVals) (acc : Nat) : Nat :=
  (((a.ints.zip b.ints).foldl (fun (t : Int) (x : Int × Int) => t + x.1 * x.2) (acc : Int)) % 2 ^ 32).toNat

/-- The first poisoned scale of a row. [DEDUCED: log 96] -/
def RowVals.badScale (r : RowVals) : Option Nat := r.scales.findSome? fun x => x.bad

/-- The accumulators of an operation as named units. -/
def accUnits (d : Nat) (pair : Bool) : List (UnitKind × Nat) := (accsOf d pair).map fun n => (.acc, n)

/-- What MMA, MMAS and MMAK check (R240, R368). -/
def mmaCheck (mixed : Bool) (node d : Nat) (ta tb : Tile) (m : BitVec 6) : Option Trap :=
  let ill : Option Trap := some (illegalAt node)
  if ta.bad then some (formatFault ta)
  else if tb.bad then some (formatFault tb)
  else if !pairOk mixed ta.fmt tb.fmt then some (formatFault ta)
  else if ta.k ≠ tb.k then ill
  else if ta.fmt = 0x01 ∧ d % 2 = 1 then ill
  else if modCoff m ≠ 0 ∧ !scaled ta.fmt ∧ !scaled tb.fmt then ill
  else if bitOf m.toNat 5 && (elemInt ta.fmt).isSome then ill
  else none

/-- The body of MMA, MMAS and MMAK (R368). [DEDUCED: log 96] -/
def mmaBody (mixed zero : Bool) (d a b : Nat) (m : BitVec 6) (o : Fired) (s : State) (i : Inst) : QEnd :=
  let core := slotCore o.slot
  let ta := tileOf i a
  let tb := tileOf i b
  match mmaCheck mixed o.node d ta tb m with
  | some t => .fault t
  | none =>
    let pair := ta.fmt == 0x01
    if groupBusy (s.core core) ta (modCoff m) || groupBusy (s.core core) tb (modCoff m) then .wait 0
    else
      let ra := prepareRows s i core ta (modCoff m)
      let rb := prepareRows s i core tb (modCoff m)
      let f := if pair then fmtE11M52 else fmtE8M23
      let int := (elemInt ta.fmt).isSome
      let cells := ra.mapIdx fun r x => rb.mapIdx fun c y =>
        let old : Elem := if zero then (0, false) else readAcc s i core d pair r c
        let v := if int then intElem x y old.1 else floatElem f (modMode m) (chunkLen ta.fmt tb.fmt) ta tb x y old.1
        (r, c, ((v, old.2 || x.poison || y.poison || x.badScale.isSome || y.badScale.isSome) : Elem))
      let j := cells.flatten.foldl (fun j x => stageAcc s core d pair x.1 x.2.1 x.2.2 j) i
      let badB := rb.findSome? fun y => y.badScale
      let rows := if badB.isSome then ta.rows else (ra.filter fun x => x.badScale.isSome).length
      let j := match (ra.findSome? fun x => x.badScale).orElse fun _ => badB with
        | some off => j.noteScale off rows
        | none => j
      .done 0#64 false j []

/-- The units that a multiplication names: with E11M52 tiles the accumulator is a pair (R241, R362). -/
def mmaUnits (s : State) (d a b : Nat) : List (UnitKind × Nat) :=
  let pair : Bool := match (s.slot s.focus.slot).inst with
    | some i => (tileOf i a).fmt == 0x01
    | none => false
  accUnits d (pair && d % 2 == 0) ++ [(.tile, a), (.tile, b)]

/-- The power need of a multiplication, by its tiles (R415). -/
def mmaNeed (mixed : Bool) (s : State) (a : Nat) : Nat :=
  match (s.slot s.focus.slot).inst with
  | some i => needOf mixed (tileOf i a).fmt
  | none => 100

/-- MMA (R368). -/
def execMma (p : Pred) (t : Tgt) (d a b : BitVec 3) (m : BitVec 6) (s : State) : Result :=
  .next (qShell (.mma p t d a b m) (mmaUnits s d.toNat a.toNat b.toNat) (mmaNeed false s a.toNat)
    (mmaBody false false d.toNat a.toNat b.toNat m) s)

/-- MMAS (R368). -/
def execMmas (p : Pred) (t : Tgt) (d a b : BitVec 3) (m : BitVec 6) (s : State) : Result :=
  .next (qShell (.mmas p t d a b m) (mmaUnits s d.toNat a.toNat b.toNat) (mmaNeed false s a.toNat)
    (mmaBody false true d.toNat a.toNat b.toNat m) s)

/-- MMAK (R368). -/
def execMmak (p : Pred) (t : Tgt) (d a b : BitVec 3) (m : BitVec 6) (s : State) : Result :=
  .next (qShell (.mmak p t d a b m) (mmaUnits s d.toNat a.toNat b.toNat) (mmaNeed true s a.toNat)
    (mmaBody true false d.toNat a.toNat b.toNat m) s)

/-! ## Rows between the pail and the unit (R365, R366) -/

/-- TLD (R365). -/
def execTld (p : Pred) (t : Tgt) (d : BitVec 3) (s : State) : Result :=
  .next (qShell (.tld p t d) [(.tile, d.toNat)] 24 (fun o s i =>
    let c := tileOf i d.toNat
    let spans := pailRows o.l.toNat o.r.toNat c.rows c.rb
    if !strideOk o.r.toNat then .fault (illegalAt o.node)
    else match pailCheck s o.slot o.l.toNat spans false with
      | some f => .fault f
      | none => match pailReadRows s o.slot o.node spans with
        | .error w => .wait w
        | .ok rows =>
          let rs := rows.mapIdx fun r bs => (r, bs)
          .done 0#64 false (rs.foldl (fun j x => stageTile s (slotCore o.slot) d.toNat (64 * x.1) x.2 j) i) []) s)

/-- TST (R365). -/
def execTst (p : Pred) (t : Tgt) (a : BitVec 3) (s : State) : Result :=
  .next (qShell (.tst p t a) [(.tile, a.toNat)] 24 (fun o s i =>
    let c := tileOf i a.toNat
    let spans := pailRows o.l.toNat o.r.toNat c.rows c.rb
    if c.bad then .fault (formatFault c)
    else if !strideOk o.r.toNat then .fault (illegalAt o.node)
    else match pailCheck s o.slot o.l.toNat spans true with
      | some f => .fault f
      | none =>
        let base := tileAddr s (slotCore o.slot) a.toNat
        let rows := spans.mapIdx fun r x =>
          (x.1, (List.range c.rb).map fun n => (qByte s i (base + 64 * r + n), qPoison s i 8 (base + 64 * r + n)))
        .done 0#64 false i (pailWrites o.slot o.node rows)) s)

/-- TZERO (R366). -/
def execTzero (p : Pred) (t : Tgt) (d : BitVec 3) (s : State) : Result :=
  .next (qShell (.tzero p t d) [(.tile, d.toNat)] 24 (fun o s i =>
    .done 0#64 false (stageTile s (slotCore o.slot) d.toNat 0 (List.replicate 2048 (0#8, false)) i) []) s)

/-- Stage whole rows of an accumulator or pair. -/
def stageAccRows (s : State) (core n : Nat) (pair : Bool) (rows : List (List (Byte × Bool))) (i : Inst) : Inst :=
  let w := if pair then 256 else 128
  let rs := rows.mapIdx fun r bs => (r, bs)
  let j := rs.foldl (fun j x => qStage s 4 (accAddr s core n + w * x.1) x.2 j) i
  { j with staged := { j.staged with accs := (accsOf n pair).foldl setIns j.staged.accs } }

/-- ACCZ (R366). -/
def execAccz (p : Pred) (t : Tgt) (d : BitVec 3) (pair : Bool) (s : State) : Result :=
  .next (qShell (.accz p t d pair) (accUnits d.toNat pair) 24 (fun o s i =>
    .done 0#64 false (stageAccRows s (slotCore o.slot) d.toNat pair
      (List.replicate 32 (List.replicate (if pair then 256 else 128) (0#8, false))) i) []) s)

/-- ACCLD (R365). -/
def execAccld (p : Pred) (t : Tgt) (d : BitVec 3) (pair : Bool) (s : State) : Result :=
  .next (qShell (.accld p t d pair) (accUnits d.toNat pair) 24 (fun o s i =>
    let spans := pailRows o.l.toNat o.r.toNat 32 (if pair then 256 else 128)
    if !strideOk o.r.toNat then .fault (illegalAt o.node)
    else match pailCheck s o.slot o.l.toNat spans false with
      | some f => .fault f
      | none => match pailReadRows s o.slot o.node spans with
        | .error w => .wait w
        | .ok rows => .done 0#64 false (stageAccRows s (slotCore o.slot) d.toNat pair rows i) []) s)

/-! ## TTRN, ACCRD, TDEQ (R367, R369, R370) -/

/-- TTRN (R367). -/
def execTtrn (p : Pred) (t : Tgt) (d a : BitVec 3) (s : State) : Result :=
  .next (qShell (.ttrn p t d a) [(.tile, d.toNat), (.tile, a.toNat)] 24 (fun o s i =>
    let core := slotCore o.slot
    let ta := tileOf i a.toNat
    let td := tileOf i d.toNat
    let e := elemBits ta.fmt
    if ta.bad || scaled ta.fmt then .fault (formatFault ta)
    else if elemBits td.fmt = 0 then .fault (formatFault td)
    else if td.fmt ≠ ta.fmt ∨ td.rows ≠ ta.k ∨ td.rb * 8 ≠ ta.rows * e ∨ (e = 4 ∧ ta.rows % 2 = 1) then
      .fault (illegalAt o.node)
    else
      let rows := (List.range ta.rows).map fun r => rowElems s i core ta r
      let out := (List.range ta.k).map fun j => (j, rows.map fun r => r.getD j (0, false))
      .done 0#64 false (out.foldl (fun x y => stageTile s core d.toNat (64 * y.1) (packElems e y.2) x) i) []) s)

/-- The value of an accumulator element as ACCRD reads it (R369). [DEDUCED: log 95] -/
def accrdValue (k : AccKind) (bits : Nat) : Val :=
  match k with
  | .e8m23 => valueOf fmtE8M23 bits
  | .pair => valueOf fmtE11M52 bits
  | .s32 => intVal (signedOf 32 bits)

/-- ACCRD (R369). [DEDUCED: log 95] -/
def execAccrd (p : Pred) (t : Tgt) (d a : BitVec 3) (b : AccKind) (m : MatMode) (s : State) : Result :=
  .next (qShell (.accrd p t d a b m) ((.tile, d.toNat) :: accUnits a.toNat (b == .pair)) 24 (fun o s i =>
    let core := slotCore o.slot
    let td := tileOf i d.toNat
    if td.bad || td.fmt ≥ 0x11 then .fault (formatFault td)
    else if td.k > 32 then .fault (illegalAt o.node)
    else
      let rows := (List.range td.rows).map fun r =>
        (r, (List.range td.k).map fun c =>
          let x := readAcc s i core a.toNat (b == .pair) r c
          ((elemEncode td.fmt (matRounding m) (accrdValue b x.1), x.2) : Elem))
      .done 0#64 false (rows.foldl (fun x y => stageTile s core d.toNat (64 * y.1) (packElems (elemBits td.fmt) y.2) x) i) []) s)

/-- The exact values of a row's elements with their scales (R224), each with its poison. -/
def rowValues (s : State) (i : Inst) (core : Nat) (t : Tile) (coff r : Nat) : List (Val × Bool) :=
  let sc := rowScales s i core t coff r
  (rowElems s i core t r).mapIdx fun j e =>
    let x := scaleAt t sc j
    ((Val.mul (elemValue t.fmt e.1) x.v).1, e.2 || x.bad.isSome)

/-- The scale errors of a tile's rows: the first, and in how many rows (R61). -/
def tileScaleError (s : State) (i : Inst) (core : Nat) (t : Tile) (coff : Nat) : Option (Nat × Nat) :=
  let bad := (List.range t.rows).filterMap fun r => (rowScales s i core t coff r).findSome? fun x => x.bad
  bad.head?.map fun off => (off, bad.length)

/-- Note the scale errors of a tile. -/
def noteTile (s : State) (core : Nat) (t : Tile) (coff : Nat) (i : Inst) : Inst :=
  match tileScaleError s i core t coff with
  | some (off, n) => i.noteScale off n
  | none => i

/-- TDEQ (R370). -/
def execTdeq (p : Pred) (t : Tgt) (d a b : BitVec 3) (m : BitVec 6) (s : State) : Result :=
  .next (qShell (.tdeq p t d a b m) [(.tile, d.toNat), (.tile, a.toNat)] 24 (fun o s i =>
    let core := slotCore o.slot
    let ta := tileOf i a.toNat
    let td := tileOf i d.toNat
    let start := 16 * b.toNat
    if ta.bad then .fault (formatFault ta)
    else if td.bad || td.fmt > 0x0A then .fault (formatFault td)
    else if ta.rows ≠ td.rows ∨ start + td.k > ta.k then .fault (illegalAt o.node)
    else if groupBusy (s.core core) ta (modCoff m) then .wait 0
    else
      let rows := (List.range td.rows).map fun r =>
        (r, (((rowValues s i core ta (modCoff m) r).drop start).take td.k).map fun x =>
          ((elemEncode td.fmt (modMode m) x.1, x.2) : Elem))
      .done 0#64 false (noteTile s core ta (modCoff m)
        (rows.foldl (fun x y => stageTile s core d.toNat (64 * y.1) (packElems (elemBits td.fmt) y.2) x) i)) []) s)

/-! ## TOPK and TRED (R371, R372) -/

/-- The magnitude of a value. -/
def Val.abs : Val → Val
  | .nan => .nan
  | .inf _ => .inf false
  | .fin _ m e => .fin false m e

/-- One key stands before another in the ranking of R371. -/
def rankedBefore (x y : Val) : Bool :=
  match x, y with
  | .nan, _ => false
  | _, .nan => true
  | a, b => a.order b == .gt

/-- Put a key into a ranking behind every key that is not below it. -/
def rankInsert (x : Val × Nat) : List (Val × Nat) → List (Val × Nat)
  | [] => [x]
  | y :: ys => if rankedBefore x.1 y.1 then x :: y :: ys else y :: rankInsert x ys

/-- The ranking of a row's keys. -/
def ranking (keys : List Val) : List (Val × Nat) := (keys.mapIdx fun j v => (v, j)).foldl (fun l x => rankInsert x l) []

/-- TOPK (R371). -/
def execTopk (p : Pred) (t : Tgt) (d a : BitVec 3) (mag : Bool) (c : BitVec 3) (s : State) : Result :=
  .next (qShell (.topk p t d a mag c) [(.tile, d.toNat), (.tile, a.toNat)] 24 (fun o s i =>
    let core := slotCore o.slot
    let ta := tileOf i a.toNat
    let td := tileOf i d.toNat
    let k := o.l.toNat
    if ta.bad then .fault (formatFault ta)
    else if elemBits td.fmt = 0 then .fault (formatFault td)
    else if k = 0 ∨ k > 32 ∨ td.fmt ≠ 0x0C ∨ td.rows < ta.rows ∨ td.rb < 2 * k then .fault (illegalAt o.node)
    else if groupBusy (s.core core) ta c.toNat then .wait 0
    else
      let rows := (List.range ta.rows).map fun r =>
        let vs := rowValues s i core ta c.toNat r
        let order := ranking (vs.map fun v => if mag then v.1.abs else v.1)
        let bad := vs.any fun v => v.2
        (r, (List.range k).map fun m => (((match order[m]? with | some x => x.2 | none => 0xFFFF), bad) : Elem))
      .done 0#64 false (noteTile s core ta c.toNat
        (rows.foldl (fun x y => stageTile s core d.toNat (64 * y.1) (packElems 16 y.2) x) i)) []) s)

/-- The greater or the lesser of two values; a NaN makes NaN, and −0 is below +0. -/
def pickVal (greatest : Bool) (x y : Val) : Val :=
  if x = .nan ∨ y = .nan then .nan
  else if greatest then (if x.below y then y else x) else (if y.below x then y else x)

/-- Reduce values in an order. -/
def pickVals (greatest : Bool) : List Val → Val
  | [] => .nan
  | x :: xs => xs.foldl (pickVal greatest) x

/-- The floating result of TRED for a row; `old` is D's element with ACC = 1 (R372). [DEDUCED: log 91] -/
def tredFloat (op : RedOp) (vs : List Val) (old : Option Val) : Nat :=
  let y := match op with
    | .sum => (sumVals .rne (old.toList ++ vs)).1
    | .max => pickVals true (old.toList ++ vs)
    | .min => pickVals false (old.toList ++ vs)
  (roundTo fmtE8M23 .rne y).bits

/-- The integer result of TRED for a row, modulo 2^32 (R372). -/
def tredInt (op : RedOp) (vs : List Int) (old : Option Int) : Nat :=
  let all := old.toList ++ vs
  let x := match op, all with
    | _, [] => 0
    | .sum, l => l.foldl (fun t x => t + x) 0
    | .max, x :: xs => xs.foldl max x
    | .min, x :: xs => xs.foldl min x
  (x % 2 ^ 32).toNat

/-- TRED (R372). -/
def execTred (p : Pred) (t : Tgt) (d a : BitVec 3) (op : RedOp) (acc : Bool) (c : BitVec 3) (s : State) : Result :=
  .next (qShell (.tred p t d a op acc c) [(.acc, d.toNat), (.tile, a.toNat)] 24 (fun o s i =>
    let core := slotCore o.slot
    let ta := tileOf i a.toNat
    if ta.bad then .fault (formatFault ta)
    else if 32 ≤ o.l.toNat then .fault (illegalAt o.node)
    else if groupBusy (s.core core) ta c.toNat then .wait 0
    else
      let cells := (List.range ta.rows).map fun r =>
        let old := readAcc s i core d.toNat false r o.l.toNat
        let vs := rowValues s i core ta c.toNat r
        let v := match elemInt ta.fmt with
          | some sg =>
            let o : Int := if sg then signedOf 32 old.1 else old.1
            tredInt op ((rowElems s i core ta r).map fun e => elemInteger ta.fmt e.1) (if acc then some o else none)
          | none => tredFloat op (vs.map fun v => v.1) (if acc then some (valueOf fmtE8M23 old.1) else none)
        (r, ((v, (acc && old.2) || vs.any fun v => v.2) : Elem))
      .done 0#64 false (noteTile s core ta c.toNat
        (cells.foldl (fun x y => stageAcc s core d.toNat false y.1 o.l.toNat y.2 x) i)) []) s)

/-! ## Scale memory (R373) -/

/-- COUNT and OFFSET of a span, where it is legal. -/
def scaleSpan (v : Nat) : Option (Nat × Nat) :=
  let n := fld v 16 12
  let off := fld v 0 13
  if v / 2 ^ 28 ≠ 0 ∨ fld v 13 3 ≠ 0 ∨ n < 8 ∨ n > 1024 ∨ n % 8 ≠ 0 ∨ off % 8 ≠ 0 ∨ off + n > 8192 then none else some (n, off)

/-- SCLD (R373). -/
def execScld (p : Pred) (t : Tgt) (s : State) : Result :=
  .next (qShell (.scld p t) [] 24 (fun o s i =>
    match scaleSpan o.r.toNat with
    | none => .fault (illegalAt o.node)
    | some (n, off) =>
      match pailCheck s o.slot o.l.toNat [(o.l.toNat, n)] false with
      | some f => .fault f
      | none =>
        if scaleBusy (s.core (slotCore o.slot)) off n then .wait 0
        else match pailRead s o.slot o.node o.l.toNat n with
          | .error w => .wait w
          | .ok bs => .done 0#64 false (qStage s 8 (scaleBase (slotCore o.slot) + off) bs i) []) s)

/-- SCST (R373). -/
def execScst (p : Pred) (t : Tgt) (s : State) : Result :=
  .next (qShell (.scst p t) [] 24 (fun o s i =>
    match scaleSpan o.r.toNat with
    | none => .fault (illegalAt o.node)
    | some (n, off) =>
      match pailCheck s o.slot o.l.toNat [(o.l.toNat, n)] true with
      | some f => .fault f
      | none =>
        if scaleBusy (s.core (slotCore o.slot)) off n then .wait 0
        else
          let a := scaleBase (slotCore o.slot) + off
          let row := (List.range n).map fun j => (qByte s i (a + j), qPoison s i 8 (a + j))
          .done 0#64 false i (pailWrites o.slot o.node [(o.l.toNat, row)])) s)

end Sys2Proof.Machine
end

