-- ==== Sys2Proof/Machine/Separator.lean ====
section
/-! DEFINITION. The Separator: s-registers and mailbox records in information form (R247, R248), elimination
(R250, R251), damping (R252), and opcodes 0xB0 to 0xB8 (R249, R375 to R377). -/

namespace Sys2Proof.Machine

/-! ## s-registers (R247) -/

/-- A block in information form: d, Λ by rows and η, six of each, E8M23 patterns with their poison. -/
structure Info where
  d : Nat
  lam : List (List Elem)
  eta : List Elem
  deriving DecidableEq, Repr, Inhabited

/-- Λ[i][j]. -/
def Info.l (x : Info) (i j : Nat) : Elem := (x.lam.getD i []).getD j (0, false)
/-- η[i]. -/
def Info.h (x : Info) (i : Nat) : Elem := x.eta.getD i (0, false)

/-- A block from its elements; those with an index of `d` or more are 0 (R247). -/
def infoOf (d : Nat) (l : Nat → Nat → Elem) (h : Nat → Elem) : Info :=
  { d := d
    lam := (List.range 6).map fun i => (List.range 6).map fun j => if i < d ∧ j < d then l i j else (0, false)
    eta := (List.range 6).map fun i => if i < d then h i else (0, false) }

/-- Read an s-register. A poisoned d poisons every element. -/
def readSreg (s : State) (i : Inst) (core n : Nat) : Info :=
  let a := sregAddr s core n
  let dp := qPoison s i 4 (a + 0xA8)
  let at_ (off : Nat) : Elem := (leNat (qBytes s i (a + off) 4), qPoison s i 4 (a + off) || dp)
  { d := (qByte s i (a + 0xA8)).toNat
    lam := (List.range 6).map fun r => (List.range 6).map fun c => at_ (24 * r + 4 * c)
    eta := (List.range 6).map fun r => at_ (0x90 + 4 * r) }

/-- The bytes of an element. -/
def elemRun (e : Elem) : List (Byte × Bool) := (natBytes 4 e.1).map fun b => (b, e.2)

/-- Stage an s-register. -/
def stageSreg (s : State) (core n : Nat) (x : Info) (i : Inst) : Inst :=
  let bs := x.lam.flatten.flatMap elemRun ++ x.eta.flatMap elemRun ++ [(BitVec.ofNat 8 x.d, false)] ++ List.replicate 87 (0#8, false)
  qStage s 4 (sregAddr s core n) bs i

/-! ## Mailbox records (R248) -/

/-- A record: its 256 bytes with their poison. -/
abbrev MailRecord := List (Byte × Bool)

/-- A word of a record. -/
def recordWord (r : MailRecord) (off : Nat) : Elem :=
  let bs := (r.drop off).take 4
  (leNat (bs.map fun b => b.1), bs.any fun b => b.2)

/-- The place of [i][j], i ≤ j, in the upper triangle by rows. -/
def triIndex (i j : Nat) : Nat := 6 * i - i * (i - 1) / 2 + (j - i)

/-- Offset of the current and of the previous message. -/
def messageAt (prev : Bool) : Nat := if prev then 0x6C else 0

/-- Λ[i][j] of a message of a record. -/
def recordL (r : MailRecord) (prev : Bool) (i j : Nat) : Elem := recordWord r (messageAt prev + 4 * triIndex (min i j) (max i j))
/-- η[i] of it. -/
def recordH (r : MailRecord) (prev : Bool) (i : Nat) : Elem := recordWord r (messageAt prev + 0x54 + 4 * i)
/-- The header. [DEDUCED: log 97] -/
def recordHeader (r : MailRecord) : Nat := (recordWord r 0xDC).1
/-- d of the header. -/
def recordD (r : MailRecord) : Nat := recordHeader r % 8

/-- The bytes of a message from its elements: the triangle over `d`, the rest 0 (R375). -/
def messageRun (d : Nat) (x : Info) : List (Byte × Bool) :=
  ((List.range 6).flatMap fun i => (List.range 6).flatMap fun j =>
    if i ≤ j then elemRun (if i < d ∧ j < d then x.l i j else (0, false)) else []) ++
  ((List.range 6).flatMap fun i => elemRun (if i < d then x.h i else (0, false)))

/-- The header with another d and STEP advanced (R375). -/
def nextHeader (h d : Nat) : Nat := (h / 2 ^ 16 + 1) % 2 ^ 16 * 2 ^ 16 + h % 2 ^ 16 / 8 * 8 + d

/-- A record operation: the checks of R248 and the reading of the record and its header. [DEDUCED: log 97] -/
def withRecord (o : Fired) (s : State) (write : Bool) (f : MailRecord → QEnd) : QEnd :=
  let a := o.l.toNat
  match pailCheck s o.slot a [(a, 256)] write with
  | some t => .fault t
  | none =>
    if a % 256 ≠ 0 then .fault { cause := causeMisaligned, addr := a, info := addrInfo 0xC false false 0 none }
    else match pailRead s o.slot o.node a 256 with
      | .error w => .wait w
      | .ok r =>
        if (recordWord r 0xDC).2 then .fault { cause := causePoison, addr := a + 0xD8, info := dataInfo 1 0 0 false }
        else if recordD r = 0 ∨ recordD r = 7 then .fault (illegalAt o.node)
        else f r

/-! ## Arithmetic in E8M23 -/

/-- The value of an element. -/
def elemVal (e : Elem) : Val := valueOf fmtE8M23 e.1

/-- round(E8M23, RNE, x). -/
def roundElem (x : Val) : Nat := (roundTo fmtE8M23 .rne x).bits

/-- An exact quotient by a finite non-zero value, to more bits than any rounding can see. -/
def Val.div (x y : Val) : Val :=
  match x, y with
  | .fin a m e, .fin b n g =>
    if m = 0 then .fin (a != b) 0 0
    else if n = 0 then .inf (a != b)
    else
      let k := 64 + bitLength n
      let q := m * 2 ^ k / n
      .fin (a != b) (2 * q + bitField (m * 2 ^ k % n != 0)) (e - g - k - 1)
  | .inf a, .fin b _ _ => .inf (a != b)
  | _, _ => .nan

/-- x − l × y, fused, rounded once (R250). -/
def fusedSub (x l y : Elem) : Elem :=
  (roundElem (sumVals .rne [elemVal x, (Val.mul (elemVal l) (elemVal y)).1.negate]).1, x.2 || l.2 || y.2)

/-! ## Elimination (R250, R251) -/

/-- SEP.EPS as a value: a negative or NaN one acts as +0 (R251). -/
def epsVal (w : Word) : Val :=
  match valueOf fmtE8M23 (w.toNat % 2 ^ 32) with
  | .nan => .fin false 0 0
  | v => if v.neg? then .fin false 0 0 else v

/-- SINGULAR (R251). [DEDUCED: log 98] -/
def singular (pivot k n : Nat) : Trap :=
  { cause := causeSingular, addr := 0, info := pivot * 2 ^ 32 + k * 8 + n }

/-- The pivot check; a poisoned pivot is not tested (R60, R250). [DEDUCED: log 97] -/
def pivotBad (eps : Val) (p : Elem) : Bool :=
  !p.2 && match elemVal p with
    | .nan => true
    | .inf _ => true
    | v => v.order eps != .gt

/-- One step of elimination at k (R250). [DEDUCED: log 98] -/
def elimStep (x : Info) (k : Nat) : Info :=
  let p := x.l k k
  let r : Elem := (roundElem ((Val.fin false 1 0).div (elemVal p)), p.2)
  let l (i : Nat) : Elem := let a := x.l k i; (roundElem (Val.mul (elemVal a) (elemVal r)).1, a.2 || r.2)
  infoOf k (fun i j => fusedSub (x.l (min i j) (max i j)) (l (min i j)) (x.l k (max i j))) (fun i => fusedSub (x.h i) (l i) (x.h k))

/-- Eliminate from d − 1 down to m (R250): `fuel` steps at most. [DEDUCED: log 98] -/
def eliminate (eps : Val) (n m : Nat) : Nat → Info → Except Trap Info
  | 0, x => .ok x
  | f + 1, x =>
    if x.d ≤ m then .ok x
    else
      let k := x.d - 1
      if pivotBad eps (x.l k k) then .error (singular (x.l k k).1 k n) else eliminate eps n m f (elimStep x k)

/-- What GSOLVE keeps of each step: pivot, row and η (R376). -/
structure Kept where
  piv : Elem
  row : List Elem
  et : Elem
  deriving DecidableEq, Repr, Inhabited

/-- The eliminations of GSOLVE; the first kept is that of variable 0 (R376). -/
def solveDown (eps : Val) (n : Nat) : Nat → Info → List Kept → Except Trap (List Kept)
  | 0, _, acc => .ok acc
  | f + 1, x, acc =>
    if x.d = 0 then .ok acc
    else
      let k := x.d - 1
      let kept : Kept := { piv := x.l k k, row := (List.range k).map fun i => x.l k i, et := x.h k }
      if pivotBad eps (x.l k k) then .error (singular (x.l k k).1 k n)
      else solveDown eps n f (elimStep x k) (kept :: acc)

/-- Back substitution in ascending index (R376). -/
def solveUp (xs : List Elem) : List Kept → List Elem
  | [] => xs
  | q :: qs =>
    let ps := (q.row.zip xs).map fun y => (Val.mul (elemVal y.1) (elemVal y.2)).1.negate
    let num := (sumVals .rne (elemVal q.et :: ps)).1
    let bad := q.et.2 || q.piv.2 || (q.row.zip xs).any fun y => y.1.2 || y.2.2
    solveUp (xs ++ [(roundElem (num.div (elemVal q.piv)), bad)]) qs

/-! ## Instructions -/

/-- GLD (R249, R375). -/
def execGld (p : Pred) (t : Tgt) (d : BitVec 2) (prev : Bool) (s : State) : Result :=
  .next (qShell (.gld p t d prev) [(.sreg, d.toNat)] 24 (fun o s i =>
    withRecord o s false fun r =>
      .done 0#64 false (stageSreg s (slotCore o.slot) d.toNat (infoOf (recordD r) (recordL r prev) (recordH r prev)) i) []) s)

/-- GST (R249, R375). -/
def execGst (p : Pred) (t : Tgt) (a : BitVec 2) (s : State) : Result :=
  .next (qShell (.gst p t a) [(.sreg, a.toNat)] 24 (fun o s i =>
    withRecord o s true fun r =>
      let x := readSreg s i (slotCore o.slot) a.toNat
      let rows := [(o.l.toNat, messageRun x.d x ++ r.take 0x6C),
        (o.l.toNat + 0xDC, (natBytes 4 (nextHeader (recordHeader r) x.d)).map fun b => (b, false))]
      .done 0#64 false i (pailWrites o.slot o.node rows)) s)

/-- GACC (R249). -/
def execGacc (p : Pred) (t : Tgt) (d a : BitVec 2) (s : State) : Result :=
  .next (qShell (.gacc p t d a) [(.sreg, d.toNat), (.sreg, a.toNat)] 24 (fun o s i =>
    let c := slotCore o.slot
    let x := readSreg s i c d.toNat
    let y := readSreg s i c a.toNat
    let add (e g : Elem) : Elem := (roundElem (sumVals .rne [elemVal e, elemVal g]).1, e.2 || g.2)
    if x.d ≠ y.d then .fault (illegalAt o.node)
    else .done 0#64 false (stageSreg s c d.toNat (infoOf x.d (fun r k => add (x.l r k) (y.l r k)) (fun r => add (x.h r) (y.h r))) i) []) s)

/-- SEP.EPS of a slot as a value. [DEDUCED: log 98] -/
def slotEps (s : State) (k : Nat) : Val := epsVal (s.slot k).sepEps

/-- GELIM (R249, R250). -/
def execGelim (p : Pred) (t : Tgt) (d : BitVec 2) (m : BitVec 3) (s : State) : Result :=
  .next (qShell (.gelim p t d m) [(.sreg, d.toNat)] 24 (fun o s i =>
    let c := slotCore o.slot
    let x := readSreg s i c d.toNat
    if m.toNat = 0 ∨ x.d ≤ m.toNat then .fault (illegalAt o.node)
    else match eliminate (slotEps s o.slot) d.toNat m.toNat 6 x with
      | .error f => .fault f
      | .ok y => .done 0#64 false (stageSreg s c d.toNat y i) []) s)

/-- β clamped to [0, 1], a NaN acting as 0 (R252). -/
def clampBeta (v : Val) : Val :=
  match v with
  | .nan => .fin false 0 0
  | v => if v.neg? then .fin false 0 0 else if v.order (.fin false 1 0) = .gt then .fin false 1 0 else v

/-- One damped element (R252). -/
def damp (beta : Val) (bp : Bool) (x prev : Elem) : Elem :=
  let rest := (sumVals .rne [.fin false 1 0, beta.negate]).1
  (roundElem (sumVals .rne [(Val.mul rest (elemVal x)).1, (Val.mul beta (elemVal prev)).1]).1, x.2 || prev.2 || bp)

/-- GDAMP (R249, R252, R375). -/
def execGdamp (p : Pred) (t : Tgt) (d : BitVec 2) (fromReg : Bool) (s : State) : Result :=
  .next (qShell (.gdamp p t d fromReg) [(.sreg, d.toNat)] 24 (fun o s i =>
    withRecord o s false fun r =>
      let c := slotCore o.slot
      let x := readSreg s i c d.toNat
      let b : Elem := if fromReg then ((s.slot o.slot).sepBeta.toNat % 2 ^ 32, false) else recordWord r 0xD8
      if x.d ≠ recordD r then .fault (illegalAt o.node)
      else
        let f := damp (clampBeta (elemVal b)) b.2
        .done 0#64 false (stageSreg s c d.toNat
          (infoOf x.d (fun i j => f (x.l i j) (recordL r true i j)) (fun i => f (x.h i) (recordH r true i))) i) []) s)

/-- GSOLVE (R376). -/
def execGsolve (p : Pred) (t : Tgt) (d : BitVec 2) (s : State) : Result :=
  .next (qShell (.gsolve p t d) [(.sreg, d.toNat)] 24 (fun o s i =>
    let c := slotCore o.slot
    let x := readSreg s i c d.toNat
    match solveDown (slotEps s o.slot) d.toNat 6 x [] with
    | .error f => .fault f
    | .ok kept =>
      let eta := solveUp [] kept
      .done 0#64 false (stageSreg s c d.toNat { x with eta := eta ++ x.eta.drop eta.length } i) []) s)

/-- The greatest change of η (R377); none where it is NaN. -/
def greatestChange (r : MailRecord) (d : Nat) : Val :=
  (List.range d).foldl (fun m i =>
    let v := (sumVals .rne [elemVal (recordH r false i), (elemVal (recordH r true i)).negate]).1.abs
    if m = .nan ∨ v = .nan then .nan else if v.order m = .gt then v else m) (.fin false 0 0)

/-- GCHK (R377); a poisoned η poisons the token (R60). [DEDUCED: log 97] -/
def execGchk (p : Pred) (t : Tgt) (s : State) : Result :=
  .next (qShell (.gchk p t) [] 24 (fun o s i =>
    withRecord o s false fun r =>
      let v := (roundTo fmtE8M23 .ru (greatestChange r (recordD r))).bits
      let bad := (List.range (recordD r)).any fun n => (recordH r false n).2 || (recordH r true n).2
      .done (BitVec.ofNat 64 v) bad i []) s)

/-- GSHIFT (R249, R375). -/
def execGshift (p : Pred) (t : Tgt) (s : State) : Result :=
  .next (qShell (.gshift p t) [] 24 (fun o s i =>
    withRecord o s true fun r =>
      let rows := [(o.l.toNat + 0x6C, r.take 0x6C),
        (o.l.toNat + 0xDC, (natBytes 4 (nextHeader (recordHeader r) (recordD r))).map fun b => (b, false))]
      .done 0#64 false i (pailWrites o.slot o.node rows)) s)

/-- GZERO (R249, R375). -/
def execGzero (p : Pred) (t : Tgt) (d : BitVec 2) (m : BitVec 3) (s : State) : Result :=
  .next (qShell (.gzero p t d m) [(.sreg, d.toNat)] 24 (fun o s i =>
    .done 0#64 false (stageSreg s (slotCore o.slot) d.toNat (infoOf m.toNat (fun _ _ => (0, false)) (fun _ => (0, false))) i) []) s)

end Sys2Proof.Machine
end

