-- ==== Sys2Proof/Machine/Threads.lean ====
section
/-! DEFINITION. Threads in slots: how one starts (R188, R190, R220), how it is killed (R116, R122, R385), and
what a task's fatal fault does to its holds, its element and its entry (R214). -/

namespace Sys2Proof.Machine

/-- The registers of a file of `n` registers that hold g1 to g8 (R43, R188). -/
def argRegs (n : Nat) (args : List Word) : Tab Reg :=
  (List.range 8).filterMap fun i => if i + 1 < n - 1 then some (i + 1, { val := args.getD i 0#64 : Reg }) else none

/-- A thread starts in a slot: every register that is not given is 0; the trap registers, the launch and the
ranks stay with the slot, and so does the number of the last exit taken in it (R188, R190, R220, R275, R392).
[DEDUCED: log 77] -/
def newThread (k entry : Nat) (regs : Tab Reg) (task : Option TaskInfo) (deadline : Word) (parent : Option Nat)
    (s : State) : State :=
  s.modSlot k fun x =>
    { life := .fetch, next := entry, blk := entry, count := x.count, regs := regs, task := task, deadline := deadline
      parent := parent, launch := x.launch, ranks := x.ranks, lastIssue := x.lastIssue, slowUntil := x.slowUntil
      exn := x.exn, trapCause := x.trapCause, trapAddr := x.trapAddr, trapBlock := x.trapBlock, trapInfo := x.trapInfo
      trapVec := x.trapVec }

/-- A slot holds no thread any more; it stays bound to the launch that owns the core (R171). What its registers hold stays until
another thread starts in it (R188). [DEDUCED: log 77] -/
def emptySlot (k : Nat) (s : State) : State :=
  let la := (s.core (slotCore k)).launch
  s.modSlot k fun x =>
    { x with
      life := .free, halt := .none, inst := none, fetchMiss := none, launch := la, task := none, handlerFile := none
      parent := none, join := 0
      regs := x.regs.map fun (p : Nat × Reg) => (p.1, { p.2 with pending := false })
      members := [], pending := [], record := none, accs := [], fences := [], copies := [], post := [], engPend := []
      engAfter := [], matrix := false, unretired := [], collPending := [], collCount := [], expired := false
      parkAtBoundary := false, swapping := false, queued := 0, savedFrom := 0 }

/-- The lowest-numbered free program slot of a core that a launch owns (R190, R191). -/
def freeSlotOf (s : State) (c : Nat) : Option Nat :=
  if (s.core c).launch = 0 then none
  else ((List.range 14).map fun n => c * 16 + n).find? fun k => (s.slot k).life == .free

/-- A deferred action that writes memory. -/
def Action.writes : Action → Bool
  | .popped _ _ _ | .push _ _ | .post _ _ _ _ _ _ | .dec _ | .tretry _ | .tdrop _ | .prio _ _ | .colour _ _ _ | .seal _ _ | .sealed _ => true
  | _ => false

/-- Everything that a slot's committed instances owe to memory has been acknowledged, what they have put off to their commit
included (R88, R394). [DEDUCED: log 86] -/
def drained (sl : Slot) : Bool := sl.accs.all (fun a => !a.committed) && sl.post.all fun p => !p.2.writes

/-- The children of a thread that is gone have no parent any more (R190). -/
def orphanChildren (key : Nat) (s : State) : State :=
  let cut (sl : Slot) : Slot := if sl.parent = some key then { sl with parent := none } else sl
  { s with
    slots := s.slots.map fun (p : Nat × Slot) => (p.1, cut p.2)
    clusters := s.clusters.map fun (p : Nat × Cluster) =>
      (p.1, { p.2 with contexts := p.2.contexts.map fun (q : Nat × Slot) => (q.1, cut q.2) }) }

/-- A thread that was spawned is gone: its parent's join count falls (R190). -/
def leaveParent (parent : Option Nat) (s : State) : State :=
  match parent with
  | some p => modThread p (fun x => { x with join := x.join - 1 }) s
  | none => s

/-- A thread leaves every level instance normally (R122); its open collectives are tested (R361). -/
def leavePhases (key : Nat) (s : State) : State := collEnded (overAll (leavePhase key) (phasesOf s key) s)

/-- A member is killed: its contexts break (R122). -/
def breakPhases (key : Nat) (s : State) : State := collEnded (overAll (breakPhase key) (phasesOf s key) s)

/-- Every barrier in the membership list of a killed thread breaks with CAUSE 01 (R116): an object with a held word when the hold
has ended (R77, R99), a poisoned one not at all, as it takes no BARX (R59). [DEDUCED: log 85; DESIGN CHOICE: log 141] -/
def breakBars (k : Nat) (s : State) : State :=
  let s := overAll (fun (m : Member) s => arriveBarrier { src := .slot k 0, op := .breakBar, pa := m.addr } s) (s.slot k).members s
  s.modSlot k fun x => { x with members := [] }

/-! ## The holds and the entry of a task (R210 to R217) -/

/-- A task of a launch's part releases its hold on an element of its own module: exclusive on its own, else shared (R212). -/
def dropHold (la own e : Nat) (s : State) : State :=
  match stallAddr (s.launch la) e with
  | some pa => dropStall pa (e == own) s
  | none => s

/-- The first requests that travel together, and their module: one of the own module, or a run of at most 32 of one other
(R210). -/
def nextRun (own : Nat) (l : Launch) : List Nat → Nat × List Nat
  | [] => (own, [])
  | e :: es =>
    let m (x : Nat) : Nat := match homeOf l x with
      | some c => coreModule c
      | none => own
    if m e = own then (own, [e]) else (m e, (e :: es.takeWhile fun x => m x == m e).take 32)

/-- The agent of a core releases holds, of other modules in batches made as its requests were; there are at most as many
batches as holds (R210, R212). -/
def releaseHolds (c la own : Nat) : Nat → List Nat → State → State
  | 0, _, s => s
  | fuel + 1, es, s =>
    let l := s.launch la
    let (m, run) := nextRun (coreModule c) l es
    if run = [] then s
    else
      let s := if m = coreModule c then overAll (dropHold la own) run s
        else s.inject c m 0 (.drops c m (run.filterMap (stallAddr l)))
      releaseHolds c la own fuel (es.drop run.length) s

/-- A shared hold that an agent has granted to another module comes back (R212). -/
def takeBack (m pa : Nat) (s : State) : State :=
  let c := coreOfPool pa
  if (s.core c).lent.contains (pa, m) then dropStall pa false (s.modCore c fun x => { x with lent := x.lent.erase (pa, m) }) else s

/-- A task is over for its colour phase (R217). -/
def leaveColour (list entry : Nat) (s : State) : State :=
  { s with launches := s.launches.map fun (p : Nat × Launch) =>
      (p.1, { p.2 with colourTasks := p.2.colourTasks.filter fun q => q != (list, entry) }) }

/-- The word of a faulted task's element becomes QUARANTINED (R211, R214); under colour dispatch no word is
EXCLUSIVE, and the word takes the task's handle (R217). [DEDUCED: log 84] -/
def swTaskFault (colour : Bool) (handle w : Nat) : Nat :=
  if colour ∧ swState w ≠ 3 then swWord 3 (swCount w) 0 handle else swFault w

/-- R214, once the slot has drained: S holds are released, the element's word becomes QUARANTINED, and the
entry takes ST 100. The slot is left as it is. [DEDUCED: log 85] -/
def taskFails (k : Nat) (s : State) : State :=
  match (s.slot k).task with
  | none => s
  | some t =>
    let la := (s.slot k).launch
    let own := t.element.getD (2 ^ 32 - 1)
    let s := releaseHolds (slotCore k) la own t.held.length (t.held.filter fun e => e != own) s
    let s := match t.element.bind (stallAddr (s.launch la)) with
      | some pa => modStall pa (swTaskFault t.colour t.handle) s
      | none => s
    let e := readEntry s t.list t.entry
    let s := putEntry t.list t.entry (e.with_ 4 e.prio e.count) s
    leaveColour t.list t.entry (s.modSlot k fun x => { x with task := some { t with held := [] } })

/-! ## Killing (R385, R407) -/

/-- A committed action that a killed thread no longer makes: it moves the thread, or contributes for a
member. [DEDUCED: log 86] -/
def Action.dies : Action → Bool
  | .migr _ | .coll _ _ _ _ _ _ => true
  | _ => false

/-- The records that are pending for a thread that is killed or saved are queued at once, in the order of
R393. `own` is false: the thread takes no trap for them. [DEDUCED: log 19, 85] -/
def queuePending (k : Nat) : Nat → State → State
  | 0, s => s
  | n + 1, s =>
    match firstTrap (s.slot k).pending with
    | none => s
    | some t =>
      let ws := recordWords k (s.slot k) t
      let s := s.modSlot k fun x => { x with
        pending := x.pending.erase t, trapCause := ws.getD 0 0#64, trapAddr := ws.getD 1 0#64
        trapBlock := ws.getD 2 0#64, trapInfo := ws.getD 3 0#64 }
      queuePending k n (s.send (.record k (coreDie (slotCore k)) ws t.replay false))

/-- Kill the thread of a slot: its instance is discarded, its barriers and phases break, its parent no longer
waits for it; its committed operations and its copies run on (R116, R122, R142, R385). [DEDUCED: log 86] -/
def killThread (k : Nat) (s : State) : State :=
  let s := discardInst k s
  let s := queuePending k (s.slot k).pending.length s
  let s := breakPhases k (breakBars k s)
  let s := orphanChildren k (leaveParent (s.slot k).parent s)
  s.modSlot k fun x =>
    { x with life := .killed, halt := .none, record := none, parent := none, join := 0, fetchMiss := none, expired := false
             parkAtBoundary := false, swapping := false, collPending := [], collCount := []
             post := x.post.filter fun p => !p.2.dies }

/-- A killed thread whose slot has drained is gone: a task's holds and element follow R214 (R385).
[DEDUCED: log 86] -/
def freeKilled (k : Nat) (s : State) : State :=
  let sl := s.slot k
  if sl.life = .killed ∧ sl.accs = [] ∧ sl.post = [] ∧ sl.copies = [] then emptySlot k (taskFails k (breakBars k s)) else s

end Sys2Proof.Machine
end

