-- ==== Sys2Proof/Machine/Launch.lean ====
section
/-! DEFINITION. Launch queues (R195, R196), the checks of a launch record (R41, R120, R185, R186, R198, R200,
R440), the placement of its levels (R186, R199), its start (R48, R147, R188, R201) and its end (R187, R197,
R199). -/

namespace Sys2Proof.Machine

/-! ## Reading in a launch's address space (R198, R440) -/

/-- A byte read at system level for a launch: a translated region in the launch's address space, a pail through the remote
window, or a register of control space. The launch unit has no pail of its own (R440). [DEDUCED: log 104] -/
def launchByte (s : State) (src : Source) (m base va : Nat) : Got :=
  let no (cause : Nat) : Got := .fault { cause := cause, addr := va, info := 0 }
  let read (pa : Nat) : Got :=
    if !mayTake s src (pa / 8) then .wait (pa / 8)
    else if s.wordPoisoned pa then .fault (poisonAt va pa)
    else .data (s.byte pa).toNat
  match regionOf va with
  | none | some (.own _) => no causeProtection
  | some (.remote c off) =>
    let t := m * 8192 + c
    if poolClass (s.partition t) off == .pail then read (poolBase t + off) else no causeProtection
  | some .control => .data (fld (controlRead s m (va / 8 * 8)).toNat (va % 8 * 8) 8)
  | some .global | some .tier2 | some .cxl | some .host =>
    if base % 2 = 0 then no causeProtection
    else match walk s m base va with
      | .fault cause _ _ => no cause
      | .leaf level e => read (sysAddr m (leafAddr level e va))

/-- `n` bytes, as a number. The spec names no alignment of ZONES and ARGS: they are read byte by byte. [DESIGN CHOICE: log 104] -/
def launchBytes (s : State) (src : Source) (m base va : Nat) : Nat → Got
  | 0 => .data 0
  | n + 1 =>
    match launchBytes s src m base va n, launchByte s src m base (va + n) with
    | .data lo, .data b => .data (lo + b * 256 ^ n)
    | .data _, g => g
    | g, _ => g

/-- What reading the words of a record or of a table answers. -/
inductive GotWords where
  | data (ws : List Word)
  | fault
  /-- a word is held (R99) -/
  | wait (w : Nat)
  deriving DecidableEq, Repr, Inhabited

/-- `n` words. [DEDUCED: log 104] -/
def launchWords (s : State) (src : Source) (m base va : Nat) : Nat → GotWords
  | 0 => .data []
  | n + 1 =>
    match launchWords s src m base va n, launchBytes s src m base (va + 8 * n) 8 with
    | .data ws, .data v => .data (ws ++ [BitVec.ofNat 64 v])
    | .data _, .fault _ => .fault
    | .data _, .wait w => .wait w
    | g, _ => g

/-! ## The checks of a record (R41, R185, R186, R440) -/

/-- The words of a record. -/
def recW (r : List Word) (i : Nat) : Nat := (r.getD i 0#64).toNat

/-- The levels of a record, outermost first. -/
def levelWords (r : List Word) : List Nat := (List.range (fld (recW r 0) 0 3 + 1)).map fun i => recW r (8 + i)

/-- PLACE of a level. -/
def levelPlace (e : Nat) : Nat := fld e 23 2
/-- NEST. -/
def levelNest (e : Nat) : Bool := bitOf e 21
/-- The level is an element level. -/
def levelIsElement (e : Nat) : Bool := levelDomain e == 7

/-- The units of a domain within one unit of the next wider domain: slot, core, cluster, die, module, group
(R186). -/
def domainStep : Nat → Nat
  | 0 => 14
  | 1 => 16
  | 2 => 128
  | 3 => 4
  | 4 => 32
  | 5 => 256
  | _ => 1

/-- The units of domain `d` within `n` domains above it. -/
def unitsWithin (d : Nat) : Nat → Nat
  | 0 => 1
  | n + 1 => domainStep (d + n) * unitsWithin d n

/-- The part of R186 that each level obeys by itself and beside the one above it. -/
def levelsOk : Nat → List Nat → Bool
  | _, [] => true
  | above, e :: rest =>
    let d := levelDomain e
    levelCount e != 0 && e % 2 ^ 21 == 0 && decide (fld e 25 4 ≤ 11) && levelPlace e != 3 &&
      (levelPlace e == 2) == (d == 7) &&
      (if d = 7 then rest.isEmpty else decide (d ≤ above) && decide (levelCount e ≤ unitsWithin d (above - d))) &&
      (match rest with
        | f :: _ => levelIsElement f || decide (levelDomain f < d)
        | [] => true) &&
      levelsOk d rest

/-- The record's LCTRL has a reserved bit set, or an address word one of bits [63:48] (R185, R440). -/
def recordMalformed (r : List Word) : Bool :=
  fld (recW r 0) 36 12 != 0 || fld (recW r 0) 25 7 != 0 || fld (recW r 0) 3 21 != 0 ||
    [1, 4, 5, 6].any fun i => decide (recW r i / 2 ^ 48 ≠ 0)

/-- A partition word obeys R40 (R41). -/
def partitionOk (w : Nat) : Bool :=
  decide (w / 2 ^ 40 = 0) && (partQueue w == 0 || partQueue w == 4) && decide (partZone w ≤ 32) &&
    decide (partAcc w ≤ 33) && decide (partAcc w % 4 ≤ 1) && decide (partTile w ≤ 16) && partTile w % 2 == 0 &&
    decide (1 ≤ partReg w) && decide (partReg w ≤ 8) &&
    decide (partReg w + partTile w + partAcc w + partZone w + partQueue w ≤ 96)

/-- The checks of a record that need nothing but itself: WHY, or 0 (R41, R186, R187, R217, R440). [DEDUCED: log 99] -/
def recordWhy (s : State) (m addr : Nat) (r : List Word) : Nat :=
  let ls := levelWords r
  if recordMalformed r then 5
  else if !partitionOk (recW r 2) then 1
  else if !levelsOk 6 ls || levelIsElement (ls.headD 0) || (ls.any levelIsElement && recW r 6 == 0) ||
      decide ((ls.filter levelNest).length > 1) || (bitOf (recW r 0) 24 && !expertFor s m addr 0) then 2
  else 0

/-! ## The registry, ARGS, ZONES and GRAPH (R145, R198, R200, R407, R440) -/

/-- An entry of the context registry that names a record (R198, R407): what it gives XLAT.BASE, whose other bits read 0, and the
ASID (R21). [DESIGN CHOICE: log 108] -/
def registryEntry (s : State) (m addr : Nat) : Option (Word × Word) :=
  let at_ (i : Nat) : Nat := sysAddr m ((s.module m).registry + 64 * i)
  ((List.range (s.module m).registryLen).find? fun i => (s.word (at_ i)).toNat == addr && addr != 0).map fun i =>
    (s.word (at_ i + 8) &&& 0x0000FFFFFFFFF001#64, BitVec.ofNat 64 (fld (s.word (at_ i + 16)).toNat 0 16))

/-- The four ZDESC values obey R145 under a partition. -/
def zonesOk (part : Nat) (zs : List Word) : Bool :=
  let tab : Tab Word := (List.range 4).map fun i => (i, zs.getD i 0#64)
  tab.all fun p => Nat.land p.2.toNat 0x7F00000000 == 0 && !zdescBad tab part p.1 p.2.toNat

/-- The graph descriptor obeys R200, but for the number of cores. -/
def descOk (d : List Word) (part : Nat) (byColour : Bool) : Bool :=
  let pail := partPail part * 1024
  let sw := swOff d
  let rl := rlOff d
  decide (nelem d ≠ 0) && decide (epc d ≠ 0) && fld (descW d 0) 48 16 == 0 && decide (rowPtr d / 2 ^ 48 = 0) &&
    decide (colIdx d / 2 ^ 48 = 0) && decide (colours d / 2 ^ 48 = 0) && fld (descW d 4) 50 14 == 0 &&
    descW d 6 == 0 && descW d 7 == 0 && sw % 8 == 0 && rl % 32 == 0 && decide (1 ≤ rlCap d) &&
    decide (rlCap d ≤ 4096) && decide (epc d ≤ rlCap d) && decide (sw + 8 * epc d ≤ pail) &&
    decide (rl + 32 * rlCap d ≤ pail) && (decide (sw + 8 * epc d ≤ rl) || decide (rl + 32 * rlCap d ≤ sw)) &&
    !(byColour && colours d == 0)

/-- What a module reads for a record: WHY and the launch with what was read, or the word at which it waits.
[DEDUCED: log 99, 104] -/
def readLaunch (s : State) (src : Source) (m addr : Nat) (r : List Word) : Nat ⊕ (Nat × Launch) :=
  let part := recW r 2
  match registryEntry s m addr with
  | none => .inr (6, {})
  | some (base, asid) =>
    let l : Launch := { record := r, base := base, asid := asid }
    let read (a n : Nat) : GotWords := if a = 0 then .data [] else launchWords s src m base.toNat a n
    match read (recW r 4) 4, read (recW r 5) 8, read (recW r 6) 8 with
    | .wait w, _, _ | _, .wait w, _ | _, _, .wait w => .inl w
    | .fault, _, _ | _, .fault, _ => .inr (5, l)
    | .data zs, .data as, g =>
      if zs ≠ [] ∧ !zonesOk part zs then .inr (5, l)
      else match g with
        | .data d =>
          if d ≠ [] ∧ (recW r 6 % 64 ≠ 0 ∨ !descOk d part (bitOf (recW r 0) 24)) then .inr (2, l)
          else .inr (0, { l with args := as, zones := zs, desc := d })
        | _ => .inr (2, l)

/-! ## Placement (R186, R199) -/

/-- The program slots of a unit of a domain (R186). They number through the fabric: module × 114,688 + core × 14 + slot.
[DEDUCED: log 100] -/
def unitSlots : Nat → Nat
  | 0 => 1
  | 1 => 14
  | 2 => 224
  | 3 => 28672
  | 4 => 114688
  | 5 => 3670016
  | _ => 939524096

/-- The program slots of a module. -/
def moduleSlots : Nat := 114688

/-- An instance of a level: its index at each level down to it, the first slot of its unit, and the number of slots. -/
structure Span where
  index : List Nat
  lo : Nat
  n : Nat
  deriving DecidableEq, Repr, Inhabited

/-- Pack takes free units in ascending order from `j` on, wrapping; `fuel` units are left to look at.
[DEDUCED: log 100] -/
def packUnits (units : Nat) (free : Nat → Bool) : Nat → Nat → Nat → Option (List Nat)
  | _, 0, _ => some []
  | 0, _ + 1, _ => none
  | fuel + 1, n + 1, j =>
    if free (j % units) then (packUnits units free fuel n (j + 1)).map fun js => (j % units) :: js
    else packUnits units free fuel (n + 1) (j + 1)

/-- The units of a level within one unit of the level above: pack or spread from `start` on (R186).
[DEDUCED: log 101] -/
def pickUnits (place units n start : Nat) (free : Nat → Bool) : Option (List Nat) :=
  if units = 0 ∨ n > units then none
  else if place = 1 then
    let js := (List.range n).map fun k => (start + k * (units / n)) % units
    if js.all free then some js else none
  else packUnits units free units n start

/-- All of a list of answers, or none. -/
def allSome {α : Type} : List (Option α) → Option (List α)
  | [] => some []
  | none :: _ => none
  | some a :: t => (allSome t).map fun l => a :: l

/-- The modules that a span of slots reaches. -/
def spanModules (lo n : Nat) : List Nat :=
  if n = 0 then [] else (List.range ((lo + n - 1) / moduleSlots - lo / moduleSlots + 1)).map fun i => lo / moduleSlots + i

/-- A module may take part: it is not known to be lost. One that is not populated is asked, and does not
answer (R19, R199). [DEDUCED: log 100] -/
def moduleFree (s : State) (origin m : Nat) : Bool := !(s.module origin).lostModules.contains m

/-- No core of a span of slots belongs to a launch. [DEDUCED: log 100] -/
def coresFree (s : State) (lo n : Nat) : Bool :=
  s.cores.all fun p => p.2.launch == 0 || decide (p.1 < lo / 14) || decide ((lo + n - 1) / 14 < p.1)

/-- A unit is free: of the innermost level, and of every level within a module, its cores; of a level of modules or wider
above others it is enough that some module of it may take part (R186, R199). [DEDUCED: log 100, 101] -/
def unitFree (s : State) (origin : Nat) (innermost : Bool) (lo n : Nat) : Bool :=
  if n < moduleSlots || innermost then (spanModules lo n).all (moduleFree s origin) && coresFree s lo n
  else (spanModules lo n).any fun m => m == origin || moduleFree s origin m

/-- A unit within another module that the origin gives to the launch although its cores are not free: that module is asked, and
refuses (R199, step 2). [DEDUCED: log 100] -/
def unitAsked (s : State) (origin lo n : Nat) : Bool :=
  decide (n < moduleSlots) && (spanModules lo n).all fun m => m != origin && moduleFree s origin m

/-- Place the instances of a level within one instance of the level above it: from its first unit, or, of units that are modules
or wider, from the origin's unit where the origin lies in it; where too few are free, on units of other modules that will refuse
them (R186, R199). [DEDUCED: log 100, 101] -/
def placeLevel (s : State) (origin : Nat) (innermost : Bool) (e : Nat) (u : Span) : Option (List Span) :=
  let w := unitSlots (levelDomain e)
  let o := origin * moduleSlots
  let start := if moduleSlots ≤ w ∧ u.lo ≤ o ∧ o < u.lo + u.n then (o - u.lo) / w else 0
  let free (j : Nat) : Bool := unitFree s origin innermost (u.lo + j * w) w
  let pick := pickUnits (levelPlace e) (u.n / w) (levelCount e) start
  ((pick free).or (pick fun j => free j || unitAsked s origin (u.lo + j * w) w)).map fun js =>
    js.zipIdx.map fun p => { index := u.index ++ [p.2], lo := u.lo + p.1 * w, n := w }

/-- Place the levels one within the other: the instances of each. -/
def placeAll (s : State) (origin : Nat) : List Nat → List Span → Option (List (List Span))
  | [], _ => some []
  | e :: es, us =>
    match allSome (us.map (placeLevel s origin es.isEmpty e)) with
    | none => none
    | some ls => (placeAll s origin es ls.flatten).map fun rest => ls.flatten :: rest

/-- Where level 0 is placed: within the unit given to a child launch, within the origin for a level narrower than a module,
within its group for modules, else within the fabric (R185, R199). -/
def placeRoot (origin domain : Nat) (root : Option (Nat × Nat)) : Span :=
  match root with
  | some (lo, n) => { index := [], lo := lo, n := n }
  | none =>
    if domain < 4 then { index := [], lo := origin * moduleSlots, n := moduleSlots }
    else if domain = 4 then { index := [], lo := origin / 32 * 32 * moduleSlots, n := unitSlots 5 }
    else { index := [], lo := 0, n := unitSlots 6 }

/-- The slot key of a program slot of the fabric. -/
def spaceSlot (p : Nat) : Nat := p / 14 * 16 + p % 14

/-- The keys of the cores of a unit on a module. -/
def unitCores (m : Nat) (u : Span) : List Nat :=
  let lo := max (u.lo / 14) (m * 8192)
  let hi := min ((u.lo + u.n - 1) / 14) (m * 8192 + 8191)
  if u.n = 0 ∨ hi < lo then [] else (List.range (hi - lo + 1)).map fun i => lo + i

/-- The units of the instances of the level with NEST, each with its number; an element instance has none of its own (R185).
[DESIGN CHOICE: log 102] -/
def nestUnits (ls : List Nat) (placed : List (List Span)) : List (Nat × Nat × Nat) :=
  match ls.findIdx? levelNest with
  | none => []
  | some n =>
    if levelIsElement (ls.getD n 0) then (placed.getLast?.getD []).zipIdx.map fun p => (p.2, p.1.lo, 0)
    else (placed.getD n []).zipIdx.map fun p => (p.2, p.1.lo, p.1.n)

/-- The part of a launch that a module carries: its threads, its cores, and the units of its instances of the level with NEST
(R185, R188, R199). An instance's thread runs in the first slot of its unit. -/
def partOf (l : Launch) (ls : List Nat) (placed : List (List Span)) (m : Nat) : Launch :=
  let us := placed.getLast?.getD []
  { l with
    threads := us.filterMap fun u => if u.lo / moduleSlots = m then some (spaceSlot u.lo, u.index) else none
    cores := (us.flatMap (unitCores m)).eraseDups
    nest := (nestUnits ls placed).filter fun x => x.2.1 / moduleSlots == m }

/-- The launch has an element level. -/
def Launch.hasElements (l : Launch) : Bool := (levelWords l.record).any levelIsElement

/-- The home cores of an element level: the cores of its workers, in ascending order (R201). -/
def homeCores (placed : List (List Span)) : List Nat :=
  ((placed.getLast?.getD []).map fun u => u.lo / 14).foldl setIns []

/-! ## Phase contexts (R120) -/

/-- The levels that take contexts: the phase-capable ones, and the widest under colour dispatch (R120, R217). -/
def contextLevels (r : List Word) : List Nat :=
  (List.range (levelWords r).length).filter fun n => levelPhase (recW r (8 + n)) || (n == 0 && bitOf (recW r 0) 24)

/-- The contexts of a level: one for each of its instances; an element's instance stands on its home core (R120, R201). -/
def contextsOf (key : Nat) (l : Launch) (placed : List (List Span)) (level : Nat) : List PhaseCtx :=
  let e := recW l.record (8 + level)
  if levelIsElement e then
    l.homes.zipIdx.flatMap fun p =>
      (List.range (min (epc l.desc) (nelem l.desc - p.2 * epc l.desc))).map fun i =>
        { launch := key, level := level, index := [p.2 * epc l.desc + i], domain := 7, lo := p.1 * 14, n := 14 }
  else (placed.getD level []).map fun u =>
    { launch := key, level := level, index := u.index, domain := levelDomain e, lo := u.lo, n := u.n }

/-- More elements have their home on one core than its node has contexts. -/
def elementsCrowd (l : Launch) : Bool :=
  (contextLevels l.record).any (fun n => levelIsElement (recW l.record (8 + n))) && decide (16 < min (epc l.desc) (nelem l.desc))

/-- The widths, in slots, of the tree nodes that an instance of a domain spans: those of its clusters, and above them those of
dies, modules, groups and the fabric up to its own domain (R120). -/
def treeWidths (domain : Nat) : List Nat :=
  if domain = 7 then [224] else 224 :: ([3, 4, 5, 6].filter fun d => decide (d ≤ domain)).map unitSlots

/-- A context takes one at the node of a width that begins at a slot. -/
def PhaseCtx.takes (c : PhaseCtx) (w node : Nat) : Bool :=
  (treeWidths c.domain).contains w && decide (c.lo / w ≤ node) && decide (node ≤ (c.lo + c.n - 1) / w)

/-- No tree node that a module has a part in has more than 16 contexts assigned: where some contexts meet, one of them begins
(R120). -/
def contextsFit (s : State) (m : Nat) : Bool :=
  let mine := s.phases.filter fun p => (spanModules p.2.lo p.2.n).contains m
  mine.all fun p => (treeWidths p.2.domain).all fun w =>
    [p.2.lo / w, max p.2.lo (m * moduleSlots) / w].all fun node =>
      decide (((mine.filter fun q => q.2.takes w node).length ≤ 16))

/-- Assign contexts. -/
def addContexts (cs : List PhaseCtx) (s : State) : State :=
  overAll (fun c s => { s with phases := tabPut s.phases s.nextId c, nextId := s.nextId + 1 }) cs s

/-- The contexts of a launch are given back. -/
def dropContexts (key : Nat) (s : State) : State :=
  { s with phases := s.phases.filter fun (p : Nat × PhaseCtx) => p.2.launch != key }

/-! ## Taking units (R48, R147, R185, R198) -/

/-- The launch takes a core: its pool is zeroed and full, the register files of its program slots and its scale memory too, and
its registers are loaded (R21, R48, R51). A thread of an earlier launch that stands stopped there goes (R187, R399).
[DEDUCED: log 67, 103] -/
def takeCore (la : Nat) (l : Launch) (c : Nat) (s : State) : State :=
  let s := (s.zeroFull (poolBase c) (poolBase c + 0x18000)).zeroFull (scaleBase c) (scaleBase c + 0x2000)
  let s := s.modCore c fun x => { x with
    launch := la, partition := l.record.getD 2 0#64, own := l.record.getD 3 0#64, sown := fld (recW l.record 0) 48 16
    xlatBase := l.base, xlatAsid := l.asid, issue := [], timeline := [], retired := [], zseq := [], zslots := []
    zdesc := (List.range 4).map fun i => (i, l.zones.getD i 0#64)
    rcv := [], rcvNext := 0, rcvClaimed := [], rcvOrder := [], desc := [], home := 0, attempt := none, refused := []
    wakeable := [], launchPosted := [], lent := [], refills := [] }
  overAll (fun n s => (if n < 14 ∧ (s.slot (c * 16 + n)).life ≠ .free then emptySlot (c * 16 + n) s else s).modSlot (c * 16 + n) fun x =>
    { x with launch := la, ranks := [], regs := if n < 14 then [] else x.regs }) (List.range 16) s

/-- The launch gives up a core. -/
def giveCore (c : Nat) (s : State) : State :=
  let s := s.modCore c fun x => { x with launch := 0, desc := [], attempt := none, refused := [], wakeable := [], launchPosted := [] }
  overAll (fun n s => s.modSlot (c * 16 + n) fun x => { x with launch := 0, ranks := [] }) (List.range 16) s

/-- The cores of the element level number fewer than its elements need (R200). -/
def Launch.tooFewCores (l : Launch) : Bool := l.hasElements && decide (l.homes.length * epc l.desc < nelem l.desc)

/-- A module checks its part against its own cores and contexts, and takes its units, or answers why not (R187, R199, R200).
[DEDUCED: log 99] -/
def reservePart (la : Nat) (l : Launch) (s : State) : Nat × State :=
  if l.tooFewCores then (2, s)
  else if l.cores.any fun c => (s.core c).launch != 0 then (4, s)
  else if !contextsFit s (launchModule la) then (3, s)
  else (0, overAll (takeCore la l) l.cores { s with launches := tabPut s.launches la l })

/-! ## LSTAT and completion (R187, R197) -/

/-- The launch unit as a writer; no location that a watchpoint can watch is written by it. -/
def unitWriter (m : Nat) : Writer := { kind := 5, module := m }

/-- LSTAT. -/
def lstat (state why ended : Nat) : Word := BitVec.ofNat 64 (state * 2 ^ 60 + why * 2 ^ 56 + ended % 2 ^ 48)

/-- Write LSTAT in a module's copy of a record, where no hold stands before it (R77). [DEDUCED: log 103] -/
def writeLstat (la : Nat) (v : Word) (s : State) : State := unitStore (recordAddr la + 0x38) (natBytes 8 v.toNat) s

/-- A completion entry (R197): the entry, then COUNT; nothing without a ring. [DEDUCED: log 105] -/
def completion (m queue addr : Nat) (v : Word) (s : State) : State :=
  let q := tabGet (s.module m).queues queue {}
  let base := fld q.ring.toNat 4 44 * 16
  let ok := match regionOf base with
    | some .tier2 | some .host => queue < 64
    | _ => false
  if !ok then s
  else
    let at_ := sysAddr m (base + 16 * (q.cpos % 2 ^ fld q.ring.toNat 60 4))
    let s := unitStore at_ (natBytes 8 addr ++ natBytes 8 v.toNat) s
    s.modModule m fun x => { x with queues := tabMod x.queues queue {} fun y => { y with cpos := (y.cpos + 1) % 2 ^ 32 } }

/-- A refusal: LSTAT takes STATE 3 and WHY, and the completion entry says so (R187, R197). -/
def refuseLaunch (la queue why : Nat) (s : State) : State :=
  completion (launchModule la) queue (la % 2 ^ 48) (lstat 3 why 0) (writeLstat la (lstat 3 why 0) s)

/-- Normal ends under a record: those of the launch, and, of a child launch, those of its siblings that stand at the same record
(R185, R187). [DESIGN CHOICE: log 102] -/
def endedUnder (s : State) (la : Nat) : Nat :=
  ((s.launches.filter fun p => recordAddr p.1 == recordAddr la).map fun p => p.2.ended + p.2.total).sum +
    (s.launch (s.launch la).parent).below

/-! ## Start (R120, R188, R201) -/

/-- The parts of a launch, wherever they stand. -/
def launchParts (s : State) (la : Nat) : List (Nat × Launch) :=
  s.launches.filter fun p => p.1 % 2 ^ 48 == la % 2 ^ 48 && launchInst p.1 == launchInst la && p.2.origin == (s.launch la).origin

/-- The key of a launch on its origin: that of its phase contexts. -/
def Launch.key (l : Launch) (la : Nat) : Nat := partKey la l.origin

/-- The members of the launch's contexts are its threads, on every module; none with an element level
(R120). -/
def fillContexts (la : Nat) (s : State) : State :=
  let all := (launchParts s la).flatMap fun p => if p.2.hasElements then [] else p.2.threads
  { s with phases := s.phases.map fun (p : Nat × PhaseCtx) =>
      if p.2.launch = (s.launch la).key la then
        let ms := (all.filter fun t => t.2.take (p.2.level + 1) == p.2.index).map fun t => t.1
        (p.1, { p.2 with all := ms, members := ms })
      else p }

/-- Post the launch's tasks of one home core: element i is entry i (R188, R201, R205). [DEDUCED: log 76] -/
def postHome (l : Launch) (h c : Nat) (s : State) : State :=
  let d := l.desc
  let s := s.modCore c fun x => { x with desc := d, home := h }
  let n := min (epc d) (nelem d - h * epc d)
  overAll (fun i s =>
    let e := entryOf 2 0 0 (h * epc d + i) (ageNow s (coreModule c)) (recW l.record 1) 0#64
    (putEntry (coreList d c) i { e with posted := postTime s (coreModule c) } s).modCore c fun x => { x with launchPosted := x.launchPosted ++ [i] }) (List.range n) s

/-- A thread of the launch starts, or its slot becomes a worker (R188). -/
def startThread (l : Launch) (t : Nat × List Nat) (s : State) : State :=
  let s := s.modSlot t.1 fun x => { x with ranks := t.2 }
  if l.hasElements then s
  else newThread t.1 (recW l.record 1) (argRegs (s.fileSize (slotCore t.1)) l.args) none 0#64 none s

/-- The key of the child launch of an instance of the level with NEST: the record stands after the parent's (R185).
[DESIGN CHOICE: log 102] -/
def childKey (la k : Nat) : Nat :=
  launchKey (launchInst la * 2 ^ 32 + k + 1) (launchModule la) ((la + 0x80) % 2 ^ 48)

/-- The sixteen words of a record that stands in memory. -/
def recordAt (s : State) (la : Nat) : List Word := (List.range 16).map fun i => s.word (la + 8 * i)

/-- A word of a record is poisoned. -/
def recordPoisoned (s : State) (la : Nat) : Bool := (List.range 16).any fun i => s.wordPoisoned (la + 8 * i)

/-- The record of a launch is running: the launch itself, or its LSTAT says so; the child launches of one level with NEST stand
at one record together (R185, R187). [DESIGN CHOICE: log 102] -/
def launchRuns (s : State) (la parent : Nat) : Bool :=
  (tabFind s.launches la).isSome ||
    (fld (s.word (recordAddr la + 0x38)).toNat 60 4 == 1 &&
      !(parent != 0 && s.launches.any fun p => recordAddr p.1 == recordAddr la && p.2.parent != 0))

/-- A module starts its part: LSTAT first, then the threads, or the tasks of the elements homed here
(R187, R188, R201). -/
def startPart (la : Nat) (modules homes : List Nat) (s : State) : State :=
  let s := s.modLaunch la fun l => { l with modules := modules, homes := homes, running := true }
  let l := s.launch la
  let s := writeLstat la (lstat 1 0 (endedUnder s la)) s
  let s := overAll (startThread l) l.threads s
  if l.hasElements then
    overAll (fun p s => if coreModule p.1 = launchModule la then postHome l p.2 p.1 s else s) l.homes.zipIdx s
  else s

/-! ## Taking a record (R185, R187, R196, R199) -/

/-- All modules are ready, or one refuses (R199, step 3): START, or RELEASE. -/
def concludeLaunch (la : Nat) (s : State) : State :=
  let l := s.launch la
  let m := launchModule la
  if l.refused then
    let s := overAll (fun x s => s.inject (m * 8192) x 0 (.release_ la x)) (l.modules.filter fun x => x != m) s
    let s := overAll giveCore l.cores s
    refuseLaunch la l.queue 7 (dropContexts la { s with launches := tabDel s.launches la })
  else
    let s := fillContexts la (s.modLaunch la fun x => { x with reports := if x.modules = [m] then [] else x.modules })
    let s := overAll (fun x s => s.inject (m * 8192) x 0 (.start la x l.modules l.homes)) (l.modules.filter fun x => x != m) s
    s.send (.start la m l.modules l.homes)

/-- A module's answer reaches the origin (R199). -/
def answerLaunch (la m why : Nat) (s : State) : State :=
  match tabFind s.launches la with
  | none => s
  | some l =>
    if !l.awaiting.contains m then s
    else
      let l := { l with awaiting := l.awaiting.filter (fun x => x != m), refused := l.refused || why != 0 }
      let s := { s with launches := tabPut s.launches la l }
      if l.awaiting = [] then concludeLaunch la s else s

/-- The origin places a record that has passed its own checks, and takes its own part; of a launch that spans modules it asks the
others (R186, R199). [DEDUCED: log 99] -/
def placeRecord (la queue parent : Nat) (root : Option (Nat × Nat)) (l : Launch) (s : State) : State :=
  let m := launchModule la
  let ls := levelWords l.record
  match placeAll s m (ls.filter fun e => !levelIsElement e) [placeRoot m (levelDomain (ls.headD 0)) root] with
  | none => refuseLaunch la queue 4 s
  | some placed =>
    let mods := ((placed.getLast?.getD []).flatMap fun u => spanModules u.lo u.n).foldl setIns []
    let whole : Launch := { l with queue := queue, origin := m, parent := parent, modules := mods, awaiting := setIns mods m
                                   homes := if l.hasElements then homeCores placed else [] }
    let contexts := (contextLevels l.record).flatMap (contextsOf la whole placed)
    if elementsCrowd whole then refuseLaunch la queue 3 s
    else match reservePart la (partOf whole ls placed m) (addContexts contexts s) with
      | (0, s) =>
        let bytes := s.bytesAt (recordAddr la) 128
        let ask (x : Nat) (s : State) : State :=
          let p := partOf whole ls placed x
          s.inject (m * 8192) x 0 (.reserve la x whole.homes p.threads p.cores p.nest bytes)
        answerLaunch la m 0 (overAll ask (mods.filter fun x => x != m) s)
      | (why, s) => refuseLaunch la queue why (dropContexts la s)

/-- A launch unit takes a record, of a queue or, for a child launch, with the unit to place it in; or the word at which it waits
(R185, R187, R196). -/
def takeRecord (src : Source) (la queue parent : Nat) (root : Option (Nat × Nat)) (s : State) : Nat ⊕ State :=
  let a := recordAddr la
  let m := launchModule la
  match firstBusy s src (wordsOf a 128) with
  | some w => .inl w
  | none =>
    let r := recordAt s a
    if launchRuns s la parent then .inr (completion m queue (la % 2 ^ 48) (lstat 3 4 0) s)
    else if recordPoisoned s a then .inr (refuseLaunch la queue 5 s)
    else match recordWhy s m (la % 2 ^ 48) r with
      | 0 => match readLaunch s src m (la % 2 ^ 48) r with
        | .inl w => .inl w
        | .inr (0, l) => .inr (placeRecord la queue parent root l s)
        | .inr (why, _) => .inr (refuseLaunch la queue why s)
      | why => .inr (refuseLaunch la queue why s)

/-- The child launches of some instances of a level with NEST start, each within its instance's unit; the parent runs on when one
is refused (R185). [DESIGN CHOICE: log 102] -/
def startChildren (src : Source) (la : Nat) : List (Nat × Nat × Nat) → State → Nat ⊕ State
  | [], s => .inr s
  | (k, lo, n) :: rest, s =>
    match takeRecord src (childKey la k) 64 la (some (lo, n)) s with
    | .inl w => .inl w
    | .inr s => startChildren src la rest s

/-! ## Ends (R187, R197, R199) -/

/-- A core's run list, or a cluster's, holds a task of the launch. -/
def listsHold (s : State) (la : Nat) (l : Launch) : Bool :=
  (l.desc != [] && l.cores.any fun c => (s.core c).desc != [] &&
    (List.range (rlCap l.desc)).any fun n => !entryIsFree s (coreList l.desc c) n) ||
  s.clusters.any fun p => p.2.list.any fun q => q.2.launch == la

/-- A fatal trap has ended a thread: it stands stopped, and what it owes has left (R187, R399). -/
def Slot.overByTrap (sl : Slot) : Bool := sl.halt == .fatal && sl.record.isNone && sl.accs == [] && sl.post == []

/-- A thread of the launch has not ended: in a program slot, or in a saved context. -/
def threadsLive (s : State) (la : Nat) : Bool :=
  s.slots.any (fun p => !systemSlot p.1 && p.2.launch == la && p.2.life != .free && !p.2.overByTrap) ||
    s.clusters.any fun p => p.2.contexts.any fun q => q.2.launch == la && !q.2.overByTrap

/-- A copy that a killed thread has left runs on (R127, R142). -/
def copiesLive (s : State) (l : Launch) : Bool :=
  l.cores.any fun c => (s.core c).mailboxes.any (fun p => p.2.full) || s.copies.any fun p => slotCore p.2.slot == c

/-- Holds that a core of the launch has given back are still on their way (R212). -/
def dropsLive (s : State) (l : Launch) : Bool :=
  s.net.any fun p => match p.2 with
    | .drops c _ _ => l.cores.contains c
    | _ => false

/-- A part still has threads, tasks, copies, holds on their way back or child launches (R187, R208); the tasks of a killed part
are gone. [DEDUCED: log 103] -/
def partBusy (s : State) (la : Nat) (l : Launch) : Bool :=
  threadsLive s la || copiesLive s l || dropsLive s l || (!l.killed && listsHold s la l) || s.launches.any fun p => p.2.parent == la

/-- A part may end: it is not busy, nor is any other part, on a module that is not lost, that could still post tasks to its
elements.
[DEDUCED: log 103] -/
def partEnds (s : State) (la : Nat) (l : Launch) : Bool :=
  l.running && !partBusy s la l &&
    (!l.hasElements || (launchParts s la).all fun p =>
      (s.module (launchModule la)).lostModules.contains (launchModule p.1) ||
        (p.2.running || p.2.cores == []) && !partBusy s p.1 p.2)

/-- All parts have reported: the origin's LSTAT takes its last value, and the completion entry follows; of a child launch with
siblings LSTAT takes it when the last of them ends (R187, R197, R199). [DESIGN CHOICE: log 102] -/
def closeLaunch (la : Nat) (s : State) : State :=
  let l := s.launch la
  let ended := endedUnder s la
  let s := dropContexts la { s with launches := tabDel s.launches la }
  let s := if l.parent = 0 then s
    else s.modLaunch l.parent fun p => { p with below := p.below + l.ended + l.total, belowKilled := p.belowKilled || l.killed }
  if s.launches.any fun p => recordAddr p.1 == recordAddr la then writeLstat la (lstat 1 0 ended) s
  else
    let killed := l.killed || l.parent != 0 && (s.launch l.parent).belowKilled
    let v := lstat (if killed then 4 else 2) 0 ended
    completion (launchModule la) l.queue (la % 2 ^ 48) v (writeLstat la v s)

/-- A saved thread that a fatal trap has stopped is kept when its launch ends, and belongs to none any more, as one in a slot
(R187, R399). [DEDUCED: log 103] -/
def unbindSaved (la : Nat) (s : State) : State :=
  { s with clusters := s.clusters.map fun (p : Nat × Cluster) =>
      (p.1, { p.2 with contexts := p.2.contexts.map fun (q : Nat × Slot) =>
        (q.1, if q.2.launch == la then { q.2 with launch := 0, ranks := [] } else q.2) }) }

/-- The engines drop the parameter blocks of a launch that ends (R131). -/
def dropBlocks (l : Launch) (s : State) : State :=
  { s with dies := s.dies.map fun (p : Nat × Die) =>
      if l.cores.any fun c => coreDie c == p.1 then
        (p.1, { p.2 with engines := p.2.engines.map fun (q : Nat × Engine) =>
          (q.1, { q.2 with cache := q.2.cache.filter fun e => e.asid != l.asid.toNat }) })
      else p }

/-- A part ends: its cores are free, its own copy of LSTAT is final, and the origin hears of it (R131, R199). -/
def endPart (la : Nat) (s : State) : State :=
  let l := s.launch la
  let m := launchModule la
  let s := overAll giveCore l.cores (dropBlocks l (unbindSaved la s))
  let s := s.modLaunch la fun x => { x with running := false, cores := [], threads := [] }
  if l.modules.all fun x => x == m then closeLaunch la s
  else if l.origin = m then s.send (.ended la m 0 l.killed)
  else
    let s := writeLstat la (lstat (if l.killed then 4 else 2) 0 l.ended) s
    { s with launches := tabDel s.launches la }.inject (m * 8192) l.origin 0 (.ended (partKey la l.origin) m l.ended l.killed)

/-- End every part that has ended. -/
def endParts (s : State) : State :=
  overAll (fun p s => if partEnds s p.1 (s.launch p.1) then endPart p.1 s else s) s.launches s

/-- A thread or task of a launch has ended normally: ENDED counts it (R187). [DEDUCED: log 78, 103] -/
def countEnded (la : Nat) (s : State) : State :=
  match tabFind s.launches la with
  | none => s
  | some _ =>
    let s := s.modLaunch la fun x => { x with ended := x.ended + 1 }
    writeLstat la (lstat 1 0 (endedUnder s la)) s

/-- A report reaches the origin: its LSTAT holds the sum (R199). [DEDUCED: log 103] -/
def reportPart (la m count : Nat) (killed : Bool) (s : State) : State :=
  match tabFind s.launches la with
  | none => s
  | some l =>
    let s := s.modLaunch la fun x =>
      { x with total := x.total + count, killed := x.killed || killed, reports := x.reports.filter fun y => y != m }
    let s := if l.reports.all (fun y => y == m) then closeLaunch la s
      else writeLstat la (lstat 1 0 (endedUnder s la)) s
    s

/-! ## Events -/

/-- A write of LQ.DOOR: a record address is appended, or dropped with OVF (R195). -/
def lqDoor (module queue addr : Nat) (s : State) : State :=
  if queue ≥ 64 then s
  else s.modModule module fun m => { m with queues := tabMod m.queues queue {} fun q =>
    if addr % 128 ≠ 0 ∨ addr / 2 ^ 48 ≠ 0 ∨ regionOf addr ≠ some .tier2 ∨ q.records.length ≥ 256 then { q with ovf := true }
    else { q with records := q.records ++ [addr] } }

/-- The event LQ_DOOR: a module that has not booted has no open link (R408). -/
def execLqDoor (module queue addr : Nat) (s : State) : Result := .next (if answers s module then lqDoor module queue addr s else s)

/-- A write of LQ.RING: the ring is set, and COUNT starts at 0 (R195). -/
def lqRing (module queue val : Nat) (s : State) : State :=
  if queue ≥ 64 then s
  else s.modModule module fun m => { m with queues := tabMod m.queues queue {} fun q =>
    { q with ring := BitVec.ofNat 64 val &&& 0xF000FFFFFFFFFFF0#64, cpos := 0 } }

/-- The event LQ_RING: a module that has not booted has no open link (R408). -/
def execLqRing (module queue val : Nat) (s : State) : Result := .next (if answers s module then lqRing module queue val s else s)

/-- The non-empty queues of a class (R195, R196). -/
def classQueues (m : Module) (c : Nat) : List Nat :=
  (List.range 16).map (fun i => 16 * c + i) |>.filter fun q => (tabGet m.queues q {}).records != []

/-- The first of some numbers from one on, wrapping. [DEDUCED: log 105] -/
def nextFrom (l : List Nat) (n : Nat) : Option Nat := (l.find? fun x => decide (n ≤ x)).or l.head?

/-- The class that a decision serves, and the round-robin of the lower classes after it (R196). [DEDUCED: log 105] -/
def chooseClass (m : Module) : Option (Nat × Nat) :=
  match (List.range 4).filter fun c => classQueues m c != [] with
  | [] => none
  | c :: lower =>
    if m.decisions % 8 = 7 then match nextFrom lower m.lastClass with
      | some x => some (x, x + 1)
      | none => some (c, m.lastClass)
    else some (c, m.lastClass)

/-- The event LAUNCH_DECISION (R196): a frozen module decides nothing (R405). -/
def execLaunchDecision (module : Nat) (s : State) : Result :=
  .next (
    let m := s.module module
    if m.boot ≠ .running then s
    else match chooseClass m with
      | none => s
      | some (c, lastClass) =>
        match nextFrom (classQueues m c) (tabGet m.lastQueue c 0) with
        | none => s
        | some q =>
          match (tabGet m.queues q {}).records with
          | [] => s
          | addr :: rest =>
            let src : Source := .unit (2 ^ 40 + module)
            match takeRecord src (sysAddr module addr) q 0 none s with
            | .inl w => waitTurn src w s
            | .inr s => (endTurn src s).modModule module fun x => { x with
                queues := tabMod x.queues q {} (fun y => { y with records := rest })
                decisions := x.decisions + 1, lastClass := lastClass, lastQueue := tabPut x.lastQueue c (q + 1) })

/-- The copy of a record that a RESERVE brings is written, checked, and answered; or the word at which this waits (R199). -/
def reserveHere (src : Source) (la m : Nat) (part : Launch) (bytes : List Byte) (s : State) : Nat ⊕ (Nat × State) :=
  let mine := partKey la m
  if (tabFind s.launches mine).isSome then .inr (4, s)
  else match firstBusy s src (wordsOf (recordAddr mine) 128) with
    | some w => .inl w
    | none =>
      let t := writeMem (unitWriter m) (recordAddr mine) bytes s
      let r := recordAt t (recordAddr mine)
      match recordWhy t m (la % 2 ^ 48) r with
      | 0 => match readLaunch t src m (la % 2 ^ 48) r with
        | .inl w => .inl w
        | .inr (0, l) =>
          .inr (reservePart mine { l with queue := 64, origin := launchModule la, homes := part.homes, threads := part.threads
                                          cores := part.cores, nest := part.nest } t)
        | .inr (why, _) => .inr (why, t)
      | why => .inr (why, t)

/-- The event RESERVE (R199). -/
def execReserve (msg : Nat) (s : State) : Result :=
  .next (match tabFind s.net msg with
    | some (.reserve la m homes threads cores nest bytes) =>
      if !populated s m then answerLaunch la m 7 (s.drop msg)
      else if !arrives s msg m || (s.module m).boot != .running then s
      else match reserveHere (.msg msg) la m { homes := homes, threads := threads, cores := cores, nest := nest } bytes s with
        | .inl w => waitTurn (.msg msg) w s
        | .inr (why, t) =>
          ((endTurn (.msg msg) t).drop msg).inject (m * 8192) (launchModule la) 0 (.reserveAnswer la m why)
    | _ => s)

/-- The event RESERVE_ANSWER (R199). -/
def execReserveAnswer (msg : Nat) (s : State) : Result :=
  .next (match tabFind s.net msg with
    | some (.reserveAnswer la m why) => if arrives s msg (launchModule la) then answerLaunch la m why (s.drop msg) else s
    | _ => s)

/-- The event START: a module starts its part, and the child launches of its instances (R185, R188, R199). An origin that
carries no part starts nothing. -/
def execStart (msg : Nat) (s : State) : Result :=
  .next (match tabFind s.net msg with
    | some (.start la m modules homes) =>
      let mine := partKey la m
      if !arrives s msg m || (s.module m).boot != .running || (tabFind s.launches mine).isNone then s
      else match startChildren (.msg msg) mine (s.launch mine).nest (startPart mine modules homes s) with
        | .inl w => waitTurn (.msg msg) w s
        | .inr t => (endTurn (.msg msg) t).drop msg
    | _ => s)

/-- The event RELEASE: a module frees the units it took for the launch (R199). -/
def execRelease (msg : Nat) (s : State) : Result :=
  .next (match tabFind s.net msg with
    | some (.release_ la m) =>
      let mine := partKey la m
      if !populated s m then s.drop msg
      else if !arrives s msg m then s
      else match tabFind s.launches mine with
        | none => s.drop msg
        | some l =>
          if l.origin ≠ launchModule la ∨ l.running then s.drop msg
          else overAll giveCore l.cores { (s.drop msg) with launches := tabDel s.launches mine }
    | _ => s)

/-- The event ENDED_REPORT (R199). -/
def execEndedReport (msg : Nat) (s : State) : Result :=
  .next (match tabFind s.net msg with
    | some (.ended la m count killed) =>
      if arrives s msg (launchModule la) then reportPart la m count killed (s.drop msg) else s
    | _ => s)

end Sys2Proof.Machine
end

