-- ==== Sys2Proof/Machine/Parlour.lean ====
section
/-! DEFINITION. The Parlour: balls (R202, R216), acquisition (R204, R210 to R212), dispatch (R207, R208,
R217, R220), deadlines (R219), and the ends, births and moves of threads (R86, R116, R188, R190, R191). -/

namespace Sys2Proof.Machine

/-! ## Balls (R202, R216) -/

/-- Why a ball cannot be formed. -/
inductive BallEnd where
  /-- a word is held: the agent waits for its turn there (R99) -/
  | wait (w : Nat)
  /-- the list of an element fails: 1 an uncorrectable error, 2 malformed -/
  | fails (e reason : Nat)
  /-- more than 256 elements -/
  | large
  /-- the read faults under R32 -/
  | fault (t : Trap)
  deriving DecidableEq, Repr, Inhabited

/-- A read of the graph by an agent of a core, at system level (R216). [DEDUCED: log 83] -/
def ballRead (s : State) (c e va : Nat) : Except BallEnd Nat :=
  match agentRead s (.agent c) { core := c, sys := true, va := va, size := 4, use := .load } with
  | .data v => .ok v
  | .wait w => .error (.wait w)
  | .fault t => .error (if dataError t then .fails e 1 else .fault { t with replay := false })

/-- The ids of a list from a position on, each above the last; at most 257 are read, since more cannot be in
a ball. -/
def ballIds (s : State) (c : Nat) (d : List Word) (e hi : Nat) : Nat → Nat → Option Nat → Except BallEnd (List Nat)
  | 0, _, _ => .ok []
  | n + 1, pos, last =>
    if pos ≥ hi then .ok []
    else match ballRead s c e (colIdx d + 4 * pos) with
      | .error x => .error x
      | .ok v =>
        let ascends := match last with
          | some l => decide (l < v)
          | none => true
        if !ascends ∨ v = e ∨ nelem d ≤ v then .error (.fails e 2)
        else match ballIds s c d e hi n (pos + 1) (some v) with
          | .error x => .error x
          | .ok vs => .ok (v :: vs)

/-- The neighbours of an element. -/
def neighbours (s : State) (c : Nat) (d : List Word) (e : Nat) : Except BallEnd (List Nat) :=
  match ballRead s c e (rowPtr d + 4 * e), ballRead s c e (rowPtr d + 4 * e + 4) with
  | .ok lo, .ok hi => if hi < lo then .error (.fails e 2) else ballIds s c d e hi 257 lo none
  | .error x, _ => .error x
  | _, .error x => .error x

/-- Add the neighbours of some elements to a ball; answers the ball and what is new in it. -/
def growBall (s : State) (c : Nat) (d : List Word) : List Nat → List Nat → List Nat → Except BallEnd (List Nat × List Nat)
  | [], ball, new => .ok (ball, new)
  | e :: es, ball, new =>
    match neighbours s c d e with
    | .error x => .error x
    | .ok vs =>
      let fresh := vs.filter fun v => !setHas ball v
      let ball := fresh.foldl setIns ball
      if ball.length > 256 then .error .large else growBall s c d es ball (new ++ fresh)

/-- The ball of an element: `r` more steps from a frontier, in ascending order. [DEDUCED: log 83] -/
def ballFrom (s : State) (c : Nat) (d : List Word) : Nat → List Nat → List Nat → Except BallEnd (List Nat)
  | 0, _, ball => .ok ball
  | r + 1, frontier, ball =>
    match growBall s c d frontier ball [] with
    | .error x => .error x
    | .ok (ball, new) => ballFrom s c d r new ball

/-- RADIUS of a launch (R185). -/
def Launch.radius (l : Launch) : Nat := fld (recW l.record 0) 32 4

/-- A record that the agent of a core queues: ORIGIN 11 and the task's handle (R212, R216, R390). [DEDUCED: log 83] -/
def agentRecord (c handle : Nat) (t : Trap) (s : State) : State :=
  s.send (.record (c * 16) (coreDie c)
    [causeWord handle t.cause false 3 0 (c % 2048) 0, BitVec.ofNat 64 t.addr, 0#64, BitVec.ofNat 64 t.info] false false)

/-- A task's entry takes ST 101 (R216). -/
def holdTask (list n : Nat) (s : State) : State :=
  let e := readEntry s list n
  leaveColour list n (putEntry list n (e.with_ 5 e.prio e.count) s)

/-- Forming a ball has met trouble (R216). -/
def ballFails (c list n e : Nat) (x : BallEnd) (s : State) : State :=
  let handle := handleOf list n
  let quarantined (addr reason : Nat) : Trap := { cause := causeQuarantined, addr := addr, info := reason }
  match x with
  | .wait w => waitTurn (.agent c) w s
  | .fails f reason =>
    agentRecord c handle (quarantined f reason) (holdTask list n (quarantineElement (coreModule c) (s.core c).launch f s))
  | .large => agentRecord c handle (quarantined e 3) (holdTask list n s)
  | .fault t => agentRecord c handle t (holdTask list n s)

/-! ## Which task (R204, R207, R208, R217) -/

/-- The first of two entries in the order of R204. -/
def taskBefore (now : Nat) (a b : Nat × ListEntry) : Bool :=
  if a.2.prio ≠ b.2.prio then decide (b.2.prio < a.2.prio)
  else if older now a.2.posted b.2.posted then true
  else if older now b.2.posted a.2.posted then false
  else decide (a.1 < b.1)

/-- The first entry in the order of R204. -/
def firstTask (now : Nat) : List (Nat × ListEntry) → Option (Nat × ListEntry)
  | [] => none
  | x :: xs => match firstTask now xs with
    | none => some x
    | some y => if taskBefore now y x then some y else some x

/-- The eligible entries of a list. -/
def eligible (s : State) (list : Nat) : List (Nat × ListEntry) :=
  ((List.range (listCap s list)).map fun n => (n, readEntry s list n)).filter fun p => p.2.st == 2

/-- A task is admitted to the launch's colour phase (R217). -/
def inPhase (s : State) (la list n : Nat) : Bool := (launchParts s la).any fun p => p.2.colourTasks.contains (list, n)

/-- The first bound task of a core that the agent may attempt (R204, R217). [DEDUCED: log 107] -/
def boundTask (s : State) (c : Nat) : Option (Nat × ListEntry) :=
  let co := s.core c
  let l := s.launch co.launch
  if co.launch = 0 ∨ co.desc = [] ∨ l.killed then none
  else
    let list := coreList co.desc c
    firstTask (fabricNow s (coreModule c)) ((eligible s list).filter fun p =>
      if l.byColour then inPhase s co.launch list p.1 else (tabFind co.refused p.1).isNone)

/-- The first task of the cluster's list that a slot of the core may run (R207, R208). [DEDUCED: log 107] -/
def unboundTask (s : State) (c : Nat) : Option (Nat × ListEntry) :=
  let la := (s.core c).launch
  firstTask (fabricNow s (coreModule c)) ((eligible s (clusterList (coreCluster c))).filter fun p => la != 0 && p.2.launch == la)

/-- The free slots of a core that take tasks: with an element level its workers, else every free program
slot (R188, R208). -/
def workerSlot (s : State) (c : Nat) : Option Nat :=
  let l := s.launch (s.core c).launch
  if (s.core c).launch = 0 then none
  else ((List.range 14).map fun n => c * 16 + n).find? fun k =>
    (s.slot k).life == .free && (!l.hasElements || l.threads.any fun t => t.1 == k)

/-- The ranks of a slot as the launch placed it. -/
def launchRanks (l : Launch) (k : Nat) : List Nat := ((l.threads.find? fun t => t.1 == k).map fun t => t.2).getD []

/-- A task starts in a worker slot (R204, R218, R220). [DEDUCED: log 76] -/
def dispatch (k list n : Nat) (e : ListEntry) (held : List Nat) (s : State) : State :=
  let c := slotCore k
  let l := s.launch (s.core c).launch
  let bound := list < 2 ^ 80
  let t : TaskInfo := { list := list, entry := n, handle := handleOf list n
                        element := if bound then some e.element else none
                        start := s.now, held := held, colour := bound && l.byColour }
  let byLaunch := bound && (s.core c).launchPosted.contains n
  let args := if byLaunch then l.args else (List.range 8).map fun i => if i = 7 then e.w2 else l.args.getD i 0#64
  let s := putEntry list n (e.with_ 3 e.prio e.count) s
  let s := s.modSlot k fun x => { x with ranks := launchRanks l k }
  newThread k e.start (argRegs (s.fileSize c) args) (some t) (if l.desc = [] then 0#64 else ddef l.desc &&& ~~~3#64) none s

/-! ## Acquisition (R210 to R212) -/

/-- The agent of a core sends its next request or packet (R210). -/
def sendHolds (c : Nat) (s : State) : State :=
  match (s.core c).attempt with
  | none => s
  | some a =>
    let la := (s.core c).launch
    let list := coreList (s.core c).desc c
    let e := readEntry s list a.entry
    let (m, run) := nextRun (coreModule c) (s.launch la) (a.ball.drop a.granted.length)
    if run = [] then s
    else
      let s := s.modCore c fun x => { x with attempt := some { a with waiting := run, sentAt := s.now } }
      s.inject c m 0 (.stall c a.entry e.posted (handleOf list a.entry) (run.map fun x => (x, if x = e.element then .takeX else .takeS)))

/-- An attempt ends in a refusal: what was granted is released, and the task waits 1 µs, or for the release of
the word, where it is one of the core's own (R204, R210). -/
def refuseAttempt (c : Nat) (a : Attempt) (word : Option Nat) (s : State) : State :=
  let la := (s.core c).launch
  let own := (readEntry s (coreList (s.core c).desc c) a.entry).element
  let s := releaseHolds c la own a.granted.length a.granted s
  s.modCore c fun x => { x with
    attempt := none, refused := tabPut x.refused a.entry (s.now + 4000)
    wakeable := match word with
      | some pa => if coreOfPool pa = c then x.wakeable ++ [(a.entry, pa)] else x.wakeable
      | none => x.wakeable }

/-- A ball is held whole: the task goes to the lowest-numbered free worker slot (R204). -/
def finishAttempt (c : Nat) (s : State) : State :=
  match (s.core c).attempt, workerSlot s c with
  | some a, some k =>
    if a.granted = a.ball then
      let list := coreList (s.core c).desc c
      let s := s.modCore c fun x => { x with attempt := none }
      dispatch k list a.entry (readEntry s list a.entry) a.ball s
    else s
  | _, _ => s

/-- The event PARLOUR_DISPATCH_ATTEMPT (R204, R207, R208, R216, R217): a frozen module dispatches nothing
(R405). -/
def execParlourDispatchAttempt (core : Nat) (s : State) : Result :=
  .next (
    let co := s.core core
    let l := s.launch co.launch
    if (s.module (coreModule core)).boot ≠ .running then s
    else if co.attempt.isSome then finishAttempt core s
    else match workerSlot s core with
      | none => s
      | some k =>
        match boundTask s core with
        | some (n, e) =>
          let list := coreList co.desc core
          if l.byColour then dispatch k list n e [] s
          else match ballFrom s core co.desc l.radius [e.element] [e.element] with
            | .error (.wait w) => waitTurn (.agent core) w s
            | .error x => ballFails core list n e.element x (endTurn (.agent core) s)
            | .ok ball =>
              sendHolds core ((endTurn (.agent core) s).modCore core fun x => { x with attempt := some { entry := n, ball := ball } })
        | none => match unboundTask s core with
          | some (n, e) => dispatch k (clusterList (coreCluster core)) n e [] s
          | none => s)

/-- The event PARLOUR_RETRY_TIMER: 1 µs after its refusal a task is available again (R204). -/
def execParlourRetryTimer (core entry : Nat) (s : State) : Result :=
  .next (match tabFind (s.core core).refused entry with
    | some t =>
      if s.now < t then s
      else s.modCore core fun x => { x with
        refused := tabDel x.refused entry, wakeable := x.wakeable.filter fun (p : Nat × Nat) => p.1 != entry }
    | none => s)

/-- The time behind PAGE after an event: of a word, the time `t` behind its PAGE, and a request posted at time `a`. -/
def pageTime (w w' t a : Nat) : Nat :=
  if swPage w' = 0 then 0
  else if swPage w' ≠ a % 65536 then t
  else if swPage w = swPage w' then min t a else a

/-- One request at its home agent: whether it is granted (R211, R212). `age` is the time of the task's post. -/
def stallRequest (from_ age handle pa : Nat) (x : StallOp) (s : State) : Bool × State :=
  let m := pa / 2 ^ 48
  let now := fabricNow s m
  let w := (s.word pa).toNat
  let home := coreOfPool pa
  let page := ageTime s m (pa / 8) (swPage w)
  let act (r : Bool × Nat) : Bool × State := (r.1, noteAge (pa / 8) (pageTime w r.2 page age) (modStall pa (fun _ => r.2) s))
  match x with
  | .takeX => act (swTakeX now age page handle w)
  | .takeS =>
    if m ≠ from_ ∧ (s.core home).lent.length ≥ 256 then (false, s)
    else
      let (ok, s) := act (swTakeS now age page w)
      (ok, if ok && m != from_ then s.modCore home fun c => { c with lent := c.lent ++ [(pa, from_)] } else s)

/-- The requests of a packet in order, up to the first refusal: those granted, and the word that refused. -/
def stallRequests (l : Launch) (from_ age handle : Nat) :
    List (Nat × StallOp) → State → List Nat × Option Nat × State
  | [], s => ([], none, s)
  | (e, x) :: rest, s =>
    match stallAddr l e with
    | none => ([], some 0, s)
    | some pa =>
      let (ok, s) := stallRequest from_ age handle pa x s
      if ok then
        let (g, w, s) := stallRequests l from_ age handle rest s
        (e :: g, w, s)
      else ([], some pa, s)

/-- An answer reaches the agent that asked: the next request leaves, or the attempt ends (R210). -/
def answerHolds (c entry : Nat) (granted : List Nat) (word : Option Nat) (s : State) : State :=
  match (s.core c).attempt with
  | none => s
  | some a =>
    if a.entry ≠ entry then s
    else
      let b := { a with granted := a.granted ++ granted, waiting := [] }
      match word with
      | some _ => refuseAttempt c b word s
      | none =>
        let s := s.modCore c fun x => { x with attempt := some b }
        if b.granted = b.ball then finishAttempt c s else sendHolds c s

/-- The agent's attempt still waits for a message's answer; one that has been given up holds nothing. -/
def attemptWaits (s : State) (c entry : Nat) (es : List Nat) : Bool :=
  match (s.core c).attempt with
  | some a => a.entry == entry && a.waiting == es
  | none => false

/-- The event STALL_WORD_REQUEST (R210 to R212): the answer to another module travels back; holds that come back have none. -/
def execStallWordRequest (msg : Nat) (s : State) : Result :=
  .next (match tabFind s.net msg with
    | some (.stall c entry age handle reqs) =>
      let l := s.launch (s.core c).launch
      let own := coreModule c
      let m := (nextRun own l (reqs.map fun r => r.1)).1
      if !arrives s msg m then s
      else if !attemptWaits s c entry (reqs.map fun r => r.1) then s.drop msg
      else
        let (g, w, s) := stallRequests l own age handle reqs (s.drop msg)
        if m = own then answerHolds c entry g w s else s.inject (m * 8192) own 0 (.stallAnswer c entry g w.isSome)
    | some (.drops c m words) =>
      if !populated s m then s.drop msg
      else if arrives s msg m then overAll (takeBack (coreModule c)) words (s.drop msg) else s
    | _ => s)

/-- The event HOLD_ANSWER_ARRIVAL (R210). -/
def execHoldAnswerArrival (msg : Nat) (s : State) : Result :=
  .next (match tabFind s.net msg with
    | some (.stallAnswer c entry g refused) =>
      if arrives s msg (coreModule c) then answerHolds c entry g (if refused then some 0 else none) (s.drop msg) else s
    | _ => s)

/-! ## Colour phases (R217) -/

/-- The colour phases of a launch as a party at held words. -/
def colourParty (la : Nat) : Source := .unit (2 ^ 100 + la)

/-- The colour byte of an element. -/
def colourOf (s : State) (la e : Nat) : Got :=
  let l := s.launch la
  launchByte s (colourParty la) (launchModule la) l.base.toNat (colours l.desc + e)

/-- The eligible bound tasks of a launch, with their elements. -/
def boundTasks (s : State) (la : Nat) : List ((Nat × Nat) × Nat) :=
  let l := s.launch la
  l.homes.flatMap fun c =>
    let list := coreList l.desc c
    (eligible s list).map fun p => ((list, p.1), p.2.element)

/-- The eligible bound tasks of a launch, with the colours of their elements; none where a colour cannot be
read. [DEDUCED: log 84] -/
def colouredTasks (s : State) (la : Nat) : Option (List ((Nat × Nat) × Nat)) :=
  allSome ((boundTasks s la).map fun t => match colourOf s la t.2 with
    | .data v => some (t.1, v)
    | _ => none)

/-- The word at which the reading of the colours waits (R99). -/
def coloursBusy (s : State) (la : Nat) : Option Nat :=
  (boundTasks s la).findSome? fun t => match colourOf s la t.2 with
    | .wait w => some w
    | _ => none

/-- The event COLOUR_PHASE_START, on the origin of a launch: the lowest colour above the last one that has
an eligible task. [DEDUCED: log 84] -/
def execColourPhaseStart (launch : Nat) (s : State) : Result :=
  .next (match tabFind s.launches launch with
    | none => s
    | some l =>
      if l.origin ≠ launchModule launch ∨ !l.running ∨ !l.byColour ∨ l.colourTasks ≠ [] then s
      else match coloursBusy s launch, colouredTasks s launch with
        | some w, _ => waitTurn (colourParty launch) w s
        | none, none => s
        | none, some ts =>
          match ((List.range 256).map fun i => (l.colour + i) % 256).find? fun x => ts.any fun t => t.2 == x with
          | none => s
          | some x => (endTurn (colourParty launch) s).modLaunch launch fun l => { l with
              colour := x + 1, colourTasks := (ts.filter fun t => t.2 == x).map fun t => t.1 })

/-! ## Deadlines (R218, R219) -/

/-- The deadline of a task's slot has passed. [DEDUCED: log 25] -/
def deadlinePassed (s : State) (sl : Slot) : Bool :=
  match sl.task with
  | some t => fld sl.deadline.toNat 48 16 != 0 && decide (t.start + fld sl.deadline.toNat 48 16 * 4000 ≤ s.now)
  | none => false

/-- Expiry takes effect at a boundary: the fallback block, or DEADLINE (R219). [DEDUCED: log 25] -/
def expire (k origin : Nat) (s : State) : State :=
  let sl := s.slot k
  let fallback := fld sl.deadline.toNat 2 46 * 4
  let s := s.modSlot k fun x => { x with expired := false, fetchMiss := none, deadline := x.deadline &&& 0x0000FFFFFFFFFFFF#64 }
  if fallback ≠ 0 then s.modSlot k fun x => { x with next := fallback, life := .fetch }
  else pendTrap k { cause := causeDeadline, addr := 0, info := 0, origin := origin } s

/-- The event DEADLINE_EXPIRY (R219): a completed instance commits first. -/
def execDeadlineExpiry (slot : Nat) (s : State) : Result :=
  .next (
    let sl := s.slot slot
    if !deadlinePassed s sl ∨ (sl.life ≠ .fetch ∧ sl.life ≠ .run) ∨ (s.module (slotModule slot)).boot = .frozen then s
    else match sl.inst with
      | some i =>
        if i.complete then s.modSlot slot fun x => { x with expired := true }
        else expire slot 0 (discardInst slot s)
      | none => expire slot 1 s)

/-! ## The end of a thread or task (R86, R116, R122, R188, R190, R212) -/

/-- DONE or REPOST has taken effect as a release: every access has been acknowledged and every copy has
retired, the children have ended, and no trap is pending (R86, R190). -/
def endReleases (sl : Slot) : Bool :=
  (match sl.life with
    | .ending _ => true
    | _ => false) &&
    sl.halt == .none && sl.pending == [] && sl.record.isNone && sl.accs == [] && sl.copies == [] && sl.unretired == [] &&
    sl.post == [] && sl.join == 0

/-- The event HOLD_RELEASE_PARLOUR (R211, R212). -/
def execHoldReleaseParlour (slot : Nat) (s : State) : Result :=
  .next (
    let sl := s.slot slot
    match sl.task with
    | none => s
    | some t =>
      if endReleases sl then
        let s := releaseHolds (slotCore slot) sl.launch (t.element.getD (2 ^ 32 - 1)) t.held.length t.held s
        s.modSlot slot fun x => { x with task := some { t with held := [] } }
      else s)

/-- The BARX of a membership entry at a thread's end: a poisoned object stays, and a POISON record is queued, whose TRAP.ADDR holds
the low 48 bits of the address that the list holds, as there is no virtual one (R63, R116). [DEDUCED: log 53, 130] -/
def endMember (k : Nat) (m : Member) (s : State) : State :=
  if objectPoisoned s m.addr then
    let t : Trap := { cause := causePoison, addr := m.addr % 2 ^ 48, info := dataInfo 2 0 0 true, origin := 1 }
    let ws := recordWords k (s.slot k) t
    let s := s.modSlot k fun x => { x with
      trapCause := ws.getD 0 0#64, trapAddr := ws.getD 1 0#64, trapBlock := ws.getD 2 0#64, trapInfo := ws.getD 3 0#64 }
    s.send (.record k (coreDie (slotCore k)) ws false false)
  else modBar (writerOf k m.addr) m.addr (fun b => b.leave m.gen) s

/-- What becomes of the entry of a task that has ended (R350). -/
def endEntry (t : TaskInfo) (repost : Option Word) (s : State) : State :=
  let s := leaveColour t.list t.entry s
  match repost with
  | none => freeEntry t.list t.entry s
  | some arg =>
    let e := readEntry s t.list t.entry
    let s := putEntry t.list t.entry
      { entryOf 2 e.prio 0 e.element (ageNow s (listModule t.list)) e.start arg with
        launch := e.launch, posted := postTime s (listModule t.list) } s
    if t.list ≥ 2 ^ 80 then s
    else s.modCore (coreOfPool t.list) fun c => { c with launchPosted := c.launchPosted.filter fun x => x != t.entry }

/-- The thread leaves the machine. [DEDUCED: log 53] -/
def endThread (k : Nat) (repost : Option Word) (s : State) : State :=
  let sl := s.slot k
  let s := overAll (endMember k) sl.members s
  let s := leaveParent sl.parent (leavePhases k s)
  let s := match sl.task with
    | some t => endEntry t repost s
    | none => s
  let s := if systemSlot k || repost.isSome then s else countEnded sl.launch s
  let s := if sl.handlerFile.isSome then s.modDie (coreDie (slotCore k)) fun d => { d with handler := false } else s
  emptySlot k s

/-- The event THREAD_END. A barrier object with a held word makes its BARX, and the end, wait (R99). -/
def execThreadEnd (slot : Nat) (s : State) : Result :=
  .next (
    let sl := s.slot slot
    let held := match sl.task with
      | some t => t.held
      | none => []
    let src : Source := .node slot 65
    if !endReleases sl ∨ held ≠ [] ∨ sl.collPending ≠ [] then s
    else match sl.members.findSome? fun m => barBusy s src m.addr with
      | some w => waitTurn src w s
      | none => match sl.life with
        | .ending r => endThread slot r (endTurn src s)
        | _ => s)

/-! ## Children and migration (R190, R191) -/

/-- The event SPAWN_CHILD_START. [DEDUCED: log 78] -/
def execSpawnChildStart (slot : Nat) (s : State) : Result :=
  .next (match (s.slot slot).post with
    | (num, .spawn start arg) :: _ =>
      match freeSlotOf s (slotCore slot) with
      | some k =>
        if postReady (s.slot slot) num then
          let alive := (s.slot slot).life != .killed
          let s := (postDone slot s).modSlot slot fun x => { x with join := if alive then x.join + 1 else x.join }
          let s := s.modSlot k fun x => { x with ranks := (s.slot slot).ranks }
          newThread k start [(1, { val := arg })] none 0#64 (if alive then some slot else none) s
        else s
      | none => s
    | _ => s)

/-- The thread of a slot moves to another: its trap registers stay with the slot (R191, R392). [DEDUCED: log 82] -/
def moveThread (old new : Nat) (s : State) : State :=
  let a := s.slot old
  let b := s.slot new
  let t : Slot := { a with
    launch := b.launch, trapCause := b.trapCause, trapAddr := b.trapAddr, trapBlock := b.trapBlock
    trapInfo := b.trapInfo, trapVec := b.trapVec, lastIssue := b.lastIssue, slowUntil := b.slowUntil }
  emptySlot old (renameThread old new (s.modSlot new fun _ => t))

/-- The event MIGRATION_COMPLETE (R86, R142, R191): what its instance does after the MIGR comes from the slot that the thread has
come to (R333). [DEDUCED: log 16, 82] -/
def execMigrationComplete (slot : Nat) (s : State) : Result :=
  .next (
    let sl := s.slot slot
    match sl.post with
    | (num, .migr c) :: _ =>
      if !postReady sl num then s
      else if c = slotCore slot then postDone slot s
      else if sl.copies ≠ [] ∨ sl.unretired ≠ [] ∨ sl.pending ≠ [] ∨ sl.record.isSome ∨ sl.halt ≠ .none then s
      else match freeSlotOf s c with
        | some k => moveThread slot k (postDone slot s)
        | none => s
    | _ => s)

/-! ## FABRIC TIMEOUT (R19, R161, R167, R212) -/

/-- FABRIC TIMEOUT at an address of a module, of a write or not (R33, R167). [DEDUCED: log 126] -/
def fabricTimeout (va m : Nat) (write : Bool) : Trap :=
  { cause := causeFabric, addr := va, info := addrInfo 0xD write false 0 (some m) }

/-- A request to a module fails for good: nothing is there, it found no route, or FAB.TMO has passed (R19, R161, R167).
[DEDUCED: log 126] -/
def requestDead (s : State) (core m sentAt : Nat) (stranded : Bool) : Bool :=
  !populated s m || stranded || decide (sentAt + fabTimeout s core ≤ s.now)

/-- An access at an address that needs W (R33). -/
def Acc.needsW (a : Acc) : Bool :=
  match a.op with
  | .zrsv _ => false
  | op => op.use.writes

/-- A request of an access found no valid entry (R161). -/
def accStranded (s : State) (k a : Nat) : Bool :=
  s.net.any fun p => noRoute s p.1 && match p.2 with
    | .remote _ _ _ _ r => r.from_ k a
    | .reserveZone k' a' _ _ => k' == k && a' == a
    | _ => false

/-- The module of the home of an element that an attempt waits for. -/
def stallModule (l : Launch) (e own : Nat) : Nat := match homeOf l e with
  | some c => coreModule c
  | none => own

/-- The event FABRIC_TIMEOUT, of a remote access, a message packet, or a stall-word request. [DEDUCED: log 126] -/
def execFabricTimeout (msg : Nat) (s : State) : Result :=
  .next (match findAcc s msg with
    | some (k, a) =>
      match a.remote with
      | none => s
      | some m =>
        if a.st != .sent || !requestDead s (slotCore k) m a.sentAt (accStranded s k a.id) then s
        else
          let t := fabricTimeout a.va m a.needsW
          if a.committed then pendTrap k { t with origin := 1, own := some a.blk } (s.dropAcc k a.id) else raise k t s
    | none => match tabFind s.net msg with
      | some (.packet k target e blk sentAt _ _ _ _) =>
        if requestDead s (slotCore k) (coreModule target) sentAt (noRoute s msg) then
          pendTrap k { fabricTimeout e (coreModule target) false with origin := 1, own := some blk } (s.drop msg)
        else s
      | some (.stall c entry _ handle reqs) =>
        let l := s.launch (s.core c).launch
        let e := (reqs.headD (0, .takeS)).1
        let m := stallModule l e (coreModule c)
        match (s.core c).attempt with
        | some a =>
          if a.entry = entry ∧ m ≠ coreModule c ∧ requestDead s c m a.sentAt (noRoute s msg) then
            agentRecord c handle (fabricTimeout e m false) (refuseAttempt c { a with waiting := [] } none (s.drop msg))
          else s
        | none => s.drop msg
      | some (.stallAnswer c entry g _) =>
        let l := s.launch (s.core c).launch
        match (s.core c).attempt with
        | some a =>
          let e := a.waiting.headD 0
          let m := stallModule l e (coreModule c)
          if a.entry = entry ∧ requestDead s c m a.sentAt false then
            agentRecord c (handleOf (coreList l.desc c) entry) (fabricTimeout e m false)
              (refuseAttempt c { a with granted := a.granted ++ g, waiting := [] } none (s.drop msg))
          else s
        | none => s.drop msg
      | _ => s)

end Sys2Proof.Machine
end

