-- ==== Sys2Proof/Machine/System.lean ====
section
/-! DEFINITION. The system instructions 0xE2 to 0xEB (R378 to R389) and what they do at commit. -/

namespace Sys2Proof.Machine

/-! ## Slot references (R378) -/

/-- The program slot that a reference names. -/
def slotRef (k : Nat) (v : Word) : Option Nat :=
  let r := v.toNat
  if r / 2 ^ 17 ≠ 0 ∨ 13 < r % 16 then none else some ((slotModule k * 8192 + fld r 4 13) * 16 + r % 16)

/-- The mould of a deferred action on a named slot, which sends 0. -/
def slotOp (i : Instr) (act : Nat → Action) : State → State :=
  systemShell i fun o s =>
    match slotRef o.slot o.l with
    | none => raise o.slot (illegalAt o.node) s
    | some t => finish i o (.data 0#64 false) (s.modInst o.slot fun j => j.putAction o.node (act t))

/-- ERET (R381). -/
def execEret (p : Pred) (redirect : Bool) (s : State) : Result :=
  .next (systemShell (.eret p redirect) (fun o s =>
    match slotRef o.slot o.l with
    | none => raise o.slot (illegalAt o.node) s
    | some t =>
      setNode o .fired (s.modInst o.slot fun j => j.putAction o.node (.eret t (if redirect then some o.r.toNat else none)))) s)

/-- SWAPS (R382). -/
def execSwaps (p : Pred) (t : Tgt) (u : Tgt) (s : State) : Result :=
  .next (systemShell (.swaps p t u) (fun o s =>
    match slotRef o.slot o.l with
    | none => raise o.slot (illegalAt o.node) s
    | some k =>
      if 63 < o.r.toNat then raise o.slot (illegalAt o.node) s
      else finish (.swaps p t u) o (.data 0#64 false) (s.modInst o.slot fun j => j.putAction o.node (.swaps k o.r.toNat))) s)

/-- The mould of TLBI (R383). -/
def tlbiOp (i : Instr) (kind : Nat) (sc : Scope) : State → State :=
  systemShell i fun o s =>
    finish i o (.data 0#64 false)
      (s.modInst o.slot fun j => j.putAction o.node (.tlbi kind o.l.toNat (o.r.toNat % 65536) sc))

/-- TLBI of a page (R383). -/
def execTlbiPage (p : Pred) (t : Tgt) (u : Tgt) (sc : Scope) (s : State) : Result :=
  .next (tlbiOp (.tlbiPage p t u sc) 0 sc s)

/-- TLBI of an ASID (R383). -/
def execTlbiAsid (p : Pred) (t : Tgt) (u : Tgt) (sc : Scope) (s : State) : Result :=
  .next (tlbiOp (.tlbiAsid p t u sc) 1 sc s)

/-- TLBI of everything (R383). -/
def execTlbiAll (p : Pred) (t : Tgt) (u : Tgt) (sc : Scope) (s : State) : Result :=
  .next (tlbiOp (.tlbiAll p t u sc) 2 sc s)

/-- PARK (R384). -/
def execPark (p : Pred) (t : Tgt) (u : Tgt) (s : State) : Result := .next (slotOp (.park p t u) .park s)

/-- WAKE (R384). -/
def execWake (p : Pred) (t : Tgt) (u : Tgt) (s : State) : Result := .next (slotOp (.wake p t u) .wake s)

/-- HALTS (R385). -/
def execHalts (p : Pred) (t : Tgt) (u : Tgt) (s : State) : Result := .next (slotOp (.halts p t u) .halts s)

/-- PWRQ (R386). -/
def execPwrq (p : Pred) (t : Tgt) (u : Tgt) (s : State) : Result :=
  .next (checkedShell (.pwrq p t u) (fun o s =>
    if 255 < o.l.toNat then raise o.slot (illegalAt o.node) s
    else finish (.pwrq p t u) o (.data 0#64 false) (s.modInst o.slot fun j => j.putAction o.node (.pwrq o.l.toNat))) s)

/-- CSYNC (R387). -/
def execCsync (p : Pred) (t : Tgt) (u : Tgt) (s : State) : Result :=
  .next (checkedShell (.csync p t u) (fun o s =>
    finish (.csync p t u) o (.data 0#64 false) (s.modInst o.slot fun j => j.putAction o.node .csync)) s)

/-! ## TRQPOP (R388, R395) -/

/-- The records that stand in a die's queue. -/
def Die.occupancy (d : Die) : Nat := (d.tqTail + 2 ^ 32 - d.tqHead) % 2 ^ 32

/-- The position of the oldest record that may still stand: HEAD counts those removed out of order too. -/
def Die.oldest (d : Die) : Nat := (d.tqHead + 2 ^ 32 - d.removed.length) % 2 ^ 32

/-- The oldest record that stands and that nothing has claimed. [DEDUCED: log 110] -/
def Die.claimable (d : Die) : Option Nat :=
  ((List.range (d.occupancy + d.removed.length)).map fun i => (d.oldest + i) % 2 ^ 32).find? fun p =>
    !d.removed.contains p && !d.claims.contains p

/-- The system address of a record's place in the ring. -/
def ringAddr (s : State) (die pos : Nat) : Nat :=
  sysAddr (die / 4) (fld (s.die die).tqBase.toNat 15 33 * 32768 + 32 * (pos % 1024))

/-- A record goes to the pail as four relaxed commit-time writes. -/
def popWrites (o : Fired) (bs : List (Byte × Bool)) (s : State) : State :=
  let num := match (s.slot o.slot).inst with | some i => i.num | none => 0
  let accs := pailWrites o.slot o.node [(o.l.toNat, bs)]
  let s' := s.modSlot o.slot fun x => { x with accs := x.accs ++ accs.mapIdx fun n a => { a with id := s.nextId + n, inst := num } }
  { s' with nextId := s.nextId + accs.length }

/-- TRQPOP (R388). [DEDUCED: log 110] -/
def execTrqpop (p : Pred) (t : Tgt) (u : Tgt) (latch : Bool) (s : State) : Result :=
  .next (systemShell (.trqpop p t u latch) (fun o s =>
    let d := coreDie (slotCore o.slot)
    let die := s.die d
    let send (n : Nat) (s : State) : State := finish (.trqpop p t u latch) o (.data (BitVec.ofNat 64 n) false) s
    match pailCheck s o.slot o.l.toNat [(o.l.toNat, 32)] true with
    | some f => raise o.slot f s
    | none =>
      if o.l.toNat % 32 ≠ 0 then
        raise o.slot { cause := causeMisaligned, addr := o.l.toNat, info := addrInfo 0xC false false 0 none } s
      else if latch then
        if die.latched && !die.latchClaim then
          let s := s.modDie d fun x => { x with latchClaim := true }
          let s := s.modInst o.slot fun j => j.putAction o.node (.trqpop o.l.toNat d true 0)
          send 1 (popWrites o ((die.latch.flatMap fun w => natBytes 8 w.toNat).map fun b => (b, false)) s)
        else send 0 s
      else match die.claimable, die.claimable.bind (fun pos => firstBusy s (.node o.slot o.node) (wordsOf (ringAddr s d pos) 32)) with
        | none, _ => send 0 (endTurn (.node o.slot o.node) s)
        | _, some w => waitTurn (.node o.slot o.node) w s
        | some pos, none =>
          let a := ringAddr s d pos
          let bs := (List.range 32).map fun i => (s.byte (a + i), s.wordPoisoned (a + i))
          let s := (endTurn (.node o.slot o.node) s).modDie d fun x => { x with claims := setIns x.claims pos }
          let s := s.modInst o.slot fun j => j.putAction o.node (.trqpop o.l.toNat d false pos)
          send die.occupancy (popWrites o bs s)) s)

/-- While EN = 1 and occupancy is 512 or below, the die wakes every slot whose record was dropped (R396). -/
def wakeDropped (d : Nat) (s : State) : State :=
  let die := s.die d
  if die.tqBase.toNat % 2 = 1 ∧ die.occupancy ≤ 512 then
    overAll (fun p s => if coreDie (slotCore p.1) = d ∧ p.2.halt = .replay true then wakeSlot p.1 s else s) s.slots s
  else s

/-- Positions that the oldest position has reached are forgotten. [DEDUCED: log 110] -/
def passRemoved : Nat → Die → Die
  | 0, d => d
  | n + 1, d => if d.removed.contains d.oldest then passRemoved n { d with removed := d.removed.erase d.oldest } else d

/-- The record leaves the queue, and HEAD advances by one; or the latch is cleared (R388, R395, R397).
[DEDUCED: log 110] -/
def trqpopCommit (d : Nat) (latch : Bool) (pos : Nat) (s : State) : State :=
  if latch then s.modDie d fun x => { x with latched := false, latchClaim := false }
  else
    let s := s.modDie d fun x =>
      passRemoved (x.removed.length + 1)
        { x with tqHead := (x.tqHead + 1) % 2 ^ 32, claims := setDel x.claims pos, removed := x.removed ++ [pos] }
    wakeDropped d s

/-! ## KREG (R389) -/

/-- CRC-64/ECMA-182 of bytes, continued from a remainder. -/
def crc64 (crc : BitVec 64) (bs : List Byte) : BitVec 64 :=
  let bit (c : BitVec 64) : BitVec 64 := if c.msb then (c <<< 1) ^^^ 0x42F0E1EBA9EA3693#64 else c <<< 1
  bs.foldl (fun (c : BitVec 64) (b : Byte) => bit (bit (bit (bit (bit (bit (bit (bit (c ^^^ (b.zeroExtend 64 <<< 56)))))))))) crc

/-- The checksum of the entry at an address. -/
def keyChecksum (s : State) (pa : Nat) : Word := crc64 0#64 (s.bytesAt pa 56)

/-- KREG seal: the address is checked when it fires. -/
def execKregSeal (p : Pred) (t : Tgt) (u : Tgt) (s : State) : Result :=
  .next (systemShell (.kregSeal p t u) (fun o s =>
    match checkWalk s { core := slotCore o.slot, sys := true, va := o.l.toNat, size := 64, use := .keyWrite } with
    | .fault f => raise o.slot f s
    | .miss => s
    | .at pa =>
      finish (.kregSeal p t u) o (.data 0#64 false) (s.modInst o.slot fun j => j.putAction o.node (.seal o.l.toNat pa))) s)

/-- KREG check: 64 bytes are read in the block. -/
def execKregCheck (p : Pred) (t : Tgt) (u : Tgt) (s : State) : Result :=
  .next (systemShell (.kregCheck p t u) (fun o s =>
    match checkWalk s { core := slotCore o.slot, sys := true, va := o.l.toNat, size := 64, use := .keyRead } with
    | .fault f => raise o.slot f s
    | .miss => s
    | .at pa =>
      if !readMayGo s o.slot o.node pa 64 then readWaits o.slot o.node pa 64 s
      else match ((List.range 8).map fun i => 8 * i).find? fun i => s.wordPoisoned (pa + i) with
        | some i => raise o.slot (poisonAt (o.l.toNat + i) (pa + i)) (endTurn (.node o.slot o.node) s)
        | none =>
          let ok := s.word (pa + 56) == keyChecksum s pa
          finish (.kregCheck p t u) o (.data (BitVec.ofNat 64 (bitField ok)) false) (endTurn (.node o.slot o.node) s)) s)

/-- The held word of the first 56 bytes of an entry at which the seal of a slot waits. -/
def sealBusy (s : State) (k pa : Nat) : Option Nat := firstBusy s (.node k 64) (wordsOf pa 56)

/-- KREG seal at commit, in its turn at the words that it reads: POISON after commit where one is poisoned; else the checksum
leaves as a store of its own, which other parties' accesses may come before, and the slot goes on when it has been
acknowledged. -/
def sealCommit (k num va pa : Nat) (s : State) : State :=
  let s := endTurn (.node k 64) s
  match ((List.range 7).map fun i => 8 * i).find? fun i => s.wordPoisoned (pa + i) with
  | some i =>
    postDone k (pendTrap k { poisonAt (va + i) (pa + i) with info := dataInfo (errorSource pa) 0 0 true, origin := 1 } s)
  | none =>
    let a : Acc := { id := s.nextId, inst := num, lsid := 1000, node := 0, kind := .commitTime, ordered := false
                     op := .store 8 (keyChecksum s pa) 0#64 false, va := va + 56, pa := pa + 56, committed := true
                     blk := (s.slot k).blk }
    pump k ({ s with nextId := s.nextId + 1 }.modSlot k fun x => { x with
      accs := x.accs ++ [a], post := (num, .sealed a.id) :: x.post.drop 1 })

/-! ## PARK, WAKE, HALTS at commit (R384, R385) -/

/-- A slot holds a thread that a system action can act on. -/
def hasThread (sl : Slot) : Bool := sl.life != .free && sl.life != .killed

/-- PARK: a completed instance commits first, any other is discarded. -/
def parkThread (k : Nat) (s : State) : State :=
  match (s.slot k).inst with
  | some i =>
    if i.complete then s.modSlot k fun x => { x with parkAtBoundary := true }
    else (discardInst k s).modSlot k fun x => { x with halt := .parked }
  | none => s.modSlot k fun x => { x with halt := .parked }

/-- PARK at commit. -/
def parkCommit (by_ k : Nat) (s : State) : State :=
  if hasThread (s.slot k) && (s.slot k).halt == .none && !(s.slot k).parkAtBoundary then parkThread k s
  else countMisuse (slotModule by_) s

/-- A thread is parked, or about to be. -/
def isParked (sl : Slot) : Bool :=
  match sl.halt with
  | .parked | .replay _ => true
  | .none => sl.parkAtBoundary
  | .fatal | .software => false

/-- WAKE at commit. -/
def wakeCommit (by_ k : Nat) (s : State) : State :=
  if hasThread (s.slot k) && isParked (s.slot k) then wakeSlot k s else countMisuse (slotModule by_) s

/-- HALTS at commit. -/
def haltsCommit (by_ k : Nat) (s : State) : State :=
  if hasThread (s.slot k) then killThread k s else countMisuse (slotModule by_) s

/-! ## SWAPS at commit (R382, R402, R403) -/

/-- What a thread's state becomes when the traps pending at its save are queued (R403). -/
def savedHalt (sl : Slot) : Halt :=
  match firstTrap sl.pending with
  | some t => if t.cause = causeSoftware then .software else .fatal
  | none => sl.halt

/-- Save the thread of a slot as an entry of a cluster's context cache; what names it follows. [DEDUCED: log 112] -/
def saveThread (k cl e : Nat) (s : State) : State :=
  let halt := savedHalt (s.slot k)
  let s := queuePending k (s.slot k).pending.length s
  let sl := s.slot k
  let saved : Slot := { sl with
    deadline := reducedDeadline s.now sl, savedFrom := k, halt := halt, queued := 0, post := [], fences := []
    fetchMiss := none, parkAtBoundary := false, swapping := false }
  let s := s.modCluster cl fun x => { x with contexts := tabPut x.contexts e saved }
  emptySlot k (writeImage cl e saved s)

/-- Load a saved thread into a slot (R218, R403). [DEDUCED: log 112] -/
def loadThread (k : Nat) (sl : Slot) (s : State) : State :=
  let now := s.now
  s.modSlot k fun x => { sl with
    lastIssue := x.lastIssue, slowUntil := x.slowUntil
    task := sl.task.map fun t => { t with start := now } }

/-- The thread of a slot can be saved: nothing of it is under way but its copies (R88). -/
def mayBeSaved (by_ k : Nat) (sl : Slot) : Bool :=
  sl.inst.isNone && sl.life != .killed && sl.accs == [] && sl.copies == [] && sl.record.isNone &&
    (if by_ = k then sl.post.length ≤ 1 else sl.post == [])

/-- No SWAPS on an entry that committed before a slot's is still to act (R382). -/
def swapsTurn (s : State) (by_ e : Nat) : Bool :=
  match (s.cluster (coreCluster (slotCore by_))).swaps.find? fun p => p.2 == e with
  | some p => p.1 == by_
  | none => true

/-- The exchange of a SWAPS, once the named slot is ready for it: none while it waits. -/
def swapsExchange (by_ k e : Nat) (s : State) : Option State :=
  let cl := coreCluster (slotCore by_)
  let ctx := tabFind (s.cluster cl).contexts e
  let sl := s.slot k
  let busyCopies := match ctx with
    | some c => c.unretired != [] && slotCore c.savedFrom != slotCore k
    | none => false
  if !mayBeSaved by_ k sl || busyCopies then none
  else match sl.life, ctx with
    | .free, none => some (countMisuse (slotModule by_) s)
    | .free, some c =>
      let s := s.modCluster cl fun x => { x with contexts := tabDel x.contexts e }
      some (renameThread (contextKey cl e) k (loadThread k c s))
    | _, none => some (renameThread k (contextKey cl e) (saveThread k cl e s))
    | _, some c =>
      let s := renameThread k (contextKey cl e) (saveThread k cl e (renameThread (contextKey cl e) (2 ^ 70) s))
      some (renameThread (2 ^ 70) k (loadThread k c s))

/-- SWAPS at commit, in its turn on the entry: none while it waits. -/
def swapsCommit (by_ k e : Nat) (s : State) : Option State :=
  if !swapsTurn s by_ e then none
  else (swapsExchange by_ k e s).map fun t =>
    t.modCluster (coreCluster (slotCore by_)) fun x => { x with swaps := x.swaps.erase (by_, e) }

/-- SWAPS stops the thread of the named slot (R382). -/
def swapsStop (k : Nat) (s : State) : State :=
  match (s.slot k).inst with
  | some i => (if i.complete then s else discardInst k s).modSlot k fun x => { x with swapping := true }
  | none => s.modSlot k fun x => { x with swapping := hasThread x }

end Sys2Proof.Machine
end

