-- ==== Sys2Proof/Machine/Traps.lean ====
section
/-! DEFINITION. Trap records: taking a trap (R393), queueing its record or what else becomes of it (R392, R394
to R397), what follows for a task and for the handler thread (R214, R398, R399), and TQ.BASE. -/

namespace Sys2Proof.Machine

/-- The event TRAP_TAKE: a slot at a block boundary takes one pending trap (R393). -/
def execTrapTake (slot : Nat) (s : State) : Result :=
  .next (
    let sl := s.slot slot
    if sl.inst.isSome || !hasThread sl || sl.halt != .none || sl.record.isSome || sl.pending == [] then s
    else takeTrap slot s)

/-- What becomes of a record, as TRAP.VEC has it: FATE and POS (R392). -/
def vecWord (fate pos : Nat) : Word := BitVec.ofNat 64 (fate * 2 ^ 62 + pos)

/-- A record enters the ring, and TAIL advances (R395). -/
def enterRecord (d : Nat) (ws : List Word) (s : State) : State :=
  let a := ringAddr s d (s.die d).tqTail
  let s := overAll (fun i s => writeWord (unitWriter (d / 4)) (a + 8 * i) (ws.getD i 0#64) (s.setWordPoison (a + 8 * i) false))
    (List.range 4) s
  s.modDie d fun x => { x with tqTail := (x.tqTail + 1) % 2 ^ 32 }

/-- A record is queued, dropped, latched or lost: TRAP.VEC, whether it was dropped, and the state after
(R396, R397). [DEDUCED: log 109] -/
def queueRecord (d : Nat) (ws : List Word) (replay : Bool) (s : State) : Word × Bool × State :=
  let die := s.die d
  let on := die.tqBase.toNat % 2 == 1
  if on && decide (die.occupancy < (if replay then 1016 else 1024)) then
    (vecWord 0 (die.tqTail % 1024), false, enterRecord d ws s)
  else if replay then
    let s := s.modModule (d / 4) fun x => { x with trapsDropped := x.trapsDropped + 1 }
    (vecWord 1 0, true, s.modDie d fun x => { x with dropped := min 0xFFFF (x.dropped + 1) })
  else if die.latched then
    let s := s.modModule (d / 4) fun x => { x with trapsLost := x.trapsLost + 1 }
    (vecWord 3 0, false, s.modDie d fun x => { x with lost := min 0xFFFF (x.lost + 1) })
  else (vecWord 2 0, false, s.modDie d fun x => { x with latched := true, mchk := true, latch := ws })

/-- A die's trap queue as a writer at held words. -/
def ringParty (d : Nat) : Source := .unit (2 ^ 41 + d)

/-- The held word of the ring at which the next record of a die waits (R99). -/
def ringBusy (s : State) (d : Nat) : Option Nat :=
  if (s.die d).tqBase.toNat % 2 = 0 then none else firstBusy s (ringParty d) (wordsOf (ringAddr s d (s.die d).tqTail) 32)

/-- The CAUSE of a record. -/
def recordCause (ws : List Word) : Nat := fld (ws.getD 0 0#64).toNat 24 8
/-- The ORIGIN of a record. -/
def recordOrigin (ws : List Word) : Nat := fld (ws.getD 0 0#64).toNat 21 2

/-- The slot has drained, as its record requires (R88, R394): a record raised outside any slot waits for
none, and neither does that of a saved thread. [DEDUCED: log 109] -/
def recordMayQueue (s : State) (k : Nat) (ws : List Word) (own : Bool) : Bool :=
  recordOrigin ws == 3 || (!own && (s.slot k).life != .killed) || drained (s.slot k)

/-- The slot's trap registers hold the record. -/
def showsRecord (sl : Slot) (ws : List Word) : Bool :=
  ws == [sl.trapCause, sl.trapAddr, sl.trapBlock, sl.trapInfo]

/-- A task leaves its worker slot after a fatal trap (R399): what is still pending is queued at once (R393),
its barriers break, and its children have no parent any more. -/
def dropTask (k : Nat) (s : State) : State :=
  let s := queuePending k (s.slot k).pending.length s
  emptySlot k (orphanChildren k (breakBars k s))

/-- The handler thread has faulted: it ends, what is still pending for it is queued at once, MCHK is set and TQ.HANDLER.EN is
cleared (R393, R398). -/
def endHandler (k : Nat) (s : State) : State :=
  let s := queuePending k (s.slot k).pending.length s
  let s := s.modDie (coreDie (slotCore k)) fun x =>
    { x with mchk := true, handler := false, tqHandler := x.tqHandler &&& ~~~1#64 }
  emptySlot k (breakBars k s)

/-- What follows in the slot when its own record is through (R396, R399). -/
def afterRecord (k : Nat) (t : Trap) (dropped : Bool) (s : State) : State :=
  let s := s.modSlot k fun x => { x with
    record := none
    halt := match x.halt with
      | .replay _ => .replay dropped
      | h => h }
  if (s.slot k).handlerFile.isSome then endHandler k s
  else if (s.slot k).task.isSome && !t.replay && t.cause != causeSoftware then dropTask k s
  else s

/-- The event TRAP_RECORD_QUEUE (R214, R394 to R399). [DEDUCED: log 109] -/
def execTrapRecordQueue (msg : Nat) (s : State) : Result :=
  .next (match tabFind s.net msg with
    | some (.record k d ws replay own) =>
      if !recordMayQueue s k ws own then s
      else match ringBusy s d with
      | some w => waitTurn (ringParty d) w s
      | none =>
        let mine := if own then (s.slot k).record else none
        let s := s.drop msg
        let s := match mine with
          | some t => if !t.replay && t.cause != causeSoftware && (s.slot k).task.isSome then taskFails k s else s
          | none => s
        let (vec, dropped, s) := queueRecord d ws replay s
        let s := endTurn (ringParty d) s
        let s := if showsRecord (s.slot k) ws then s.modSlot k fun x => { x with trapVec := vec } else s
        let s := match mine with
          | some t => afterRecord k t dropped s
          | none => s
        wakeDropped d s
    | _ => s)

/-- The event HANDLER_THREAD_START (R398): a frozen module starts none (R405). -/
def execHandlerThreadStart (die : Nat) (s : State) : Result :=
  .next (
    let x := s.die die
    let c := die * 2048 + fld x.tqHandler.toNat 53 11
    let k := c * 16 + 15
    if x.tqHandler.toNat % 2 = 0 ∨ x.occupancy = 0 ∨ x.handler ∨ (s.module (die / 4)).boot ≠ .running ∨
        (s.slot k).life ≠ .free then s
    else
      let entry := fld x.tqHandler.toNat 2 46 * 4
      let s := s.modDie die fun y => { y with handler := true }
      (newThread k entry [(1, { val := BitVec.ofNat 64 x.occupancy })] none 0#64 none s).modSlot k fun y =>
        { y with handlerFile := some (s.fileSize c) })

/-- A write of TQ.BASE; one that sets EN wakes the slots whose records were dropped (R395, R396). -/
def writeTqBase (die val : Nat) (s : State) : State :=
  wakeDropped die (s.modDie die fun x => { x with tqBase := BitVec.ofNat 64 val &&& 0xFFFFFFFF8001#64 })

/-- The event TQ_BASE: nothing runs, and no link is open, in a module that has not booted (R408). -/
def execTqBase (die val : Nat) (s : State) : Result := .next (if answers s (die / 4) then writeTqBase die val s else s)

end Sys2Proof.Machine
end

