-- ==== Sys2Proof/Machine/Power.lean ====
section
/-! DEFINITION. Power grants (R412 to R416), fabric time (R206), scrubbing and damage (R58, R59), and the
expert level (R417). -/

namespace Sys2Proof.Machine

/-! ## Grants (R412 to R415) -/

/-- The cap in force on a die: DCAP, never above 212,500, and lower while it is throttled (R413, R416). -/
def Die.cap (d : Die) : Nat :=
  let c := min 212500 (fld d.dcap.toNat 0 18)
  match d.throttle with
  | some t => min c t
  | none => c

/-- The cap of a cluster (R413). -/
def Cluster.cap (c : Cluster) : Nat := min 4080 (fld c.ccap.toNat 0 16)

/-- The requests of a cluster's cores in force in the next period, in ascending core order. -/
def clusterRequests (s : State) (cl : Nat) : List Nat := (List.range 16).map fun i => (s.core (cl * 16 + i)).pwrNext

/-- What remains of a budget passes to cores whose requests are unmet, in ascending core order (R412). -/
def passOn : Nat → List (Nat × Nat) → List Nat
  | _, [] => []
  | rest, (req, got) :: t =>
    let more := min rest (req - got)
    (got + more) :: passOn (rest - more) t

/-- The grants of a cluster's cores, of a budget: the smaller of request and equal share, then the remainder.
[DEDUCED: log 118] -/
def shareBudget (budget : Nat) (reqs : List Nat) : List Nat :=
  let base := reqs.map fun r => (r, min r (budget / 16))
  passOn (budget - (base.map fun p => p.2).sum) base

/-- The budgets of a die's clusters: pinned ones first while the cap lasts, then the rest in proportion to
requests, none above its cap; a share is rounded down (R412, R413). -/
def clusterBudgets (s : State) (die : Nat) : List Nat :=
  let cls := (List.range 128).map fun i => die * 128 + i
  let pinned (c : Nat) : Bool := bitOf (s.cluster c).ccap.toNat 16
  let pins := cls.foldl (fun (acc : Nat × List Nat) c =>
    let g := if pinned c then min acc.1 (s.cluster c).cap else 0
    (acc.1 - g, acc.2 ++ [g])) ((s.die die).cap, [])
  let req (c : Nat) : Nat := (clusterRequests s c).sum
  let total := ((cls.filter fun c => !pinned c).map req).sum
  cls.zipWith (fun c g => if pinned c then g else if total = 0 then 0 else min (s.cluster c).cap (pins.1 * req c / total)) pins.2

/-- The cores of a cluster take their grants for a period; requests made in the last one are in force
(R412, R414). [DEDUCED: log 118] -/
def grantCluster (cl budget : Nat) (s : State) : State :=
  let gs := shareBudget budget (clusterRequests s cl)
  overAll (fun i s => s.modCore (cl * 16 + i) fun c => { c with
    pwrReq := c.pwrNext, pwrGrant := gs.getD i 0, pwrCap := budget / 16 }) (List.range 16) s

/-- The event GRANT_PERIOD: the next period of 10 µs begins on a die. -/
def execGrantPeriod (die : Nat) (s : State) : Result :=
  .next (
    let m := s.module (die / 4)
    let d := s.die die
    if (m.boot ≠ .running ∧ m.boot ≠ .frozen) ∨ s.now - m.bootAt < (d.periods + 1) * 40000 then s
    else
      let s' := s.modDie die fun x => { x with periods := x.periods + 1 }
      overAll (fun p s => grantCluster p.1 p.2 s) ((clusterBudgets s die).mapIdx fun i b => (die * 128 + i, b)) s')

/-- The event THERMAL_THROTTLE: firmware lowers the die cap; a cap that is no lower ends the throttling
(R416). [DEDUCED: log 118] -/
def execThermalThrottle (die cap : Nat) (s : State) : Result :=
  .next (s.modDie die fun d => { d with throttle := if cap < min 212500 (fld d.dcap.toNat 0 18) then some cap else none })

/-! ## Fabric time (R206) -/

/-- The event TIME_BEACON: a module steers its count by the beacon of the root. -/
def execTimeBeacon (module root : Nat) (s : State) : Result :=
  .next (
    if !delivers s root module then s
    else s.modModule module fun m => { m with fabricTime := (s.module root).fabricTime })

/-! ## Scrubbing and damage (R58, R59) -/

/-- The structure that a storage word belongs to, among the counters of R419: pool, banks, scale memory,
tier-2; the last for what has no counter. [DEDUCED: log 42] -/
def structureOf (pa : Nat) : Nat :=
  match regionOf (pa % 2 ^ 48) with
  | some (.own _) | some (.remote _ _) => 0
  | some .global => 1
  | some .tier2 => 3
  | some .control => 4
  | some .cxl | some .host => 4
  | none => if pa % 2 ^ 48 / 2 ^ 47 = 1 then 2 else 4

/-- The address lies in an ACC granule of its core's pool, whose halves carry poison apart (R47). -/
def inAccGranule (s : State) (pa : Nat) : Bool :=
  match regionOf (pa % 2 ^ 48) with
  | some (.remote c off) => poolClass (s.partition (pa / 2 ^ 48 * 8192 + c)) off == .acc
  | _ => false

/-- The slot and the register that a word of a REG granule holds (R42, R43). -/
def registerAt (s : State) (pa : Nat) : Option (Nat × Nat) :=
  match regionOf (pa % 2 ^ 48) with
  | some (.remote c off) =>
    let core := pa / 2 ^ 48 * 8192 + c
    let part := s.partition core
    let n := 8 * partReg part
    let i := (off - regBase part) / 8
    if poolClass part off == .reg && i < 16 * n then some (core * 16 + i / n, if i % n = n - 1 then 63 else i % n) else none
  | _ => none

/-- What an uncorrectable error strikes is poisoned: a register, the half of an ACC granule, or a word (R47, R59). -/
def poisonStored (pa : Nat) (s : State) : State :=
  match registerAt s pa with
  | some (k, r) => s.modSlot k fun x => x.setReg r { x.reg r with poison := true }
  | none => if inAccGranule s pa then s.setUnitPoison pa true else s.setWordPoison pa true

/-- It is poisoned already. -/
def storedPoisoned (s : State) (pa : Nat) : Bool :=
  match registerAt s pa with
  | some (k, r) => ((s.slot k).reg r).poison
  | none => s.unitPoisoned pa

/-- An uncorrectable error: what it strikes is poisoned, and what is parked there is looked at again (R59). [DEDUCED: log 42] -/
def damageWord (pa : Nat) (s : State) : State :=
  let w := pa / 8
  let s := poisonStored pa s
  let s := s.modModule (pa / 2 ^ 48) fun m => { m with ueCount := m.ueCount + 1 }
  let s := scanWaiters w (s.wordQ w).waiters s
  scanWaiters (w - 1) ((s.wordQ (w - 1)).waiters.filter fun r => match r.op with | .barw _ => true | _ => false) s

/-- The event PATROL_SCRUB of a 4-byte unit (system address / 4): 0 finds nothing, 1 corrects an error and
counts it, 2 finds an uncorrectable one. [DEDUCED: log 42] -/
def execPatrolScrub (unit bad : Nat) (s : State) : Result :=
  .next (
    let pa := unit * 4
    match bad with
    | 0 => s
    | 1 => s.modModule (pa / 2 ^ 48) fun m => { m with ceCounts := m.ceCounts.modify (structureOf pa) fun n => n + 1 }
    | 2 => if storedPoisoned s pa then s else damageWord pa s
    | _ => s)

/-! ## The expert level (R417) -/

/-- A function is enabled at the expert level for a launch's record. -/
def Module.enable (m : Module) (la f : Nat) : Module :=
  { m with expert := if m.expert.contains (la, f) then m.expert else m.expert ++ [(la, f)] }

/-- The event EXPERT_LEVEL_ENABLE of a function for a launch's record: 0 the Parlour, 1 copies, 2 power,
3 the fabric, 4 matrix; 3 + 8 × (1 + k) enables the fabric and pins path entry k (R160). [DEDUCED: log 123; DESIGN CHOICE: log 137] -/
def execExpertLevelEnable (module launch function : Nat) (s : State) : Result :=
  .next (
    let la := launch % 2 ^ 48
    if function ≤ 4 then s.modModule module fun m => m.enable la function
    else if function % 8 = 3 ∧ function / 8 ≤ 4 then
      s.modModule module fun m => { m.enable la 3 with pins := tabPut m.pins la (function / 8 - 1) }
    else s)

end Sys2Proof.Machine
end

