-- ==== Sys2Proof/Machine/ControlSpace.lean ====
section
/-! DEFINITION. Control space (R15, R160, R195, R395, R402, R404, R413, R418): reads and writes of its registers,
RESYNC summaries (R419), and requests that arrive there or at memory. -/

namespace Sys2Proof.Machine

/-! ## RESYNC (R418, R419) -/

/-- The state of a link by its lanes (R165). -/
def linkState (lanes : Nat) : Nat := if lanes = 8 then 0 else if lanes ≥ 4 then 1 else if lanes = 3 then 2 else 3

/-- The launches section: the registry entry with LSTAT in its word at 0x20. -/
def resyncLaunches (s : State) (m : Nat) : List Word :=
  (s.launches.filter fun p => launchModule p.1 == m).flatMap fun p =>
    let at_ (i : Nat) : Nat := sysAddr m ((s.module m).registry + 64 * i)
    let e := (List.range (s.module m).registryLen).find? fun i => (s.word (at_ i)).toNat == p.1 % 2 ^ 48
    (List.range 8).map fun w => if w = 4 then s.word (recordAddr p.1 + 0x38) else match e with
      | some i => s.word (at_ i + 8 * w)
      | none => 0#64

/-- The zones section: a word with the core number above ZSTAT, then ZDESC. -/
def resyncZones (s : State) (m : Nat) : List Word :=
  (s.cores.filter fun p => coreModule p.1 == m).flatMap fun p => (List.range 4).flatMap fun z =>
    let d := tabGet p.2.zdesc z 0#64
    if zdEn d.toNat then [BitVec.ofNat 64 (coreNum p.1 * 2 ^ 48) ||| p.2.zstat z, d] else []

/-- The counters section. -/
def resyncCounters (s : State) (m : Nat) : List Word :=
  let x := s.module m
  let cores := s.cores.filter fun p => coreModule p.1 == m
  ((List.range 4).map (fun i => x.ceCounts.getD i 0) ++
    [x.ueCount, (cores.map fun p => p.2.nacks).sum, (cores.map fun p => p.2.refusals).sum, x.zoneMisuse, x.taskMisuse,
     x.trapsDropped, x.trapsLost]).map (BitVec.ofNat 64)

/-- The sections in order: entry size in bytes, and the words of the entries. [DEDUCED: log 116] -/
def resyncSections (s : State) (m : Nat) : List (Nat × List Word) :=
  let x := s.module m
  let ports := (List.range 48).filter fun p => p != 31
  [(64, resyncLaunches s m),
   (16, (List.range 64).flatMap fun q => [lqStat (tabGet x.queues q {}), (tabGet x.queues q {}).ring]),
   (48, (List.range 4).flatMap fun i =>
      let d := s.die (m * 4 + i)
      [BitVec.ofNat 64 d.tqHead, BitVec.ofNat 64 d.tqTail, tqStat d, d.tqHandler, d.tqBase, d.ctxBase]),
   (16, resyncZones s m),
   (8, ports.map fun p =>
      let l := tabGet x.links p {}
      BitVec.ofNat 64 (p + linkState l.lanes * 2 ^ 8 + l.lanes * 2 ^ 16 + l.retrains % 2 ^ 32 * 2 ^ 32)),
   (8, (List.range 512).map fun c => grantWord s ((m * 512 + c) * 16)),
   (88, resyncCounters s m)]

/-- A section with its descriptor: kind and entry count, then entry size. -/
def sectionWords (kind : Nat) (x : Nat × List Word) : List Word :=
  [BitVec.ofNat 64 (kind + x.2.length * 8 / x.1 * 2 ^ 32), BitVec.ofNat 64 x.1] ++ x.2

/-- The sections that fit whole, in order. [DEDUCED: log 116] -/
def fitSections : Nat → List (List Word) → List Word
  | _, [] => []
  | room, ws :: rest => if ws.length * 8 ≤ room then ws ++ fitSections (room - ws.length * 8) rest else []

/-- The header (R419). -/
def resyncHeader (s : State) (m status needed : Nat) : List Word :=
  let x := s.module m
  let cycle := BitVec.ofNat 64 (s.now - x.bootAt)
  [BitVec.ofNat 64 (status * 2 ^ 62 + needed % 2 ^ 32), BitVec.ofNat 64 m, cycle, cycle, x.version, x.bootRom, 0#64, 0#64]

/-- Write words one by one from an address upward. -/
def writeWords (wr : Writer) : Nat → List Word → State → State
  | _, [], s => s
  | a, w :: ws, s => writeWords wr (a + 8) ws (writeWord wr a w (s.setWordPoison a false))

/-- Write a summary: BUSY and no sections while the module is frozen; the header comes last. [DEDUCED: log 116] -/
def writeResync (m buf room : Nat) (s : State) : State :=
  let a := sysAddr m buf
  let wr := unitWriter m
  if (s.module m).boot = .frozen then writeWords wr a (resyncHeader s m 2 64) s
  else
    let all := (resyncSections s m).mapIdx fun i x => sectionWords (i + 1) x
    let needed := 64 + 8 * (all.map fun ws => ws.length).sum
    let s := writeWords wr (a + 64) (fitSections (room - 64) all) s
    writeWords wr a (resyncHeader s m (if needed ≤ room then 0 else 1) needed) s

/-- A write of RESYNC.CTL that starts a summary whose buffer has a held word: it comes again when the hold has ended (R77).
[DESIGN CHOICE: log 133] -/
def resyncBusy (s : State) (m val : Nat) : Bool :=
  let a := sysAddr m (fld val 12 36 * 4096)
  val % 2 == 1 && s.words.any fun p => p.2.held.isSome && decide (a / 8 ≤ p.1) && decide (p.1 < a / 8 + fld val 48 16 * 512)

/-- A write of RESYNC.CTL by the host or the fabric manager: GO starts a summary, which is written whole in the same step, and GO
then reads 0 (R418). Nothing is written where BUF or LEN leaves no room. [DEDUCED: log 116] -/
def resyncWrite (m val : Nat) (s : State) : State :=
  let buf := fld val 12 36 * 4096
  let room := fld val 48 16 * 4096
  let s := s.modModule m fun x => { x with resync := BitVec.ofNat 64 val &&& 0xFFFFFFFFFFFFF000#64 }
  let there : Bool := match regionOf buf with
    | some .tier2 | some .host => true
    | _ => false
  if val % 2 = 1 ∧ there ∧ room ≠ 0 then writeResync m buf room s else s

/-- The event RESYNC_GO: a module that has not booted has no open link (R408). -/
def execResyncGo (module val : Nat) (s : State) : Result :=
  .next (if answers s module && !resyncBusy s module val then resyncWrite module val s else s)

/-! ## Writes -/

/-- A write at offset 0x08 of the watchdog restarts its count (R404). -/
def restartWatchdog (m : Nat) (s : State) : State := s.modModule m fun x => { x with watchAt := s.now }

/-- The event WATCHDOG_RESTART: the value written does not matter; nothing restarts it in a module that has not booted (R408). -/
def execWatchdogRestart (module val : Nat) (s : State) : Result :=
  .next (match answers s module, val with
    | true, 0 => restartWatchdog module s
    | true, _ + 1 => restartWatchdog module s
    | false, _ => s)

/-- A write of the watchdog; arming starts the count. -/
def writeWatchdog (m val : Nat) (s : State) : State :=
  let w : Word := BitVec.ofNat 64 val &&& 0x800000000000FFFF#64
  s.modModule m fun x => { x with
    watchdog := w, watchAt := if bitOf w.toNat 63 && !bitOf x.watchdog.toNat 63 then s.now else x.watchAt }

/-- The expert level of power is enabled for a launch that runs on the module (R413, R417). -/
def expertPower (s : State) (m : Nat) : Bool :=
  s.launches.any fun p => launchModule p.1 == m && p.2.running && expertFor s m (p.1 % 2 ^ 48) 2

/-- A write of a trap register of a die (R395, R402). -/
def writeTrapRegister (d off val : Nat) (s : State) : State :=
  match off / 8 with
  | 0 => writeTqBase d val s
  | 3 => s.modDie d fun x => { x with tqHandler := BitVec.ofNat 64 val &&& 0xFFE0FFFFFFFFFFFD#64 }
  | 4 => s.modDie d fun x => { x with
      mchk := x.mchk && !bitOf val 63, lost := fld val 16 16, dropped := fld val 0 16 }
  | 16 => s.modDie d fun x => { x with ctxBase := BitVec.ofNat 64 val &&& 0xFFFFFFFF0000#64 }
  | _ => s

/-- A write of an 8-byte register of a module's control space. A read-only register, or what no register is,
keeps its value. [DEDUCED: log 117] -/
def controlWrite (m va val : Nat) (s : State) : State :=
  let off := va - 0xF0000000000
  if off < 0x800 then
    match off % 32 / 8 with
    | 0 => lqDoor m (off / 32) val s
    | 1 => if bitOf val 31 then
        s.modModule m fun x => { x with queues := tabMod x.queues (off / 32) {} fun q => { q with ovf := false } }
      else s
    | 2 => lqRing m (off / 32) val s
    | _ => s
  else if 0x100000 ≤ off ∧ off < 0x140000 then
    s.modModule m fun x => { x with paths := tabPut x.paths ((off - 0x100000) / 8) (BitVec.ofNat 64 val &&& 0xC000007FFFFFFFFF#64) }
  else if 0x200000 ≤ off ∧ off < 0x200400 then writeTrapRegister (m * 4 + (off - 0x200000) / 256) (off % 256) val s
  else if off = 0x300000 then writeWatchdog m val s
  else if off = 0x300008 then restartWatchdog m s
  else if 0x500000 ≤ off ∧ off < 0x500020 then
    s.modDie (m * 4 + (off - 0x500000) / 8) fun x => { x with dcap := BitVec.ofNat 64 (fld val 0 18) }
  else if 0x501000 ≤ off ∧ off < 0x502000 then
    let pin := expertPower s m && bitOf val 16
    s.modCluster (m * 512 + (off - 0x501000) / 8) fun x => { x with ccap := BitVec.ofNat 64 (bitField pin * 65536 + fld val 0 16) }
  else s

/-- The address of RESYNC.CTL (R418). -/
def resyncCtl : Nat := 0xF0000400000

/-- A write of a register by the host or the fabric manager, which alone reach RESYNC.CTL (R418). -/
def hostWrite (m va val : Nat) (s : State) : State := if va = resyncCtl then resyncWrite m val s else controlWrite m va val s

/-- The event CONTROL_REGISTER_WRITE: a write of a register over an open link; `addr` is its system address (R15, R408). -/
def execControlRegisterWrite (addr val : Nat) (s : State) : Result :=
  .next (
    if regionOf (addr % 2 ^ 48) ≠ some .control ∨ addr % 8 ≠ 0 ∨ !answers s (addr / 2 ^ 48) then s
    else if addr % 2 ^ 48 = resyncCtl ∧ resyncBusy s (addr / 2 ^ 48) (val % 2 ^ 64) then s
    else hostWrite (addr / 2 ^ 48) (addr % 2 ^ 48) (val % 2 ^ 64) s)

/-! ## Requests (R15, R65, R99) -/

/-- A register as the host reads it (R418). -/
def hostRead (s : State) (m va : Nat) : Word := if va = resyncCtl then (s.module m).resync else controlRead s m va

/-- `n` bytes of control space, as a number. -/
def controlBytes (s : State) (m va n : Nat) : Nat :=
  let lo := (controlRead s m (va / 8 * 8)).toNat
  let hi := (controlRead s m (va / 8 * 8 + 8)).toNat
  (lo + hi * 2 ^ 64) / 2 ^ (8 * (va % 8)) % 2 ^ (8 * n)

/-- A store of `n` bytes in control space: the register's other bytes keep what they read. [DEDUCED: log 117] -/
def controlStore (m va n : Nat) (v hi : Word) (s : State) : State :=
  if n = 16 then controlWrite m (va + 8) hi.toNat (controlWrite m va v.toNat s)
  else
    let old := (controlRead s m (va / 8 * 8)).toNat
    let sh := 2 ^ (8 * (va % 8))
    let part := old / sh % 2 ^ (8 * n)
    controlWrite m (va / 8 * 8) (old - part * sh + v.toNat % 2 ^ (8 * n) * sh) s

/-- A register after a store of up to 8 bytes by an outside master. -/
def hostValue (s : State) (m va n : Nat) (v : Word) : Nat :=
  let old := (hostRead s m (va / 8 * 8)).toNat
  let sh := 2 ^ (8 * (va % 8))
  let part := old / sh % 2 ^ (8 * n)
  old - part * sh + v.toNat % 2 ^ (8 * n) * sh

/-- A store of up to 8 bytes by an outside master. -/
def hostStore (m va n : Nat) (v : Word) (s : State) : State := hostWrite m (va / 8 * 8) (hostValue s m va n v) s

/-- A request is such a store to RESYNC.CTL that must come again. -/
def hostBusy (s : State) (r : Req) : Bool :=
  match r.src, r.op with
  | .outside _, .store n v _ _ =>
    r.pa % 2 ^ 48 / 8 * 8 == resyncCtl && resyncBusy s (r.pa / 2 ^ 48) (hostValue s (r.pa / 2 ^ 48) (r.pa % 2 ^ 48) n v)
  | _, _ => false

/-- A request arrives at control space: loads and stores only (R15, R54). [DEDUCED: log 41] -/
def controlReq (r : Req) (s : State) : State :=
  let m := r.pa / 2 ^ 48
  let va := r.pa % 2 ^ 48
  match r.op with
  | .load n _ =>
    let x := controlBytes s m va n
    answer r (.value (BitVec.ofNat 64 (x % 2 ^ 64)) (BitVec.ofNat 64 (x / 2 ^ 64)) false) s
  | .store n v hi _ => answer r .ack (match r.src with
    | .outside _ => hostStore m va n v s
    | _ => controlStore m va n v hi s)
  | _ => answer r .ack s

/-- The event MEMORY_REQUEST_ARRIVAL (R99). -/
def execMemoryRequestArrival (msg : Nat) (s : State) : Result :=
  .next (match tabFind s.net msg with
    | some (.req r) =>
      if regionOf (r.pa % 2 ^ 48) = some .control then (if hostBusy s r then s else controlReq r (s.drop msg)) else takeReq msg s
    | _ => s)

/-- The event MEMORY_REPLY_ARRIVAL (R65): a reply, grant or acknowledgement reaches who asked. -/
def execMemoryReplyArrival (msg : Nat) (s : State) : Result :=
  .next (match tabFind s.net msg with
    | some (.reply src inst part pa a) =>
      let s := s.drop msg
      match src with
      | .slot k id =>
        match s.acc? k id with
        | some x =>
          if x.st = .sent ∨ x.st = .refused ∨ x.st = .unready then replyAcc k x part pa a s else orphanReply k id inst pa a s
        | none => orphanReply k id inst pa a s
      | .refill c _ => refillReply c inst pa a s
      | .copy _ | .agent _ | .outside _ | .fetch _ | .node _ _ | .msg _ | .unit _ => s
    | _ => s)

end Sys2Proof.Machine
end

