-- ==== Sys2Proof/Machine/Signature.lean ====
section
/-! DEFINITION. The hash and the signatures of a boot image (R410), as the standards that the rule names give them: SHA-2
(FIPS 180-4), RSASSA-PSS with MGF1 (PKCS #1 v2.2) and SLH-DSA-SHA2-192s (FIPS 205). [PRESUMED: log 120] -/

namespace Sys2Proof.Machine

/-! ## Numbers and bytes -/

/-- A number as `n` bytes, most significant first. -/
def bigBytes (n v : Nat) : List Byte := (natBytes n v).reverse
/-- The number that some bytes are, most significant first. -/
def bigNat (bs : List Byte) : Nat := leNat bs.reverse
/-- The exclusive or of two byte strings. -/
def xorBytes (a b : List Byte) : List Byte := a.zipWith (fun x y => x ^^^ y) b
/-- Pieces of `n` bytes, `count` of them. -/
def pieces (n : Nat) : Nat → List Byte → List (List Byte)
  | 0, _ => []
  | count + 1, bs => bs.take n :: pieces n count (bs.drop n)

/-! ## SHA-2 (FIPS 180-4) -/

/-- The first eighty primes. -/
def primes : List Nat :=
  (List.range 410).filter fun p => decide (2 ≤ p) && (List.range 21).all fun d => decide (d < 2) || p == d || p % d != 0

/-- The integer `k`-th root of a number, below 2 to the power of the bits left, found from its highest bit. -/
def iroot (k n : Nat) : Nat → Nat → Nat
  | 0, x => x
  | b + 1, x => iroot k n b (if (x + 2 ^ b) ^ k ≤ n then x + 2 ^ b else x)

/-- The first `w` bits of the fractional part of the `k`-th root of a prime. -/
def rootBits (w k p : Nat) : BitVec w := BitVec.ofNat w (iroot k (p * 2 ^ (k * w)) (w + 5) 0)

/-- What tells the hash functions of the family apart: the rotations of Σ0 and Σ1, the rotations and the shift of σ0 and σ1, and
the constant of each round. -/
structure Sha (w : Nat) where
  big0 : Nat × Nat × Nat
  big1 : Nat × Nat × Nat
  small0 : Nat × Nat × Nat
  small1 : Nat × Nat × Nat
  rounds : List (BitVec w)

/-- Σ: three rotations. -/
def rot3 {w : Nat} (r : Nat × Nat × Nat) (x : BitVec w) : BitVec w :=
  x.rotateRight r.1 ^^^ x.rotateRight r.2.1 ^^^ x.rotateRight r.2.2

/-- σ: two rotations and a shift. -/
def rot2 {w : Nat} (r : Nat × Nat × Nat) (x : BitVec w) : BitVec w :=
  x.rotateRight r.1 ^^^ x.rotateRight r.2.1 ^^^ (x >>> r.2.2)

/-- The message schedule, the newest word first: `n` more words. -/
def schedule {w : Nat} (p : Sha w) : Nat → List (BitVec w) → List (BitVec w)
  | 0, ws => ws
  | n + 1, ws =>
    schedule p n ((rot2 p.small1 (ws.getD 1 0) + ws.getD 6 0 + rot2 p.small0 (ws.getD 14 0) + ws.getD 15 0) :: ws)

/-- One round, of the eight working variables a to h. -/
def shaRound {w : Nat} (p : Sha w) (v : List (BitVec w)) (kw : BitVec w × BitVec w) : List (BitVec w) :=
  match v with
  | [a, b, c, d, e, f, g, h] =>
    let t1 := h + rot3 p.big1 e + ((e &&& f) ^^^ (~~~e &&& g)) + kw.1 + kw.2
    let t2 := rot3 p.big0 a + ((a &&& b) ^^^ (a &&& c) ^^^ (b &&& c))
    [t1 + t2, a, b, c, d + t1, e, f, g]
  | _ => v

/-- The hash value after one block of sixteen words. -/
def shaBlock {w : Nat} (p : Sha w) (h : List (BitVec w)) (block : List Byte) : List (BitVec w) :=
  let ws := (pieces (w / 8) 16 block).map fun b => BitVec.ofNat w (bigNat b)
  let sched := (schedule p (p.rounds.length - 16) ws.reverse).reverse
  h.zipWith (fun x y => x + y) ((p.rounds.zip sched).foldl (shaRound p) h)

/-- The padded message: a 1 bit, zeros, and the length in bits in two words. -/
def shaPad (w : Nat) (bs : List Byte) : List Byte :=
  let block := 2 * w
  let zeros := (block - (bs.length + 1 + w / 4) % block) % block
  bs ++ 0x80#8 :: List.replicate zeros 0#8 ++ bigBytes (w / 4) (8 * bs.length)

/-- The digest of a message, all its words. -/
def shaDigest {w : Nat} (p : Sha w) (init : List (BitVec w)) (bs : List Byte) : List Byte :=
  let m := shaPad w bs
  ((pieces (2 * w) (m.length / (2 * w)) m).foldl (shaBlock p) init).flatMap fun x => bigBytes (w / 8) x.toNat

/-- The functions on 32-bit words. -/
def sha32 : Sha 32 :=
  { big0 := (2, 13, 22), big1 := (6, 11, 25), small0 := (7, 18, 3), small1 := (17, 19, 10)
    rounds := (primes.take 64).map (rootBits 32 3) }

/-- The functions on 64-bit words. -/
def sha64 : Sha 64 :=
  { big0 := (28, 34, 39), big1 := (14, 18, 41), small0 := (1, 8, 7), small1 := (19, 61, 6)
    rounds := primes.map (rootBits 64 3) }

/-- The initial hash values: square roots of eight primes. -/
def shaInit (w skip : Nat) : List (BitVec w) := ((primes.drop skip).take 8).map (rootBits w 2)

/-- The initial value of SHA-256. -/
def init256 : List (BitVec 32) := shaInit 32 0
/-- The initial value of SHA-512. -/
def init512 : List (BitVec 64) := shaInit 64 0
/-- The initial value of SHA-384. -/
def init384 : List (BitVec 64) := shaInit 64 8

/-- SHA-256. -/
def sha256 (bs : List Byte) : List Byte := shaDigest sha32 init256 bs
/-- SHA-512. -/
def sha512 (bs : List Byte) : List Byte := shaDigest sha64 init512 bs
/-- SHA-384. -/
def sha384 (bs : List Byte) : List Byte := (shaDigest sha64 init384 bs).take 48

/-- MGF1: `n` bytes from a seed and a hash function with digests of `h` bytes. -/
def mgf1 (hash : List Byte → List Byte) (h : Nat) (seed : List Byte) (n : Nat) : List Byte :=
  ((List.range ((n + h - 1) / h)).flatMap fun i => hash (seed ++ bigBytes 4 i)).take n

/-! ## RSASSA-PSS with SHA-384 (PKCS #1 v2.2) -/

/-- `b` to the power 2^k, modulo n. -/
def squares (n : Nat) : Nat → Nat → Nat
  | 0, b => b % n
  | k + 1, b => squares n k (b * b % n)

/-- EMSA-PSS-VERIFY of an encoded message of 384 bytes, 3,071 bits, with a salt of 48 bytes. -/
def pssVerifies (msg em : List Byte) : Bool :=
  let masked := em.take 335
  let h := (em.drop 335).take 48
  let db := xorBytes masked (mgf1 sha384 48 h 335)
  let db := (db.headD 0#8 &&& 0x7F#8) :: db.drop 1
  let salt := db.drop 287
  em.drop 383 == [0xBC#8] && masked.headD 0#8 &&& 0x80#8 == 0#8 && db.take 286 == List.replicate 286 0#8 &&
    (db.drop 286).take 1 == [0x01#8] && sha384 (List.replicate 8 0#8 ++ sha384 msg ++ salt) == h

/-- RSASSA-PSS-VERIFY with RSA-3072 and the exponent 65,537. The modulus and the signature are little-endian numbers, as all
fields of an image are (R409). -/
def rsaVerifies (msg key sig : List Byte) : Bool :=
  let n := leNat key
  let s := leNat sig
  decide (s < n) && pssVerifies msg (bigBytes 384 (squares n 16 s * s % n))

/-! ## SLH-DSA-SHA2-192s (FIPS 205) -/

/-- The bytes of a hash value: n. -/
def slhN : Nat := 24

/-- The address of a hash call, as its compressed form holds it: layer, tree, type, and the three words that follow. -/
structure Adrs where
  layer : Nat := 0
  tree : Nat := 0
  type : Nat := 0
  word1 : Nat := 0
  word2 : Nat := 0
  word3 : Nat := 0
  deriving DecidableEq, Repr, Inhabited

/-- The compressed form, of 22 bytes. -/
def Adrs.bytes (a : Adrs) : List Byte :=
  bigBytes 1 a.layer ++ bigBytes 8 a.tree ++ bigBytes 1 a.type ++ bigBytes 4 a.word1 ++ bigBytes 4 a.word2 ++ bigBytes 4 a.word3

/-- F, with SHA-256. -/
def slhF (seed : List Byte) (a : Adrs) (m : List Byte) : List Byte :=
  (sha256 (seed ++ List.replicate (64 - slhN) 0#8 ++ a.bytes ++ m)).take slhN

/-- H and T, with SHA-512. -/
def slhH (seed : List Byte) (a : Adrs) (m : List Byte) : List Byte :=
  (sha512 (seed ++ List.replicate (128 - slhN) 0#8 ++ a.bytes ++ m)).take slhN

/-- The digest of a message, of 39 bytes: Hmsg. -/
def slhMsg (r seed root msg : List Byte) : List Byte :=
  mgf1 sha512 64 (r ++ seed ++ sha512 (r ++ seed ++ root ++ msg)) 39

/-- `n` digits of `b` bits each, from the most significant bit of some bytes on. -/
def digits (b n : Nat) (bs : List Byte) : List Nat :=
  (List.range n).map fun i => bigNat bs / 2 ^ (8 * bs.length - b * (i + 1)) % 2 ^ b

/-- A node of a tree from the one below it and the node beside that, at a height; `word2` of an address is the height, `word3`
the index. -/
def climb (seed : List Byte) (a : Adrs) (i : Nat) (node : List Byte) (x : Nat × List Byte) : List Byte :=
  let a := { a with word2 := x.1 + 1, word3 := i / 2 ^ (x.1 + 1) }
  slhH seed a (if i / 2 ^ x.1 % 2 = 0 then node ++ x.2 else x.2 ++ node)

/-- The root of a tree from a leaf, its index and its authentication path. -/
def treeRoot (seed : List Byte) (a : Adrs) (i : Nat) (leaf : List Byte) (path : List (List Byte)) : List Byte :=
  (path.zipIdx.map fun p => (p.2, p.1)).foldl (climb seed a i) leaf

/-- A chain of hashes from position `i`, of `s` steps. -/
def chain (seed : List Byte) (a : Adrs) : Nat → Nat → List Byte → List Byte
  | 0, _, x => x
  | s + 1, i, x => chain seed a s (i + 1) (slhF seed { a with word3 := i } x)

/-- The WOTS+ public key that a signature of 51 values gives, for a key pair. -/
def wotsKey (seed : List Byte) (a : Adrs) (pair : Nat) (sig : List (List Byte)) (m : List Byte) : List Byte :=
  let ds := digits 4 48 m
  let csum := (ds.map fun d => 15 - d).sum * 16
  let all := ds ++ digits 4 3 (bigBytes 2 csum)
  let ends := (sig.zip all).zipIdx.map fun x =>
    chain seed { a with type := 0, word1 := pair, word2 := x.2, word3 := 0 } (15 - x.1.2) x.1.2 x.1.1
  slhH seed { a with type := 1, word1 := pair, word2 := 0, word3 := 0 } ends.flatten

/-- The XMSS root that a signature gives: 51 values of WOTS+ and a path of 9. -/
def xmssRoot (seed : List Byte) (a : Adrs) (leaf : Nat) (sig : List (List Byte)) (m : List Byte) : List Byte :=
  treeRoot seed { a with type := 2, word1 := 0 } leaf (wotsKey seed a leaf (sig.take 51) m) (sig.drop 51)

/-- The root of the hypertree, from the layer `j` on. -/
def hyperRoot (seed : List Byte) : Nat → Nat → Nat → Nat → List (List Byte) → List Byte → List Byte
  | 0, _, _, _, _, m => m
  | n + 1, j, tree, leaf, sig, m =>
    hyperRoot seed n (j + 1) (tree / 2 ^ 9) (tree % 2 ^ 9) (sig.drop 60)
      (xmssRoot seed { layer := j, tree := tree } leaf (sig.take 60) m)

/-- The FORS public key that a signature gives: 17 trees of height 14. -/
def forsKey (seed : List Byte) (a : Adrs) (sig : List (List Byte)) (md : List Byte) : List Byte :=
  let roots := (digits 14 17 md).zipIdx.map fun x =>
    let i := x.2 * 2 ^ 14 + x.1
    let mine := (sig.drop (15 * x.2)).take 15
    treeRoot seed a i (slhF seed { a with word2 := 0, word3 := i } (mine.headD [])) (mine.drop 1)
  slhH seed { a with type := 4, word2 := 0, word3 := 0 } roots.flatten

/-- slh_verify with an empty context string. -/
def slhVerifies (msg key sig : List Byte) : Bool :=
  let seed := key.take slhN
  let root := key.drop slhN
  let values := pieces slhN 676 sig
  let digest := slhMsg (values.headD []) seed root (0#8 :: 0#8 :: msg)
  let tree := bigNat ((digest.drop 30).take 7) % 2 ^ 54
  let leaf := bigNat (digest.drop 37) % 2 ^ 9
  let fors := forsKey seed { tree := tree, type := 3, word1 := leaf } ((values.drop 1).take 255) (digest.take 30)
  hyperRoot seed 7 0 tree leaf (values.drop 256) fors == root

end Sys2Proof.Machine
end

