-- ==== Sys2Proof/Machine/Boot.lean ====
section
/-! DEFINITION. Boot, freeze, warm reboot, re-adoption and lost modules (R48, R168, R199, R212, R404 to R411). -/

namespace Sys2Proof.Machine

/-! ## Images (R409, R410) -/

/-- The system address at which a module's image stands: a tier-2 offset. -/
def imageAddr (s : State) (m : Nat) : Nat := sysAddr m (0x20000000000 + (s.module m).load)

/-- A word of the image. -/
def imageWord (s : State) (m off : Nat) : Nat := (s.word (imageAddr s m + off)).toNat
/-- PAYLEN. -/
def imagePaylen (s : State) (m : Nat) : Nat := imageWord s m 0x10

/-- The header is that of an image which stands where its LOAD says (R409). [DEDUCED: log 119] -/
def imageLaidOut (s : State) (m : Nat) : Bool :=
  imageWord s m 0 == 0x56434838494D4731 && decide (1 ≤ imagePaylen s m) && decide (imagePaylen s m ≤ 2 ^ 30) &&
    imageWord s m 0x18 == (s.module m).load && imageWord s m 0x18 % 65536 == 0 && imageWord s m 0x28 % 2 ^ 30 == 0

/-- The image passes (R410): the key hashes, both signatures, and no reserved byte set. A fuse holds its digest as a number, the
first byte the most significant. [DEDUCED: log 120] -/
def imageVerified (s : State) (m : Nat) : Bool :=
  let a := imageAddr s m
  let n := imagePaylen s m
  let key := s.bytesAt (a + 0x40) 384
  let slh := s.bytesAt (a + 0x1C0) 48
  let msg := s.bytesAt a (0x1F0 + n)
  imageLaidOut s m && imageWord s m 0x30 == 0 && imageWord s m 0x38 == 0 &&
    bigNat (sha384 key) == (s.module m).keyHash0 && bigNat (sha384 slh) == (s.module m).keyHash1 &&
    rsaVerifies msg key (s.bytesAt (a + 0x1F0 + n) 384) && slhVerifies msg slh (s.bytesAt (a + 0x370 + n) 16224)

/-- The rollback number is not below the fused floor (R408). -/
def imageFresh (s : State) (m : Nat) : Bool := decide ((s.module m).rollback ≤ fld (imageWord s m 8) 32 32)

/-! ## Cold boot (R48, R408, R439) -/

/-- Stage 1 writes every global bank word 0 and full. -/
def zeroBanks (m : Nat) (s : State) : State := s.zeroFull (sysAddr m 0x10000000000) (sysAddr m 0x10010000000)

/-- The capacities that stage 2 records: at most 2 TiB each. [DEDUCED: log 119] -/
def recordCapacities (m : Nat) (s : State) : State :=
  s.modModule m fun x => { x with cxlCap := x.cxlAttached.map fun (p : Nat × Nat) => (p.1, min p.2 (2 ^ 41)) }

/-- LOAD of the image that the boot server transfers. -/
def offeredLoad (bs : List Byte) : Nat := leNat ((bs.drop 0x18).take 8)

/-- The transfer succeeds: a header comes, and the image has its place in tier-2 memory at LOAD. [DEDUCED: log 119] -/
def transferred (bs : List Byte) : Bool := decide (0x1F0 ≤ bs.length) && decide (offeredLoad bs + bs.length ≤ 2 ^ 41)

/-- Stage 4 writes the image into tier-2 memory at LOAD (R408, R409). -/
def fetchImage (m : Nat) (s : State) : State :=
  let bs := (s.module m).bootImage
  let s := s.modModule m fun x => { x with load := offeredLoad bs }
  overAll (fun w s => s.setWordPoison (8 * w) false) (wordsOf (imageAddr s m) bs.length) (s.putBytes (imageAddr s m) bs)

/-- The control cores enter at ENTRY, an offset in the payload (R408, R409, R411). -/
def enterImage (m : Nat) (s : State) : State :=
  let at_ := imageAddr s m % 2 ^ 48 + 0x1F0 + imageWord s m 0x20
  let version := BitVec.ofNat 64 (imageWord s m 8)
  s.modModule m fun x => { x with entered := at_, version := version }

/-- A stage fails (R408). [DEDUCED: log 119] -/
def stageFails (s : State) (m n : Nat) : Bool :=
  (s.module m).bootFaults.contains n || (n == 4 && !transferred (s.module m).bootImage) || (n == 5 && !imageVerified s m) ||
    (n == 6 && !imageFresh s m)

/-- The stages of a cold boot, from stage `n` on, `fuel` of them. [DEDUCED: log 119] -/
def bootStages (m : Nat) : Nat → Nat → State → State
  | 0, _, s => s
  | fuel + 1, n, s =>
    if stageFails s m n then s.modModule m fun x => { x with boot := .failed n }
    else
      let s := match n with
        | 1 => zeroBanks m s
        | 2 => recordCapacities m s
        | 4 => fetchImage m s
        | 7 => (enterImage m s).modModule m fun x => { x with
            boot := .running, bootAt := s.now, hwBase := imageWord s m 0x28, watchAt := s.now }
        | _ => s
      bootStages m fuel (n + 1) s

/-- The event COLD_BOOT of a populated module that does not run. -/
def execColdBoot (module : Nat) (s : State) : Result :=
  .next (
    let off := match (s.module module).boot with
      | .off | .failed _ => true
      | .running | .frozen => false
    if (s.module module).populated && off then bootStages module 7 1 s else s)

/-! ## Freeze (R404, R405) -/

/-- Every program slot of a module stands at a block boundary. -/
def slotsParked (s : State) (m : Nat) : Bool :=
  s.slots.all fun p => slotModule p.1 != m || systemSlot p.1 || p.2.inst.isNone

/-- The module freezes: instances of program slots that have not completed are discarded; the others commit
first. [DEDUCED: log 121] -/
def freeze (m : Nat) (s : State) : State :=
  if (s.module m).boot ≠ .running then s
  else
    let s := s.modModule m fun x => { x with boot := .frozen, frozenAt := s.now, rebooted := false }
    overAll (fun (p : Nat × Slot) s =>
      if slotModule p.1 = m ∧ !systemSlot p.1 then
        match p.2.inst with
        | some i => if i.complete then s else discardInst p.1 s
        | none => s
      else s) s.slots s

/-- The timeout of the watchdog in cycles (R404). [DEDUCED: log 75] -/
def watchdogCycles (x : Module) : Nat := max 10 (fld x.watchdog.toNat 0 16) * 4000000

/-- The event WATCHDOG_EXPIRY. -/
def execWatchdogExpiry (module : Nat) (s : State) : Result :=
  .next (
    let x := s.module module
    if bitOf x.watchdog.toNat 63 && decide (x.watchAt + watchdogCycles x ≤ s.now) then freeze module s else s)

/-- The event KERNEL_CRASH_REPORT. -/
def execKernelCrashReport (module : Nat) (s : State) : Result := .next (freeze module s)

/-- The event FROZEN_ANNOUNCEMENT of a module at a peer, once every program slot is parked. -/
def execFrozenAnnouncement (module peer : Nat) (s : State) : Result :=
  .next (
    if (s.module module).boot = .frozen ∧ slotsParked s module ∧ module ≠ peer ∧ delivers s module peer ∧
        (tabFind (s.module peer).frozenPeers module).isNone then
      s.modModule peer fun x => { x with frozenPeers := tabPut x.frozenPeers module s.now }
    else s)

/-- The event THAWED_ANNOUNCEMENT. -/
def execThawedAnnouncement (module peer : Nat) (s : State) : Result :=
  .next (
    if (s.module module).boot = .running ∧ delivers s module peer then
      s.modModule peer fun x => { x with frozenPeers := tabDel x.frozenPeers module }
    else s)

/-! ## Warm reboot and re-adoption (R406, R407, R411) -/

/-- The image at LOAD is the one that boot has put there: a write has changed none of its bytes (R411). [DEDUCED: log 119] -/
def imageStands (s : State) (m : Nat) : Bool :=
  s.bytesAt (imageAddr s m) (s.module m).bootImage.length == (s.module m).bootImage

/-- The event WARM_REBOOT: the image that stands at LOAD is verified again, and the control cores enter it; otherwise the module
stays frozen (R406, R411). -/
def execWarmReboot (module : Nat) (s : State) : Result :=
  .next (
    if (s.module module).boot = .frozen ∧ slotsParked s module ∧ imageStands s module ∧ imageVerified s module ∧
        imageFresh s module then
      (enterImage module s).modModule module fun x => { x with rebooted := true }
    else s)

/-- A registry entry passes the check of R389. -/
def entrySealed (s : State) (a : Nat) : Bool := s.word (a + 56) == keyChecksum s a

/-- A launch is re-adopted: an entry that names it is sealed, and its ASID and cores are the hardware's. -/
def reAdopted (s : State) (la : Nat) (l : Launch) : Bool :=
  let m := launchModule la
  (List.range (s.module m).registryLen).any fun i =>
    let a := sysAddr m ((s.module m).registry + 64 * i)
    let w := (s.word (a + 24)).toNat
    let cores := (List.range (fld w 16 13)).map fun j => m * 8192 + fld w 0 13 + j
    (s.word a).toNat == la % 2 ^ 48 && entrySealed s a && cores == l.cores.foldl setIns [] &&
      cores.all fun c => (s.core c).xlatAsid.toNat == fld (s.word (a + 16)).toNat 0 16

/-- A saved context of a killed launch is gone: its barriers and phases break. -/
def killContext (cl e : Nat) (sl : Slot) (s : State) : State :=
  let key := contextKey cl e
  let s := overAll (fun (x : Member) s => arriveBarrier { src := .slot sl.savedFrom 0, op := .breakBar, pa := x.addr } s) sl.members s
  let s := s.modCluster cl fun x => { x with contexts := tabDel x.contexts e }
  orphanChildren key (leaveParent sl.parent (breakPhases key s))

/-- A part of a launch is killed: its slots are halted as by HALTS, and its tasks are gone (R407). -/
def killLaunch (la : Nat) (s : State) : State :=
  let s := s.modLaunch la fun l => { l with killed := true, colourTasks := [] }
  let s := overAll (fun (p : Nat × Slot) s => if p.2.launch = la ∧ !systemSlot p.1 ∧ hasThread p.2 then killThread p.1 s else s) s.slots s
  let s := overAll (fun (p : Nat × Cluster) s =>
    overAll (fun (q : Nat × Slot) s => if q.2.launch = la then killContext p.1 q.1 q.2 s else s) p.2.contexts s) s.clusters s
  { s with clusters := s.clusters.map fun (p : Nat × Cluster) =>
      (p.1, { p.2 with list := p.2.list.filter fun (q : Nat × ListEntry) => q.2.launch != la }) }

/-- The timers that the freeze has stopped go on where they stood (R405, R407). [DEDUCED: log 50, 121] -/
def resumeTimers (m pause : Nat) (s : State) : State :=
  { s with
    slots := s.slots.map fun (p : Nat × Slot) =>
      if slotModule p.1 = m then
        (p.1, { p.2 with
          task := p.2.task.map fun t => { t with start := t.start + pause }
          inst := p.2.inst.map fun i => { i with firstGrant := i.firstGrant.map fun t => t + pause } })
      else p
    cores := s.cores.map fun (p : Nat × Core) =>
      if coreModule p.1 = m then (p.1, { p.2 with claim := p.2.claim.map fun c => (c.1, c.2 + pause) }) else p }

/-- The event RE_ADOPTION: launches are re-adopted or killed, and the module thaws. -/
def execReAdoption (module : Nat) (s : State) : Result :=
  .next (
    let x := s.module module
    if x.boot = .frozen ∧ x.rebooted then
      let s := overAll (fun (p : Nat × Launch) s =>
        if launchModule p.1 = module ∧ p.2.running ∧ !reAdopted s p.1 p.2 then killLaunch p.1 s else s) s.launches s
      let s := resumeTimers module (s.now - x.frozenAt) s
      s.modModule module fun y => { y with boot := .running, rebooted := false, watchAt := s.now }
    else s)

/-! ## Lost modules (R168, R199, R212) -/

/-- A request comes from a slot of a module. -/
def Req.fromModule (r : Req) (m : Nat) : Bool :=
  match r.src with
  | .slot k _ | .fetch k | .node k _ => slotModule k == m
  | .refill c _ | .agent c => coreModule c == m
  | .copy _ | .msg _ | .unit _ => false
  | .outside x => x == m

/-- A point of coherence releases a lost module's hold unchanged, and cancels its requests (R109, R168).
[DEDUCED: log 122] -/
def forgetModule (m w : Nat) (s : State) : State :=
  let q := s.wordQ w
  let held := match q.held with
    | some (k, _, _) => slotModule k == m
    | none => false
  let q' := { q with held := if held then none else q.held, queue := q.queue.filter fun r => !r.fromModule m
                     waiters := q.waiters.filter fun r => !r.fromModule m }
  let s := s.setWordQ w q'
  if held then serveQueue w (q'.queue.length + 1) s else s

/-- Every agent outside the lost module releases the shared holds that the module held (R212). [DEDUCED: log 122] -/
def forgetHolds (m : Nat) (s : State) : State :=
  overAll (fun (p : Nat × Core) s =>
    if coreModule p.1 = m then s
    else
      let s := overAll (fun (x : Nat × Nat) s => if x.2 = m then dropStall x.1 false s else s) p.2.lent s
      s.modCore p.1 fun c => { c with lent := c.lent.filter fun x => x.2 != m }) s.cores s

/-- Zone slots that a sender of the lost module has reserved or is filling are poisoned, where no hold stands in the way; the
others follow by their own event (R149). [DEDUCED: log 67] -/
def forgetZones (m : Nat) (s : State) : State :=
  overAll (fun (p : Nat × Core) s => overAll (fun (q : Nat × ZoneSlot) s =>
    if slotModule q.2.sender = m ∧ (q.2.st = .reserved ∨ q.2.st = .filling) ∧ coreModule p.1 ≠ m ∧
        (zoneBusy s (zoneParty (4 * p.1 + q.1 / 16) (q.1 % 16)) q.2).isNone then
      poisonSlot p.1 (q.1 / 16) (q.1 % 16) q.2 s
    else s) p.2.zslots s) s.cores s

/-- A launch of which the lost module is a part: an answer that is still to come is a refusal, a report that
is still to come says that the part was killed (R199). [DEDUCED: log 122] -/
def forgetLaunches (m peer : Nat) (s : State) : State :=
  overAll (fun (p : Nat × Launch) s =>
    if launchModule p.1 ≠ peer ∨ p.2.origin ≠ peer then s
    else if p.2.awaiting.contains m then answerLaunch p.1 m 7 s
    else if p.2.reports.contains m then reportPart p.1 m 0 true s
    else s) s.launches s

/-- The event MODULE_DECLARED_LOST: a peer declares a module lost when THAWED does not follow within 2 s.
[DEDUCED: log 122] -/
def execModuleDeclaredLost (module peer : Nat) (s : State) : Result :=
  .next (match tabFind (s.module peer).frozenPeers module with
    | none => s
    | some t =>
      if s.now < t + 8000000000 then s
      else
        let s := s.modModule peer fun x => { x with
          frozenPeers := tabDel x.frozenPeers module
          lostModules := if x.lostModules.contains module then x.lostModules else x.lostModules ++ [module] }
        let s := overAll (forgetModule module) (s.words.map fun p => p.1) s
        forgetLaunches module peer (forgetZones module (forgetHolds module s)))

end Sys2Proof.Machine
end

