-- ==== Sys2Proof/Machine/Float.lean ====
section
/-! DEFINITION. The meanings of opcodes 0x40 to 0x57: floating point (R312 to R319). -/

namespace Sys2Proof.Machine

/-- FADD (R314). -/
def execFadd (p : Pred) (t : Tgt) (u : Tgt) (f : FForm) (r : FMode) (s : State) : Result :=
  .next (floatShell (.fadd p t u f r) (fun m l x _ => faddOp f (m r) l x) s)

/-- FSUB (R314). -/
def execFsub (p : Pred) (t : Tgt) (u : Tgt) (f : FForm) (r : FMode) (s : State) : Result :=
  .next (floatShell (.fsub p t u f r) (fun m l x _ => fsubOp f (m r) l x) s)

/-- FMUL (R314). -/
def execFmul (p : Pred) (t : Tgt) (u : Tgt) (f : FForm) (r : FMode) (s : State) : Result :=
  .next (floatShell (.fmul p t u f r) (fun m l x _ => fmulOp f (m r) l x) s)

/-- FFMA (R314). -/
def execFfma (t : Tgt) (u : Tgt) (f : FForm) (r : FMode) (s : State) : Result :=
  .next (floatShell (.ffma t u f r) (fun m => ffmaOp f (m r)) s)

/-- FMIN (R314). -/
def execFmin (p : Pred) (t : Tgt) (u : Tgt) (f : FForm) (s : State) : Result :=
  .next (floatShell (.fmin p t u f) (fun _ l x _ => fminOp f l x) s)

/-- FMAX (R314). -/
def execFmax (p : Pred) (t : Tgt) (u : Tgt) (f : FForm) (s : State) : Result :=
  .next (floatShell (.fmax p t u f) (fun _ l x _ => fmaxOp f l x) s)

/-- FSGN (R314). -/
def execFsgn (p : Pred) (t : Tgt) (u : Tgt) (f : FForm) (o : SgnOp) (s : State) : Result :=
  .next (floatShell (.fsgn p t u f o) (fun _ l x _ => fsgnOp f o l x) s)

/-- FCMP (R287). -/
def execFcmp (p : Pred) (t : Tgt) (u : Tgt) (f : FForm) (c : FCond) (s : State) : Result :=
  .next (floatShell (.fcmp p t u f c) (fun _ l x _ => fcmpOp f c l x) s)

/-- FCVT (R316). -/
def execFcvt (p : Pred) (t : Tgt) (u : Tgt) (f : FForm) (fromP : Bool) (q : Partner) (r : FMode) (s : State) : Result :=
  .next (floatShell (.fcvt p t u f fromP q r) (fun m l _ _ => fcvtOp f fromP q (m r) l) s)

/-- FRND (R314). -/
def execFrnd (p : Pred) (t : Tgt) (u : Tgt) (f : FForm) (r : FMode) (s : State) : Result :=
  .next (floatShell (.frnd p t u f r) (fun m l _ _ => frndOp f (m r) l) s)

/-- FTOI (R317). -/
def execFtoi (p : Pred) (t : Tgt) (u : Tgt) (f : FForm) (y : IntTy) (r : FMode) (s : State) : Result :=
  .next (floatShell (.ftoi p t u f y r) (fun m l _ _ => ftoiOp f y (m r) l) s)

/-- ITOF (R317). -/
def execItof (p : Pred) (t : Tgt) (u : Tgt) (f : FForm) (y : IntTy) (r : FMode) (s : State) : Result :=
  .next (floatShell (.itof p t u f y r) (fun m l _ _ => itofOp f y (m r) l) s)

/-- FCLASS (R315). -/
def execFclass (p : Pred) (t : Tgt) (u : Tgt) (f : FForm) (s : State) : Result :=
  .next (floatShell (.fclass p t u f) (fun _ l _ _ => fclassOp f l) s)

/-- FSCALE (R314). -/
def execFscale (p : Pred) (t : Tgt) (u : Tgt) (f : FForm) (r : FMode) (s : State) : Result :=
  .next (floatShell (.fscale p t u f r) (fun m l x _ => fscaleOp f (m r) l x) s)

/-- FRCP (R231). -/
def execFrcp (p : Pred) (t : Tgt) (u : Tgt) (f : FForm) (r : FMode) (s : State) : Result :=
  .next (floatShell (.frcp p t u f r) (fun m l _ _ => frcpOp f (m r) l) s)

/-- FRSQ (R231). -/
def execFrsq (p : Pred) (t : Tgt) (u : Tgt) (f : FForm) (r : FMode) (s : State) : Result :=
  .next (floatShell (.frsq p t u f r) (fun m l _ _ => frsqOp f (m r) l) s)

/-- FEXP2S (R231). -/
def execFexp2s (p : Pred) (t : Tgt) (u : Tgt) (f : FForm) (r : FMode) (s : State) : Result :=
  .next (floatShell (.fexp2s p t u f r) (fun m l _ _ => fexp2sOp f (m r) l) s)

/-- FLOG2S (R231). -/
def execFlog2s (p : Pred) (t : Tgt) (u : Tgt) (f : FForm) (r : FMode) (s : State) : Result :=
  .next (floatShell (.flog2s p t u f r) (fun m l _ _ => flog2sOp f (m r) l) s)

/-- VADD2 (R318). -/
def execVadd2 (p : Pred) (t : Tgt) (u : Tgt) (r : FMode) (s : State) : Result :=
  .next (floatShell (.vadd2 p t u r) (fun m l x _ => vadd2Op (m r) l x) s)

/-- VSUB2 (R318). -/
def execVsub2 (p : Pred) (t : Tgt) (u : Tgt) (r : FMode) (s : State) : Result :=
  .next (floatShell (.vsub2 p t u r) (fun m l x _ => vsub2Op (m r) l x) s)

/-- VMUL2 (R318). -/
def execVmul2 (p : Pred) (t : Tgt) (u : Tgt) (r : FMode) (s : State) : Result :=
  .next (floatShell (.vmul2 p t u r) (fun m l x _ => vmul2Op (m r) l x) s)

/-- VFMA2 (R318). -/
def execVfma2 (t : Tgt) (u : Tgt) (r : FMode) (s : State) : Result :=
  .next (floatShell (.vfma2 t u r) (fun m => vfma2Op (m r)) s)

/-- VDOT2 (R318). -/
def execVdot2 (p : Pred) (t : Tgt) (u : Tgt) (r : FMode) (s : State) : Result :=
  .next (floatShell (.vdot2 p t u r) (fun m l x _ => vdot2Op (m r) l x) s)

/-- VCVT2 (R319). -/
def execVcvt2 (p : Pred) (t : Tgt) (u : Tgt) (fromP : Bool) (q : VPartner) (r : FMode) (s : State) : Result :=
  .next (floatShell (.vcvt2 p t u fromP q r) (fun m l _ _ => vcvt2Op fromP q (m r) l) s)

end Sys2Proof.Machine
end

