-- ==== Sys2Proof/Machine/Dispatch.lean ====
section
/-! DEFINITION. The step of one instruction or event: one arm per constructor of `Instr`, each a call of
its meaning. -/

namespace Sys2Proof.Machine

def exec (i : Instr) (s : State) : Host.Outcome State Fault Refusal :=
  match i with
  | .get p t u r => Sys2Proof.Machine.execGet p t u r s
  | .put p r => Sys2Proof.Machine.execPut p r s
  | .const p t k => Sys2Proof.Machine.execConst p t k s
  | .consth p t k => Sys2Proof.Machine.execConsth p t k s
  | .mov p t u => Sys2Proof.Machine.execMov p t u s
  | .null p t u => Sys2Proof.Machine.execNull p t u s
  | .test p t u m => Sys2Proof.Machine.execTest p t u m s
  | .br p e off => Sys2Proof.Machine.execBr p e off s
  | .brr p e => Sys2Proof.Machine.execBrr p e s
  | .call p e off => Sys2Proof.Machine.execCall p e off s
  | .callr p e => Sys2Proof.Machine.execCallr p e s
  | .done p e => Sys2Proof.Machine.execDone p e s
  | .trap p c => Sys2Proof.Machine.execTrap p c s
  | .add p t u w => Sys2Proof.Machine.execAdd p t u w s
  | .sub p t u w => Sys2Proof.Machine.execSub p t u w s
  | .addi p t u imm => Sys2Proof.Machine.execAddi p t u imm s
  | .mul p t u w => Sys2Proof.Machine.execMul p t u w s
  | .mulh p t u w => Sys2Proof.Machine.execMulh p t u w s
  | .mulhu p t u w => Sys2Proof.Machine.execMulhu p t u w s
  | .div p t u w => Sys2Proof.Machine.execDiv p t u w s
  | .divu p t u w => Sys2Proof.Machine.execDivu p t u w s
  | .rem p t u w => Sys2Proof.Machine.execRem p t u w s
  | .remu p t u w => Sys2Proof.Machine.execRemu p t u w s
  | .and p t u w => Sys2Proof.Machine.execAnd p t u w s
  | .or p t u w => Sys2Proof.Machine.execOr p t u w s
  | .xor p t u w => Sys2Proof.Machine.execXor p t u w s
  | .andn p t u w => Sys2Proof.Machine.execAndn p t u w s
  | .lut3 t u imm => Sys2Proof.Machine.execLut3 t u imm s
  | .orn p t u w => Sys2Proof.Machine.execOrn p t u w s
  | .shl p t u w => Sys2Proof.Machine.execShl p t u w s
  | .shr p t u w => Sys2Proof.Machine.execShr p t u w s
  | .sar p t u w => Sys2Proof.Machine.execSar p t u w s
  | .shli p t u w n => Sys2Proof.Machine.execShli p t u w n s
  | .shri p t u w n => Sys2Proof.Machine.execShri p t u w n s
  | .sari p t u w n => Sys2Proof.Machine.execSari p t u w n s
  | .fshl t u w => Sys2Proof.Machine.execFshl t u w s
  | .fshr t u w => Sys2Proof.Machine.execFshr t u w s
  | .rol p t u w => Sys2Proof.Machine.execRol p t u w s
  | .clz p t u w => Sys2Proof.Machine.execClz p t u w s
  | .ctz p t u w => Sys2Proof.Machine.execCtz p t u w s
  | .popc p t u w => Sys2Proof.Machine.execPopc p t u w s
  | .brev p t u w => Sys2Proof.Machine.execBrev p t u w s
  | .bswap p t u w => Sys2Proof.Machine.execBswap p t u w s
  | .ext p t u signed n => Sys2Proof.Machine.execExt p t u signed n s
  | .ins p t u l n => Sys2Proof.Machine.execIns p t u l n s
  | .min p t u w => Sys2Proof.Machine.execMin p t u w s
  | .max p t u w => Sys2Proof.Machine.execMax p t u w s
  | .minu p t u w => Sys2Proof.Machine.execMinu p t u w s
  | .maxu p t u w => Sys2Proof.Machine.execMaxu p t u w s
  | .cmp p t u w c => Sys2Proof.Machine.execCmp p t u w c s
  | .sel t u => Sys2Proof.Machine.execSel t u s
  | .sext p t u n => Sys2Proof.Machine.execSext p t u n s
  | .zext p t u n => Sys2Proof.Machine.execZext p t u n s
  | .lea p t u w n => Sys2Proof.Machine.execLea p t u w n s
  | .cell t u => Sys2Proof.Machine.execCell t u s
  | .hasha p t u => Sys2Proof.Machine.execHasha p t u s
  | .absd p t u w => Sys2Proof.Machine.execAbsd p t u w s
  | .padd p t u m l => Sys2Proof.Machine.execPadd p t u m l s
  | .psub p t u m l => Sys2Proof.Machine.execPsub p t u m l s
  | .pmul p t u m l => Sys2Proof.Machine.execPmul p t u m l s
  | .pmax p t u unsigned l => Sys2Proof.Machine.execPmax p t u unsigned l s
  | .fadd p t u f r => Sys2Proof.Machine.execFadd p t u f r s
  | .fsub p t u f r => Sys2Proof.Machine.execFsub p t u f r s
  | .fmul p t u f r => Sys2Proof.Machine.execFmul p t u f r s
  | .ffma t u f r => Sys2Proof.Machine.execFfma t u f r s
  | .fmin p t u f => Sys2Proof.Machine.execFmin p t u f s
  | .fmax p t u f => Sys2Proof.Machine.execFmax p t u f s
  | .fsgn p t u f o => Sys2Proof.Machine.execFsgn p t u f o s
  | .fcmp p t u f c => Sys2Proof.Machine.execFcmp p t u f c s
  | .fcvt p t u f fromP q r => Sys2Proof.Machine.execFcvt p t u f fromP q r s
  | .frnd p t u f r => Sys2Proof.Machine.execFrnd p t u f r s
  | .ftoi p t u f y r => Sys2Proof.Machine.execFtoi p t u f y r s
  | .itof p t u f y r => Sys2Proof.Machine.execItof p t u f y r s
  | .fclass p t u f => Sys2Proof.Machine.execFclass p t u f s
  | .fscale p t u f r => Sys2Proof.Machine.execFscale p t u f r s
  | .frcp p t u f r => Sys2Proof.Machine.execFrcp p t u f r s
  | .frsq p t u f r => Sys2Proof.Machine.execFrsq p t u f r s
  | .fexp2s p t u f r => Sys2Proof.Machine.execFexp2s p t u f r s
  | .flog2s p t u f r => Sys2Proof.Machine.execFlog2s p t u f r s
  | .vadd2 p t u r => Sys2Proof.Machine.execVadd2 p t u r s
  | .vsub2 p t u r => Sys2Proof.Machine.execVsub2 p t u r s
  | .vmul2 p t u r => Sys2Proof.Machine.execVmul2 p t u r s
  | .vfma2 t u r => Sys2Proof.Machine.execVfma2 t u r s
  | .vdot2 p t u r => Sys2Proof.Machine.execVdot2 p t u r s
  | .vcvt2 p t u fromP q r => Sys2Proof.Machine.execVcvt2 p t u fromP q r s
  | .ld8 p t l rlx o => Sys2Proof.Machine.execLd8 p t l rlx o s
  | .ld8u p t l rlx o => Sys2Proof.Machine.execLd8u p t l rlx o s
  | .ld16 p t l rlx o => Sys2Proof.Machine.execLd16 p t l rlx o s
  | .ld16u p t l rlx o => Sys2Proof.Machine.execLd16u p t l rlx o s
  | .ld32 p t l rlx o => Sys2Proof.Machine.execLd32 p t l rlx o s
  | .ld32u p t l rlx o => Sys2Proof.Machine.execLd32u p t l rlx o s
  | .ld64 p t l rlx o => Sys2Proof.Machine.execLd64 p t l rlx o s
  | .ld128 p t l rlx o => Sys2Proof.Machine.execLd128 p t l rlx o s
  | .st8 p l rlx o => Sys2Proof.Machine.execSt8 p l rlx o s
  | .st16 p l rlx o => Sys2Proof.Machine.execSt16 p l rlx o s
  | .st32 p l rlx o => Sys2Proof.Machine.execSt32 p l rlx o s
  | .st64 p l rlx o => Sys2Proof.Machine.execSt64 p l rlx o s
  | .st128 l rlx o => Sys2Proof.Machine.execSt128 l rlx o s
  | .ldsync p t l o => Sys2Proof.Machine.execLdsync p t l o s
  | .stsync p l o => Sys2Proof.Machine.execStsync p l o s
  | .ldff p t l o => Sys2Proof.Machine.execLdff p t l o s
  | .stff p l o => Sys2Proof.Machine.execStff p l o s
  | .sete p l o => Sys2Proof.Machine.execSete p l o s
  | .festat p t l o => Sys2Proof.Machine.execFestat p t l o s
  | .fence p l sc => Sys2Proof.Machine.execFence p l sc s
  | .amadd p t l rlx w n => Sys2Proof.Machine.execAmadd p t l rlx w n s
  | .rsv p t l w n => Sys2Proof.Machine.execRsv p t l w n s
  | .rel p l w n => Sys2Proof.Machine.execRel p l w n s
  | .reln p l w n => Sys2Proof.Machine.execReln p l w n s
  | .cas t l w n => Sys2Proof.Machine.execCas t l w n s
  | .swap p t l w n => Sys2Proof.Machine.execSwap p t l w n s
  | .amin p t l w unsigned n => Sys2Proof.Machine.execAmin p t l w unsigned n s
  | .amax p t l w unsigned n => Sys2Proof.Machine.execAmax p t l w unsigned n s
  | .mwait p t l o => Sys2Proof.Machine.execMwait p t l o s
  | .barj p l o => Sys2Proof.Machine.execBarj p l o s
  | .bara p l o => Sys2Proof.Machine.execBara p l o s
  | .barw p t l o => Sys2Proof.Machine.execBarw p t l o s
  | .barx p l o => Sys2Proof.Machine.execBarx p l o s
  | .phase p l v => Sys2Proof.Machine.execPhase p l v s
  | .tlwait p t u c => Sys2Proof.Machine.execTlwait p t u c s
  | .tlrd p t u issue c => Sys2Proof.Machine.execTlrd p t u issue c s
  | .mbxw p t u => Sys2Proof.Machine.execMbxw p t u s
  | .mbxr p t u => Sys2Proof.Machine.execMbxr p t u s
  | .cpy p l reuse c => Sys2Proof.Machine.execCpy p l reuse c s
  | .cpyx p l reuse c => Sys2Proof.Machine.execCpyx p l reuse c s
  | .cpyt p l reuse c => Sys2Proof.Machine.execCpyt p l reuse c s
  | .cpys p l reuse c => Sys2Proof.Machine.execCpys p l reuse c s
  | .lzrsv p t l => Sys2Proof.Machine.execLzrsv p t l s
  | .lzsend p l reuse => Sys2Proof.Machine.execLzsend p l reuse s
  | .lzarm p l z => Sys2Proof.Machine.execLzarm p l z s
  | .lzfree p l z n => Sys2Proof.Machine.execLzfree p l z n s
  | .qpop p t u => Sys2Proof.Machine.execQpop p t u s
  | .qpush p t u => Sys2Proof.Machine.execQpush p t u s
  | .post p t u y => Sys2Proof.Machine.execPost p t u y s
  | .postc p t u c => Sys2Proof.Machine.execPostc p t u c s
  | .dec p t u => Sys2Proof.Machine.execDec p t u s
  | .spawn p t u => Sys2Proof.Machine.execSpawn p t u s
  | .join p t u => Sys2Proof.Machine.execJoin p t u s
  | .migr p t u => Sys2Proof.Machine.execMigr p t u s
  | .elem p t u m => Sys2Proof.Machine.execElem p t u m s
  | .nbr p t u => Sys2Proof.Machine.execNbr p t u s
  | .nbrn p t u => Sys2Proof.Machine.execNbrn p t u s
  | .repost p e => Sys2Proof.Machine.execRepost p e s
  | .tretry p t u => Sys2Proof.Machine.execTretry p t u s
  | .tdrop p t u => Sys2Proof.Machine.execTdrop p t u s
  | .prio p t u y => Sys2Proof.Machine.execPrio p t u y s
  | .colourCur p t u => Sys2Proof.Machine.execColourCur p t u s
  | .colourSet p t u => Sys2Proof.Machine.execColourSet p t u s
  | .deadl p t u keep => Sys2Proof.Machine.execDeadl p t u keep s
  | .tld p t d => Sys2Proof.Machine.execTld p t d s
  | .tst p t a => Sys2Proof.Machine.execTst p t a s
  | .tzero p t d => Sys2Proof.Machine.execTzero p t d s
  | .ttrn p t d a => Sys2Proof.Machine.execTtrn p t d a s
  | .mma p t d a b m => Sys2Proof.Machine.execMma p t d a b m s
  | .mmas p t d a b m => Sys2Proof.Machine.execMmas p t d a b m s
  | .mmak p t d a b m => Sys2Proof.Machine.execMmak p t d a b m s
  | .accrd p t d a b m => Sys2Proof.Machine.execAccrd p t d a b m s
  | .accz p t d pair => Sys2Proof.Machine.execAccz p t d pair s
  | .accld p t d pair => Sys2Proof.Machine.execAccld p t d pair s
  | .tdeq p t d a b m => Sys2Proof.Machine.execTdeq p t d a b m s
  | .topk p t d a mag c => Sys2Proof.Machine.execTopk p t d a mag c s
  | .tred p t d a o acc c => Sys2Proof.Machine.execTred p t d a o acc c s
  | .scld p t => Sys2Proof.Machine.execScld p t s
  | .scst p t => Sys2Proof.Machine.execScst p t s
  | .gld p t d prev => Sys2Proof.Machine.execGld p t d prev s
  | .gst p t a => Sys2Proof.Machine.execGst p t a s
  | .gacc p t d a => Sys2Proof.Machine.execGacc p t d a s
  | .gelim p t d m => Sys2Proof.Machine.execGelim p t d m s
  | .gdamp p t d fromReg => Sys2Proof.Machine.execGdamp p t d fromReg s
  | .gsolve p t d => Sys2Proof.Machine.execGsolve p t d s
  | .gchk p t => Sys2Proof.Machine.execGchk p t s
  | .gshift p t => Sys2Proof.Machine.execGshift p t s
  | .gzero p t d m => Sys2Proof.Machine.execGzero p t d m s
  | .rld p t l rlx o => Sys2Proof.Machine.execRld p t l rlx o s
  | .rst p l o => Sys2Proof.Machine.execRst p l o s
  | .rat p t l w n => Sys2Proof.Machine.execRat p t l w n s
  | .radd p l w n => Sys2Proof.Machine.execRadd p l w n s
  | .inj p t u => Sys2Proof.Machine.execInj p t u s
  | .rcvpTake p t u => Sys2Proof.Machine.execRcvpTake p t u s
  | .rcvpFree p t u => Sys2Proof.Machine.execRcvpFree p t u s
  | .coll p t rmSrc y o l => Sys2Proof.Machine.execColl p t rmSrc y o l s
  | .rank p t u m l => Sys2Proof.Machine.execRank p t u m l s
  | .mfc p t u imm => Sys2Proof.Machine.execMfc p t u imm s
  | .mtc p imm => Sys2Proof.Machine.execMtc p imm s
  | .eret p redirect => Sys2Proof.Machine.execEret p redirect s
  | .swaps p t u => Sys2Proof.Machine.execSwaps p t u s
  | .tlbiPage p t u sc => Sys2Proof.Machine.execTlbiPage p t u sc s
  | .tlbiAsid p t u sc => Sys2Proof.Machine.execTlbiAsid p t u sc s
  | .tlbiAll p t u sc => Sys2Proof.Machine.execTlbiAll p t u sc s
  | .park p t u => Sys2Proof.Machine.execPark p t u s
  | .wake p t u => Sys2Proof.Machine.execWake p t u s
  | .pwrq p t u => Sys2Proof.Machine.execPwrq p t u s
  | .csync p t u => Sys2Proof.Machine.execCsync p t u s
  | .trqpop p t u latch => Sys2Proof.Machine.execTrqpop p t u latch s
  | .kregSeal p t u => Sys2Proof.Machine.execKregSeal p t u s
  | .kregCheck p t u => Sys2Proof.Machine.execKregCheck p t u s
  | .halts p t u => Sys2Proof.Machine.execHalts p t u s
  | .blockFetch slot => Sys2Proof.Machine.execBlockFetch slot s
  | .commit slot => Sys2Proof.Machine.execCommit slot s
  | .normaliserServiceEnd core => Sys2Proof.Machine.execNormaliserServiceEnd core s
  | .threadEnd slot => Sys2Proof.Machine.execThreadEnd slot s
  | .pageWalkStart miss => Sys2Proof.Machine.execPageWalkStart miss s
  | .pageWalkComplete walk => Sys2Proof.Machine.execPageWalkComplete walk s
  | .tlbiComplete id => Sys2Proof.Machine.execTlbiComplete id s
  | .memoryRequestArrival msg => Sys2Proof.Machine.execMemoryRequestArrival msg s
  | .holdRelease msg => Sys2Proof.Machine.execHoldRelease msg s
  | .requestCancel msg => Sys2Proof.Machine.execRequestCancel msg s
  | .memoryReplyArrival msg => Sys2Proof.Machine.execMemoryReplyArrival msg s
  | .nackResend msg => Sys2Proof.Machine.execNackResend msg s
  | .notReadyResend msg => Sys2Proof.Machine.execNotReadyResend msg s
  | .reservationTimeout word => Sys2Proof.Machine.execReservationTimeout word s
  | .amaddCombine msg msg2 => Sys2Proof.Machine.execAmaddCombine msg msg2 s
  | .amaddReplySplit msg => Sys2Proof.Machine.execAmaddReplySplit msg s
  | .barrierOpArrival msg => Sys2Proof.Machine.execBarrierOpArrival msg s
  | .phaseTreeArrival msg => Sys2Proof.Machine.execPhaseTreeArrival msg s
  | .phaseRelease msg => Sys2Proof.Machine.execPhaseRelease msg s
  | .mailboxHandoff slot => Sys2Proof.Machine.execMailboxHandoff slot s
  | .copySubmit core => Sys2Proof.Machine.execCopySubmit core s
  | .engineRefusalResubmit core copy => Sys2Proof.Machine.execEngineRefusalResubmit core copy s
  | .copyRowTransfer copy => Sys2Proof.Machine.execCopyRowTransfer copy s
  | .copyRetire copy => Sys2Proof.Machine.execCopyRetire copy s
  | .trapTake slot => Sys2Proof.Machine.execTrapTake slot s
  | .trapRecordQueue msg => Sys2Proof.Machine.execTrapRecordQueue msg s
  | .handlerThreadStart die => Sys2Proof.Machine.execHandlerThreadStart die s
  | .lzReservation msg => Sys2Proof.Machine.execLzReservation msg s
  | .landingPacket msg => Sys2Proof.Machine.execLandingPacket msg s
  | .slotLanded zone zslot => Sys2Proof.Machine.execSlotLanded zone zslot s
  | .zoneSlotTimeout zone zslot => Sys2Proof.Machine.execZoneSlotTimeout zone zslot s
  | .senderAbort msg => Sys2Proof.Machine.execSenderAbort msg s
  | .lzfreePerform msg => Sys2Proof.Machine.execLzfreePerform msg s
  | .landingSendRetire msg => Sys2Proof.Machine.execLandingSendRetire msg s
  | .landingAckTimeout copy => Sys2Proof.Machine.execLandingAckTimeout copy s
  | .remoteRequestArrival msg => Sys2Proof.Machine.execRemoteRequestArrival msg s
  | .fabricTimeout msg => Sys2Proof.Machine.execFabricTimeout msg s
  | .linkStateChange link state => Sys2Proof.Machine.execLinkStateChange link state s
  | .injSend slot => Sys2Proof.Machine.execInjSend slot s
  | .messageArrival msg => Sys2Proof.Machine.execMessageArrival msg s
  | .collectiveResult msg => Sys2Proof.Machine.execCollectiveResult msg s
  | .refillStart slot queue => Sys2Proof.Machine.execRefillStart slot queue s
  | .refillComplete refill => Sys2Proof.Machine.execRefillComplete refill s
  | .migrationComplete slot => Sys2Proof.Machine.execMigrationComplete slot s
  | .spawnChildStart slot => Sys2Proof.Machine.execSpawnChildStart slot s
  | .matrixOpComplete core => Sys2Proof.Machine.execMatrixOpComplete core s
  | .grantPeriod die => Sys2Proof.Machine.execGrantPeriod die s
  | .thermalThrottle die cap => Sys2Proof.Machine.execThermalThrottle die cap s
  | .lqDoor module queue addr => Sys2Proof.Machine.execLqDoor module queue addr s
  | .lqRing module queue val => Sys2Proof.Machine.execLqRing module queue val s
  | .launchDecision module => Sys2Proof.Machine.execLaunchDecision module s
  | .reserve msg => Sys2Proof.Machine.execReserve msg s
  | .reserveAnswer msg => Sys2Proof.Machine.execReserveAnswer msg s
  | .start msg => Sys2Proof.Machine.execStart msg s
  | .release msg => Sys2Proof.Machine.execRelease msg s
  | .endedReport msg => Sys2Proof.Machine.execEndedReport msg s
  | .parlourDispatchAttempt core => Sys2Proof.Machine.execParlourDispatchAttempt core s
  | .parlourRetryTimer core entry => Sys2Proof.Machine.execParlourRetryTimer core entry s
  | .stallWordRequest msg => Sys2Proof.Machine.execStallWordRequest msg s
  | .holdReleaseParlour slot => Sys2Proof.Machine.execHoldReleaseParlour slot s
  | .quarantineMessage msg => Sys2Proof.Machine.execQuarantineMessage msg s
  | .colourPhaseStart launch => Sys2Proof.Machine.execColourPhaseStart launch s
  | .deadlineExpiry slot => Sys2Proof.Machine.execDeadlineExpiry slot s
  | .timeBeacon module root => Sys2Proof.Machine.execTimeBeacon module root s
  | .patrolScrub unit bad => Sys2Proof.Machine.execPatrolScrub unit bad s
  | .watchdogRestart module val => Sys2Proof.Machine.execWatchdogRestart module val s
  | .watchdogExpiry module => Sys2Proof.Machine.execWatchdogExpiry module s
  | .kernelCrashReport module => Sys2Proof.Machine.execKernelCrashReport module s
  | .warmReboot module => Sys2Proof.Machine.execWarmReboot module s
  | .reAdoption module => Sys2Proof.Machine.execReAdoption module s
  | .moduleDeclaredLost module peer => Sys2Proof.Machine.execModuleDeclaredLost module peer s
  | .coldBoot module => Sys2Proof.Machine.execColdBoot module s
  | .tqBase die val => Sys2Proof.Machine.execTqBase die val s
  | .resyncGo module val => Sys2Proof.Machine.execResyncGo module val s
  | .controlRegisterWrite addr val => Sys2Proof.Machine.execControlRegisterWrite addr val s
  | .frozenAnnouncement module peer => Sys2Proof.Machine.execFrozenAnnouncement module peer s
  | .thawedAnnouncement module peer => Sys2Proof.Machine.execThawedAnnouncement module peer s
  | .holdAnswerArrival msg => Sys2Proof.Machine.execHoldAnswerArrival msg s
  | .expertLevelEnable module launch function => Sys2Proof.Machine.execExpertLevelEnable module launch function s

end Sys2Proof.Machine
end

