-- ==== Sys2Proof/Machine/Settle.lean ====
section
/-! DEFINITION. What follows from a step by itself: accesses leave, waits end, deferred actions of committed
instances act in their order (R86, R333), boundaries take effect (R219, R384), starved instances are discarded
(R182), and launches end. -/

namespace Sys2Proof.Machine

/-! ## Waits (R83, R333) -/

/-- An instruction that waits is done and sends a token to its targets. -/
def endWait (k n : Nat) (i : Instr) (v : Token) (s : State) : State :=
  sendTokens k ((formOf i).send v) (s.modInst k fun j => j.modNode n fun x => { x with st := .fired })

/-- A waiting TLWAIT, MBXR, QPOP, RCVP or JOIN whose event has come is done. -/
def settleWait (k n : Nat) (s : State) : State :=
  match (s.slot k).inst with
  | none => s
  | some i =>
    match i.nodes[n]? with
    | none => s
    | some x =>
      if x.st ≠ .waiting then s
      else match x.instr with
        | some (.tlwait p t u c) =>
          if (Token.value x.left).toNat ≤ (s.core (slotCore k)).tl c.toNat then tlwaitDone (.tlwait p t u c) k n c.toNat s else s
        | some (.mbxr _ t u) => mbxrTake t u k n s
        | some (.qpop _ t u) => tryPop t u k n (Token.value x.left).toNat s
        | some (.rcvpTake _ t u) => rcvTake t u k n s
        | some (.join p t u) => if (s.slot k).join = 0 then endWait k n (.join p t u) (.data 0#64 false) s else s
        | _ => s

/-- The waits of a slot's instance. -/
def settleWaits (k : Nat) (s : State) : State :=
  match (s.slot k).inst with
  | none => s
  | some i => overAll (settleWait k) (List.range i.nodes.length) s

/-! ## Deferred actions (R86, R333) -/

/-- The store of COLOUR set: a relaxed commit-time store of one byte (R351). -/
def colourStore (k num va pa colour : Nat) (s : State) : State :=
  let a : Acc := { id := s.nextId, inst := num, lsid := 1000, node := 0, kind := .commitTime, ordered := false
                   op := .store 1 (BitVec.ofNat 64 colour) 0#64 false, va := va, pa := pa, committed := true }
  pump k ({ s with nextId := s.nextId + 1 }.modSlot k fun x => { x with accs := x.accs ++ [a] })

/-- An action on a task named by reference, where the reference still resolves (R343). [DEDUCED: log 71] -/
def onTask (k : Nat) (ref : Word) (f : Nat → Nat → State → State) (s : State) : State :=
  match resolveRef s k 0 ref with
  | .ok (list, n) => f list n s
  | .error _ => countMisuse (slotModule k) s

/-- One action at the head of a slot's line; none while it waits, or where an event performs it. [DEDUCED: log 127] -/
def actOne (k num : Nat) (a : Action) (s : State) : Option State :=
  let c := slotCore k
  let acked := postReady (s.slot k) num
  let done := postDone k s
  let once (b : Bool) (t : State) : Option State := if b then some t else none
  match a with
  | .post list n e start arg prio => once acked (postCommit k list n e start arg prio done)
  | .dec ref => once acked (onTask k ref (decCommit k) done)
  | .tretry ref => some (onTask k ref (tretryCommit k) done)
  | .tdrop ref => some (onTask k ref (tdropCommit k) done)
  | .prio ref y => some (onTask k ref (fun list n => prioCommit k list n y) done)
  | .colour va pa v => some (colourStore k num va pa v done)
  | .mbxTaken _ => some done
  | .mbxw m e =>
    let t := submitCopy c m e s
    let box := tabGet (t.core c).mailboxes m {}
    once (!(box.full && (tabFind t.copies box.order).isSome)) (postDone k t)
  | .popped _ _ _ | .push _ _ =>
    let acts := queueActs (s.slot k) num
    once (queueBusy s k acts).isNone
      (queueCommit k acts (s.modSlot k fun x => { x with post := x.post.drop acts.length }))
  | .rcvTaken e => some (rcvTakeCommit k e done)
  | .rcvFree e => some (rcvFreeCommit k e done)
  | .coll level ty op mode v reg => some (collCommit k level ty op mode v reg done)
  | .eret t back => some (resumeTrap t back done)
  | .park t => some (parkCommit k t done)
  | .wake t => some (wakeCommit k t done)
  | .halts t => some (haltsCommit k t done)
  | .pwrq n => some (done.modCore c fun x => { x with pwrNext := n })
  | .csync => once acked (done.modCore c fun x => { x with blockCache := [] })
  | .trqpop _ d latch pos => some (trqpopCommit d latch pos done)
  | .seal va pa => once (acked && (sealBusy s k pa).isNone) (sealCommit k num va pa s)
  | .sealed acc => once (s.acc? k acc).isNone done
  | .tlbi kind va asid sc =>
    once acked ((tlbiAct k kind va asid sc s).modSlot k fun x => { x with post := (num, .tlbiWait s.nextId) :: x.post.drop 1 })
  | .swaps t e => (swapsCommit k t e (swapsStop t s)).map (postDone k)
  | .tlbiWait _ | .spawn _ _ | .migr _ | .inj _ _ => none

/-- What an action that waits does meanwhile: a SWAPS has stopped its thread (R382); what reads or writes memory waits at the
held word that it meets (R99). -/
def postWaits (k num : Nat) (a : Action) (s : State) : State :=
  let at_ (w : Option Nat) : State := match w with
    | some w => waitTurn (.node k 64) w s
    | none => s
  match a with
  | .swaps t _ => swapsStop t s
  | .popped _ _ _ | .push _ _ => at_ (queueBusy s k (queueActs (s.slot k) num))
  | .seal _ pa => if postReady (s.slot k) num then at_ (sealBusy s k pa) else s
  | _ => s

/-- The actions of a slot, in order, up to the first that waits. -/
def runPost (k : Nat) : Nat → State → State
  | 0, s => s
  | n + 1, s =>
    match (s.slot k).post with
    | [] => s
    | (num, a) :: _ =>
      match actOne k num a s with
      | some t => runPost k n t
      | none => postWaits k num a s

/-! ## Boundaries -/

/-- What was waiting for the boundary of a slot: a deadline that has expired, and PARK (R219, R384). -/
def settleBoundary (k : Nat) (s : State) : State :=
  let sl := s.slot k
  if sl.inst.isSome then s
  else
    let s := if sl.expired then
        (if sl.life == .fetch then expire k 1 s else s.modSlot k fun x => { x with expired := false })
      else s
    if sl.parkAtBoundary && sl.halt == .none then s.modSlot k fun x => { x with halt := .parked, parkAtBoundary := false } else s

/-- Everything that follows by itself in one slot. -/
def settleSlot (k : Nat) (s : State) : State :=
  let s := pump k (settleFences k s)
  let s := settleWaits k s
  let s := runPost k ((s.slot k).post.length + 1) s
  let s := pump k (settleFences k s)
  freeKilled k (settleBoundary k (starve k s))

/-! ## Matrix operations that wait to start (R242 to R244, R415) -/

/-- The node of a slot's matrix operation that has fired and not started. -/
def waitingMatrix (s : State) (k : Nat) : Option (Nat × Instr) :=
  let sl := s.slot k
  let mine : Bool := match (s.core (slotCore k)).qbusy with
    | some (h, _) => h == k
    | none => false
  if !sl.matrix || mine then none
  else match sl.inst with
    | none => none
    | some i =>
      (List.range i.nodes.length).findSome? fun n => match i.nodes[n]? with
        | some x => if x.st = .waiting ∧ x.form.kind = .matrix then x.instr.map fun j => (n, j) else none
        | none => none

/-- Try again to start the matrix operation of a slot; `run` is the meaning of an instruction. [DEDUCED: log 92] -/
def retryMatrix (run : Instr → State → Result) (k : Nat) (s : State) : State :=
  match waitingMatrix s k with
  | none => s
  | some (n, i) =>
    match run i { s with focus := { slot := k, node := n } } with
    | .next t => { t with focus := s.focus }
    | .fault _ => s
    | .refused _ => s

/-! ## Turns at held words that nobody will take (R88, R99) -/

/-- The party that a key in a word's hold stands for. -/
def Source.ofKey (key : Nat) : Source :=
  let n := (key - 2 ^ 100) / 8
  match (key - 2 ^ 100) % 8 with
  | 0 => .copy n
  | 1 => .refill (n / 2 ^ 17) (n % 2 ^ 17)
  | 2 => .agent n
  | 3 => .outside n
  | 4 => .fetch n
  | 5 => .node (n / 256) (n % 256)
  | 6 => .msg n
  | _ => .unit n

/-- The parties that hold a word for their turn, or wait for it. -/
def WordQ.parties (q : WordQ) : List Source :=
  ((q.queue.filter fun r => r.op == .turn).map fun r => r.src) ++ match q.held with
    | some (k, _, _) => if 2 ^ 100 ≤ k then [.ofKey k] else []
    | none => []

/-- The unit of a module that a number stands for still has what it waits to do. -/
def unitLive (s : State) (n : Nat) : Bool :=
  if n < 2 ^ 40 then
    let x := s.zoneSlot (n / 64) (n / 16 % 4) (n % 16)
    x.st == .reserved || x.st == .filling
  else if n < 2 ^ 41 then (s.module (n - 2 ^ 40)).queues.any fun q => q.2.records != []
  else if n < 2 ^ 100 then s.net.any fun p => match p.2 with
    | .record _ d _ _ _ => d == n - 2 ^ 41
    | _ => false
  else match tabFind s.launches (n - 2 ^ 100) with
    | some l => l.byColour
    | none => false

/-- A party still has the access to make for which it waits: the instruction stands, the copy runs. -/
def partyLive (s : State) : Source → Bool
  | .slot _ _ | .outside _ => true
  | .copy id => (tabFind s.copies id).isSome
  | .refill c d => (refillOf s c d).isSome || (readQueue s c d).refillDue
  | .agent c => (s.core c).launch != 0
  | .fetch k => (s.slot k).life == .fetch && (s.slot k).inst.isNone
  | .msg id => (tabFind s.net id).isSome || (tabFind s.walks id).isSome
  | .unit n => unitLive s n
  | .node k n =>
    if n = 64 then (s.slot k).post != []
    else if n = 65 then (match (s.slot k).life with
      | .ending _ => true
      | .free | .fetch | .run | .killed => false)
    else match (s.slot k).inst with
      | some i => i.nodes[n]?.any fun x => x.st == .idle || x.st == .waiting
      | none => false

/-- A party that will make no access any more leaves the hold queues. -/
def dropTurns (s : State) : State :=
  let gone := ((s.words.flatMap fun p => p.2.parties) ++ s.waits.map fun x => x.1).filter fun p => !partyLive s p
  overAll endTurn gone s

/-- Everything that follows from a step by itself. -/
def settle (run : Instr → State → Result) (s : State) : State :=
  let ks := s.slots.map fun p => p.1
  dropTurns (endParts (overAll settleSlot ks (overAll (retryMatrix run) ks s)))

end Sys2Proof.Machine
end

