-- ==== Sys2Proof/Machine/Event.lean ====
section
/-! DEFINITION. The meaning of an event: that of the constructor of `Instr` of the same name. (Lean compiles no
value of the last constructors of a type as large as `Instr`, so that turns hold events under a type of their
own.) -/

namespace Sys2Proof.Machine

/-- What an event does. -/
def runEvent (e : Event) (s : State) : Result :=
  match e with
  | .blockFetch slot => execBlockFetch slot s
  | .commit slot => execCommit slot s
  | .normaliserServiceEnd core => execNormaliserServiceEnd core s
  | .threadEnd slot => execThreadEnd slot s
  | .pageWalkStart miss => execPageWalkStart miss s
  | .pageWalkComplete walk => execPageWalkComplete walk s
  | .tlbiComplete id => execTlbiComplete id s
  | .memoryRequestArrival msg => execMemoryRequestArrival msg s
  | .holdRelease msg => execHoldRelease msg s
  | .requestCancel msg => execRequestCancel msg s
  | .memoryReplyArrival msg => execMemoryReplyArrival msg s
  | .nackResend msg => execNackResend msg s
  | .notReadyResend msg => execNotReadyResend msg s
  | .reservationTimeout word => execReservationTimeout word s
  | .amaddCombine msg msg2 => execAmaddCombine msg msg2 s
  | .amaddReplySplit msg => execAmaddReplySplit msg s
  | .barrierOpArrival msg => execBarrierOpArrival msg s
  | .phaseTreeArrival msg => execPhaseTreeArrival msg s
  | .phaseRelease msg => execPhaseRelease msg s
  | .mailboxHandoff slot => execMailboxHandoff slot s
  | .copySubmit core => execCopySubmit core s
  | .engineRefusalResubmit core copy => execEngineRefusalResubmit core copy s
  | .copyRowTransfer copy => execCopyRowTransfer copy s
  | .copyRetire copy => execCopyRetire copy s
  | .trapTake slot => execTrapTake slot s
  | .trapRecordQueue msg => execTrapRecordQueue msg s
  | .handlerThreadStart die => execHandlerThreadStart die s
  | .lzReservation msg => execLzReservation msg s
  | .landingPacket msg => execLandingPacket msg s
  | .slotLanded zone zslot => execSlotLanded zone zslot s
  | .zoneSlotTimeout zone zslot => execZoneSlotTimeout zone zslot s
  | .senderAbort msg => execSenderAbort msg s
  | .lzfreePerform msg => execLzfreePerform msg s
  | .landingSendRetire msg => execLandingSendRetire msg s
  | .landingAckTimeout copy => execLandingAckTimeout copy s
  | .remoteRequestArrival msg => execRemoteRequestArrival msg s
  | .fabricTimeout msg => execFabricTimeout msg s
  | .linkStateChange link state => execLinkStateChange link state s
  | .injSend slot => execInjSend slot s
  | .messageArrival msg => execMessageArrival msg s
  | .collectiveResult msg => execCollectiveResult msg s
  | .refillStart slot queue => execRefillStart slot queue s
  | .refillComplete refill => execRefillComplete refill s
  | .migrationComplete slot => execMigrationComplete slot s
  | .spawnChildStart slot => execSpawnChildStart slot s
  | .matrixOpComplete core => execMatrixOpComplete core s
  | .grantPeriod die => execGrantPeriod die s
  | .thermalThrottle die cap => execThermalThrottle die cap s
  | .lqDoor module queue addr => execLqDoor module queue addr s
  | .lqRing module queue val => execLqRing module queue val s
  | .launchDecision module => execLaunchDecision module s
  | .reserve msg => execReserve msg s
  | .reserveAnswer msg => execReserveAnswer msg s
  | .start msg => execStart msg s
  | .release msg => execRelease msg s
  | .endedReport msg => execEndedReport msg s
  | .parlourDispatchAttempt core => execParlourDispatchAttempt core s
  | .parlourRetryTimer core entry => execParlourRetryTimer core entry s
  | .stallWordRequest msg => execStallWordRequest msg s
  | .holdReleaseParlour slot => execHoldReleaseParlour slot s
  | .quarantineMessage msg => execQuarantineMessage msg s
  | .colourPhaseStart launch => execColourPhaseStart launch s
  | .deadlineExpiry slot => execDeadlineExpiry slot s
  | .timeBeacon module root => execTimeBeacon module root s
  | .patrolScrub unit bad => execPatrolScrub unit bad s
  | .watchdogRestart module val => execWatchdogRestart module val s
  | .watchdogExpiry module => execWatchdogExpiry module s
  | .kernelCrashReport module => execKernelCrashReport module s
  | .warmReboot module => execWarmReboot module s
  | .reAdoption module => execReAdoption module s
  | .moduleDeclaredLost module peer => execModuleDeclaredLost module peer s
  | .coldBoot module => execColdBoot module s
  | .tqBase die val => execTqBase die val s
  | .resyncGo module val => execResyncGo module val s
  | .controlRegisterWrite addr val => execControlRegisterWrite addr val s
  | .frozenAnnouncement module peer => execFrozenAnnouncement module peer s
  | .thawedAnnouncement module peer => execThawedAnnouncement module peer s
  | .holdAnswerArrival msg => execHoldAnswerArrival msg s
  | .expertLevelEnable module launch function => execExpertLevelEnable module launch function s

end Sys2Proof.Machine
end

