-- ==== Sys2Proof/Machine/Issue.lean ====
section
/-! DEFINITION. Whose turn it is: the issue of a core (R172 to R174), what outside bus masters do, and the
agenda of a cycle: an order for the agents where the spec leaves it open. -/

namespace Sys2Proof.Machine

/-! ## Issue (R172 to R174) -/

/-- The lowest-indexed ready instruction (R173). [DEDUCED: log 12] -/
def readyNode (i : Inst) : Option Nat := (List.range i.nodes.length).find? fun n => nodeReady i n

/-- A request of the slot stands in a waiter list: the thread has left the rotation until it is served (R106). -/
def inWaiterList (s : State) (k : Nat) : Bool :=
  s.words.any fun p => p.2.waiters.any fun r => match r.src with
    | .slot k' _ => k' == k
    | _ => false

/-- The instruction that a slot issues next, where the slot is runnable (R106, R172 to R174, R242). [DEDUCED: log 121] -/
def runnable (s : State) (k : Nat) : Option Nat :=
  let sl := s.slot k
  match sl.inst with
  | none => none
  | some i =>
    if i.complete || sl.matrix || (s.core (slotCore k)).normQueue.contains k || inWaiterList s k then none else readyNode i

/-- The slot has not issued in the last 7 cycles (R172). -/
def rested (now : Nat) (sl : Slot) : Bool :=
  match sl.lastIssue with
  | some t => decide (t + 8 ≤ now)
  | none => true

/-- The slots that a cycle's turn may go to, in order (R172): slot t mod 16, then those 8 to 15 after it. -/
def turnOrder (t : Nat) : List Nat := t % 16 :: (List.range 8).map fun i => (t % 16 + 8 + i) % 16

/-- The slot and the instruction that a core issues now; none in a bubble. A slot served by the normaliser
takes neither its own turns nor donated ones (R174). [DEDUCED: log 12] -/
def issueOf (s : State) (core : Nat) : Option (Nat × Nat) :=
  (turnOrder s.now).findSome? fun n =>
    let k := core * 16 + n
    if rested s.now (s.slot k) then (runnable s k).map fun i => (k, i) else none

/-- The instruction at an index of a slot's instance. -/
def instrAt (s : State) (k n : Nat) : Option Instr :=
  match (s.slot k).inst with
  | some i => match i.nodes[n]? with
    | some x => x.instr
    | none => none
  | none => none

/-- A slot issues an instruction: the state in which it has its meaning. -/
def atFocus (k n : Nat) (s : State) : State :=
  { s.modSlot k fun x => { x with lastIssue := some s.now } with focus := { slot := k, node := n } }

/-! ## Outside bus masters (R11, R15, R17) -/

/-- The span is memory (R11, R12, R17). -/
def isBacked (s : State) (pa n : Nat) : Bool :=
  installed (s.module (pa / 2 ^ 48)) (pa % 2 ^ 48) n || match regionOf (pa % 2 ^ 48) with
    | some (.remote _ off) => decide (off + n ≤ 0x18000)
    | _ => false

/-- The span is memory or lies in control space. -/
def isThere (s : State) (pa n : Nat) : Bool := isBacked s pa n || regionOf (pa % 2 ^ 48) == some .control

/-- The stores of a run of bytes by an outside master, one per word: each is a request at the word's point of
coherence (R56, R99). [DESIGN CHOICE: log 11] -/
def outsideStores (pa : Nat) (bs : List Byte) : List Req :=
  (wordsOf pa bs.length).map fun w =>
    let lo := max pa (8 * w)
    let hi := min (pa + bs.length) (8 * w + 8)
    { src := .outside (pa / 2 ^ 48), pa := lo
      op := .store (hi - lo) (BitVec.ofNat 64 (leNat ((bs.drop (lo - pa)).take (hi - lo)))) 0#64 false }

/-- An outside bus master writes over an open link (R408): words of memory, and registers of control space. Where nothing stands
behind an address nothing changes. [DEDUCED: log 10; DESIGN CHOICE: log 11] -/
def outsideWrite (pa : Nat) (bs : List Byte) (s : State) : Result :=
  .next (if answers s (pa / 2 ^ 48) then
    overAll (fun r s => if isThere s r.pa r.op.size then s.send (.req r) else s) (outsideStores pa bs) s
  else s)

/-- A storage word is damaged; where there is none nothing changes. [DEDUCED: log 10] -/
def outsideDamage (pa : Nat) (s : State) : Result :=
  .next (if populated s (pa / 2 ^ 48) && isBacked s (pa / 8 * 8) 8 then damageWord pa s else s)

/-- A line of a block cache has a parity error: it is invalid, and the next fetch fills it again (R50). -/
def dropLine (core line : Nat) (s : State) : State :=
  s.modCore core fun x => { x with blockCache := x.blockCache.filter fun l => l.addr != line / 64 * 64 }

/-! ## The agenda of a cycle -/

/-- The event that a message in flight waits for. [DESIGN CHOICE: log 1] -/
def msgEvent (id : Nat) : Msg → Event
  | .req _ => .memoryRequestArrival id
  | .release _ => .holdRelease id
  | .cancel _ _ _ => .requestCancel id
  | .reply _ _ _ _ _ => .memoryReplyArrival id
  | .combined _ _ => .amaddReplySplit id
  | .barrier _ _ => .barrierOpArrival id
  | .phaseArrive _ _ => .phaseTreeArrival id
  | .phaseRelease _ => .phaseRelease id
  | .remote _ _ _ _ _ => .remoteRequestArrival id
  | .reserveZone _ _ _ _ => .lzReservation id
  | .landing _ _ _ _ _ _ _ => .landingPacket id
  | .abort _ _ _ _ => .senderAbort id
  | .landAck _ _ => .landingSendRetire id
  | .lzfree _ _ _ _ => .lzfreePerform id
  | .packet _ _ _ _ _ _ _ _ _ => .messageArrival id
  | .collective _ _ => .collectiveResult id
  | .reserve _ _ _ _ _ _ _ => .reserve id
  | .reserveAnswer _ _ _ => .reserveAnswer id
  | .start _ _ _ _ => .start id
  | .release_ _ _ => .release id
  | .ended _ _ _ _ => .endedReport id
  | .stall _ _ _ _ _ => .stallWordRequest id
  | .drops _ _ _ => .stallWordRequest id
  | .stallAnswer _ _ _ _ => .holdAnswerArrival id
  | .quarantine _ _ => .quarantineMessage id
  | .tlbi _ _ _ _ _ => .tlbiComplete id
  | .record _ _ _ _ _ => .trapRecordQueue id

/-- A message that has gone unanswered for good may end in FABRIC TIMEOUT (R167). -/
def timesOut : Msg → Bool
  | .packet _ _ _ _ _ _ _ _ _ | .stall _ _ _ _ _ | .stallAnswer _ _ _ _ => true
  | .req _ | .release _ | .cancel _ _ _ | .reply _ _ _ _ _ | .combined _ _ | .barrier _ _ | .phaseArrive _ _
  | .phaseRelease _ | .remote _ _ _ _ _ | .reserveZone _ _ _ _ | .landing _ _ _ _ _ _ _ | .abort _ _ _ _ | .landAck _ _
  | .lzfree _ _ _ _ | .collective _ _ | .reserve _ _ _ _ _ _ _ | .drops _ _ _ | .reserveAnswer _ _ _ | .start _ _ _ _ | .release_ _ _
  | .ended _ _ _ _ | .quarantine _ _ | .tlbi _ _ _ _ _ | .record _ _ _ _ _ => false

/-- The events of an access. -/
def accEvents (a : Acc) : List Event :=
  (match a.st with
    | .refused => [.nackResend a.id]
    | .unready => [.notReadyResend a.id]
    | .walking | .ready | .sent | .granted | .done => []) ++
    (if a.remote.isSome then [.fabricTimeout a.id] else [])

/-- The work queues that a slot's instance names or has popped: their refills may be due (R341). -/
def slotQueues (sl : Slot) : List Nat :=
  match sl.inst with
  | some i => (i.nodes.filterMap fun (n : Node) => match n.instr with
    | some (.qpop _ _ _) => some (Token.value n.left).toNat
    | _ => none)
  | none => []

/-- The events of a slot. -/
def slotEvents (k : Nat) (sl : Slot) : List Event :=
  (if sl.inst.isSome then [.commit k] else []) ++
    (if sl.pending != [] then [.trapTake k] else []) ++
    (match sl.post with
      | (_, .inj _ _) :: _ => [.injSend k]
      | (_, .spawn _ _) :: _ => [.spawnChildStart k]
      | (_, .migr _) :: _ => [.migrationComplete k]
      | _ => []) ++
    (if sl.copies != [] then [.mailboxHandoff k] else []) ++
    (if sl.task.isSome then [.deadlineExpiry k, .holdReleaseParlour k] else []) ++
    (match sl.life with
      | .ending _ => [.threadEnd k]
      | .fetch => [.blockFetch k]
      | .free | .run | .killed => []) ++
    sl.accs.flatMap accEvents ++ (slotQueues sl).map fun d => .refillStart k d

/-- The events of a core. -/
def coreEvents (c : Nat) (co : Core) : List Event :=
  (if co.normQueue != [] then [.normaliserServiceEnd c] else []) ++
    (if co.qbusy.isSome then [.matrixOpComplete c] else []) ++
    (if co.claim.isSome then [.reservationTimeout (2 ^ 80 + c)] else []) ++
    (if co.mailboxes.any fun m => m.2.full then [.copySubmit c] else []) ++
    (co.refills.map fun r => .refillComplete (c * 2 ^ 17 + r.desc)) ++
    (co.refused.map fun r => .parlourRetryTimer c r.1) ++
    (if co.launch != 0 then [.parlourDispatchAttempt c] else []) ++
    co.zslots.flatMap fun z => match z.2.st with
      | .reserved => [.zoneSlotTimeout (4 * c + z.1 / 16) (z.1 % 16)]
      | .filling => [.slotLanded (4 * c + z.1 / 16) (z.1 % 16), .zoneSlotTimeout (4 * c + z.1 / 16) (z.1 % 16)]
      | .free | .landed | .poisoned => []

/-- The events of a copy. -/
def copyEvents (id : Nat) (c : Copy) : List Event :=
  if c.code.isSome then [.copyRetire id]
  else if c.accepted then
    (if c.req.land then [.copyRowTransfer id, .copyRetire id, .landingAckTimeout id] else [.copyRowTransfer id, .copyRetire id])
  else if c.block != [] then [.engineRefusalResubmit (slotCore c.slot) id]
  else []

/-- The events of a module. [DESIGN CHOICE: log 124] -/
def moduleEvents (m : Nat) (x : Module) : List Event :=
  match x.boot with
  | .off => if x.populated then [.coldBoot m] else []
  | .failed _ => []
  | .running =>
    (if bitOf x.watchdog.toNat 63 then [.watchdogExpiry m] else []) ++
      ((List.range 4).map fun i => .grantPeriod (4 * m + i)) ++
      ((List.range 4).map fun i => .handlerThreadStart (4 * m + i)) ++
      (if x.queues != [] then [.launchDecision m] else [])
  | .frozen => (List.range 4).map fun i => .grantPeriod (4 * m + i)

/-- The events of a page walk. -/
def walkEvents (id : Nat) (w : Walk) : List Event := if w.started then [.pageWalkComplete id] else [.pageWalkStart id]

/-- A work queue at whose words a refill that has not begun has its place: core and descriptor. -/
def refillPlaces (q : WordQ) : List (Nat × Nat) :=
  (q.queue.filterMap fun r => match r.src with
    | .refill c d => some (c, d)
    | _ => none) ++ match q.held with
    | some (k, _, _) => if 2 ^ 100 ≤ k ∧ (k - 2 ^ 100) % 8 = 1 then [((k - 2 ^ 100) / 8 / 2 ^ 17, (k - 2 ^ 100) / 8 % 2 ^ 17)] else []
    | none => []

/-- The events that let such a refill begin. -/
def wordEvents (w : Nat) (q : WordQ) : List Event :=
  (if q.held.isSome then [.reservationTimeout w] else []) ++
    (refillPlaces q).flatMap fun x => (List.range 16).map fun n => .refillStart (x.1 * 16 + n) x.2

/-- What the agents of the machine may do in the coming cycle, in one order; an event that is not due yet
changes nothing. [DESIGN CHOICE: log 2, 124] -/
def agentEvents (s : State) : List Event :=
  (s.net.flatMap fun p => msgEvent p.1 p.2 :: if timesOut p.2 then [.fabricTimeout p.1] else []) ++
    (s.walks.flatMap fun p => walkEvents p.1 p.2) ++
    (s.slots.flatMap fun p => slotEvents p.1 p.2) ++
    (s.copies.flatMap fun p => copyEvents p.1 p.2) ++
    (s.cores.flatMap fun p => coreEvents p.1 p.2) ++
    (s.words.flatMap fun p => wordEvents p.1 p.2) ++
    (s.launches.flatMap fun p => if p.2.byColour then [.colourPhaseStart p.1] else []) ++
    s.modules.flatMap fun p => moduleEvents p.1 p.2

/-- The cores that hold an instance. [DESIGN CHOICE: log 2] -/
def busyCores (s : State) : List Nat :=
  (s.slots.filterMap fun p => if p.2.inst.isSome then some (slotCore p.1) else none).eraseDups

/-- The agenda of the coming cycle: the agents, then the issue of every core, then the cycle is over.
[DESIGN CHOICE: log 2] -/
def agenda (s : State) : List Turn :=
  (agentEvents s).map .event ++ (busyCores s).map .issue ++ [.pass 1]

end Sys2Proof.Machine
end

