-- ==== Sys2Proof/Machine/Step.lean ====
section
/-! DEFINITION. One step of the system: one turn, and what follows from it by itself. -/

namespace Sys2Proof.Machine

/-- Go on from a next state. -/
def andThen (r : Host.Outcome State Fault Refusal) (f : State → State) : Host.Outcome State Fault Refusal :=
  match r with
  | .next s => .next (f s)
  | .fault e => .fault e
  | .refused e => .refused e

/-- The instruction of an instance has its meaning, and what follows from it happens. -/
def runInstr (k n : Nat) (i : Instr) (s : State) : Host.Outcome State Fault Refusal :=
  andThen (exec i (atFocus k n s)) (settle exec)

/-- A core issues (R172, R173); a bubble changes nothing. -/
def issueTurn (core : Nat) (s : State) : Host.Outcome State Fault Refusal :=
  match issueOf s core with
  | none => .next s
  | some (k, n) =>
    match instrAt s k n with
    | none => .next s
    | some i => runInstr k n i s

/-- An event happens. -/
def eventTurn (e : Event) (s : State) : Host.Outcome State Fault Refusal := andThen (runEvent e s) (settle exec)

/-- One turn. [DESIGN CHOICE: log 1] -/
def takeTurn (t : Turn) (s : State) : Host.Outcome State Fault Refusal :=
  match t with
  | .issue core => issueTurn core s
  | .event e => eventTurn e s
  | .pass n => .next { s with now := s.now + n }
  | .write pa bs => outsideWrite pa bs s
  | .damage pa => andThen (outsideDamage pa s) (settle exec)
  | .parity core line => .next (dropLine core line s)

/-- One step: the next turn; where no turn waits, the agenda of the coming cycle is drawn up.
[DESIGN CHOICE: log 2; DEDUCED: log 128] -/
def step (s : State) : Host.Outcome State Fault Refusal :=
  match s.turns with
  | [] => .next { s with turns := agenda s }
  | t :: rest => takeTurn t { s with turns := rest }

/-- The tokens that an instruction needs to fire: each operand slot it uses holds 64, and a predicate that
fires on false holds 0. [DESIGN CHOICE: log 3] -/
def readyTokens (n : Node) : Node :=
  let f := n.form
  let p : Word := if f.predicated && f.pred == .onFalse then 0#64 else 64#64
  { n with
    left := if f.left then some (.data 64#64 false) else none
    right := if f.right then some (.data 64#64 false) else none
    third := if f.uses .third then some (.data p false) else none }

/-- The state with an instruction word where the next step fetches: slot 0 of core 0 holds an instance whose
snapshot is that word, with the operands it needs, before a DONE, since every block has an exit (R275, R277);
and core 0 has the next turn. [DESIGN CHOICE: log 3] -/
def State.withFetchWord (s : State) (nbits w : Nat) : State :=
  let n : Node := readyTokens { word := w % 2 ^ nbits }
  { s.modSlot 0 fun _ => { life := .run, inst := some { num := 1, blk := 0, nodes := [n, { word := 0x0C000000 }] } } with
    turns := [.issue 0] }

end Sys2Proof.Machine
end

