-- ==== Sys2Proof/Safety.lean ====
section
/-! DEFINITION. The terms in which claims speak: when an instruction fires and with which operands, what an
operand slot that may take a token is, the agreement of two states outside some place, and the invariant of
memory. -/

namespace Sys2Proof.Safety

open Sys2Proof.Machine

/-- An operand slot of an instruction that uses it holds a data token; one that it does not use is empty. -/
def SlotHolds (used : Bool) (x : Option Token) (v : Word) (poison : Bool) : Prop :=
  if used then x = some (.data v poison) else x = none ∧ v = 0#64 ∧ poison = false

/-- The third slot holds the third operand, or a clean predicate that lets the instruction fire. -/
def ThirdHolds (f : Form) (x : Option Token) (v : Word) (poison : Bool) : Prop :=
  if f.third then x = some (.data v poison)
  else v = 0#64 ∧ poison = false ∧
    (if f.predicated then ∃ q, x = some (.data q false) ∧ predHolds f.pred q = true else x = none)

/-- The instruction in focus is `i` as far as its operand form goes, and it fires now with the operands `o`
(R177). -/
def Fires (s : State) (i : Instr) (o : Fired) : Prop :=
  ∃ n : Node, s.focused = some n ∧ n.st = .idle ∧ SlotHolds (formOf i).left n.left o.l o.lp ∧
    SlotHolds (formOf i).right n.right o.r o.rp ∧ ThirdHolds (formOf i) n.third o.t o.tp ∧
    o.slot = s.focus.slot ∧ o.node = s.focus.node

/-- It fires, and no operand is poisoned. -/
def FiresClean (s : State) (i : Instr) (o : Fired) : Prop := Fires s i o ∧ o.poison = false

/-- The instance of the slot in focus. -/
def InstIs (s : State) (k : Nat) (j : Inst) : Prop := (s.slot k).inst = some j

/-- A target that a token may be sent to: none, or an empty operand slot, used by an instruction that has not
been resolved and that the token does not resolve (R178, R179). -/
def OpenFor (j : Inst) (t : Token) : Tgt → Prop
  | .none => True
  | .to side n => ∃ x, j.nodes[n.toNat]? = some x ∧ x.form.uses side = true ∧ x.slotOf side = none ∧
      ¬(x.st = .idle ∧ x.form.kills side t = true)

/-- The instance with a token in the operand slot of a target. -/
def putToken (j : Inst) (t : Token) : Tgt → Inst
  | .none => j
  | .to side n => j.modNode n.toNat fun x => x.put side t

/-- A table is listed by rising keys, each once. -/
def Rising {α : Type} (t : Tab α) : Prop := t.Pairwise fun a b => a.1 < b.1

/-- Two states have the same memory: its bytes, its full/empty bits and its poison. -/
def SameMemory (s t : State) : Prop := t.mem = s.mem ∧ t.empties = s.empties ∧ t.poison = s.poison

/-- Two slots have the same architectural registers: the general registers, the slot's control registers and
its trap registers. -/
def SameRegs (a b : Slot) : Prop :=
  b.regs = a.regs ∧ b.fpc = a.fpc ∧ b.feRetry = a.feRetry ∧ b.cellInv = a.cellInv ∧ b.sepEps = a.sepEps ∧
    b.sepBeta = a.sepBeta ∧ b.deadline = a.deadline ∧ b.trapCause = a.trapCause ∧ b.trapAddr = a.trapAddr ∧
    b.trapBlock = a.trapBlock ∧ b.trapInfo = a.trapInfo ∧ b.trapVec = a.trapVec

/-- A set of numbers is listed in rising order, each once. -/
def setWfFrom : Nat → List Nat → Bool
  | _, [] => true
  | lo, k :: l => decide (lo ≤ k) && setWfFrom (k + 1) l

/-- Memory is in its canonical form: its bytes, its full/empty bits and its poison. -/
abbrev MemInv (s : State) : Prop :=
  memWf s.mem = true ∧ setWfFrom 0 s.empties = true ∧ setWfFrom 0 s.poison = true

/-- The two states agree on everything but one slot, and but what notes the use of translation-cache entries. -/
def OnlySlot (k : Nat) (s t : State) : Prop :=
  (∀ m, m ≠ k → t.slot m = s.slot m) ∧ SameMemory s t ∧ t.modules = s.modules ∧ t.dies = s.dies ∧
    t.clusters = s.clusters ∧ t.cores = s.cores ∧ t.words = s.words ∧ t.walks = s.walks ∧ t.copies = s.copies ∧
    t.launches = s.launches ∧ t.phases = s.phases ∧ t.collectives = s.collectives ∧ t.net = s.net ∧ t.now = s.now ∧
    t.turns = s.turns ∧ t.focus = s.focus ∧ t.nextId = s.nextId ∧ t.fresh = s.fresh ∧ t.waits = s.waits ∧ t.ages = s.ages ∧
    t.switches = s.switches ∧ t.routes = s.routes

/-- No word is held, and nobody waits for a turn at one or has been turned away (R77, R99, R100). -/
def Idle (s : State) : Prop := s.waits = [] ∧ ∀ p ∈ s.words, p.2.held = none ∧ ∀ r ∈ p.2.queue, r.op ≠ .turn

/-- An instance whose instruction `n` stands elsewhere than before. -/
def stand (j : Inst) (n : Nat) (st : NodeSt) : Inst := j.modNode n fun x => { x with st := st }

/-! ## Results, in bits

What the integer instructions give, said bit by bit and by fixed-width arithmetic: not by the way in which
`Machine/Operands.lean` computes it. `v` is the value sent. -/

/-- A result of a W instruction (R291): 64 bits, or 32 bits sign-extended. -/
def AtWidth (w : Width) (v : Word) (P : (n : Nat) → BitVec n → Prop) : Prop :=
  match w with
  | .w64 => P 64 v
  | .w32 => ∃ x : BitVec 32, P 32 x ∧ v = x.signExtend 64

/-- A W instruction on the low bits of its operands. -/
def ByWidth (w : Width) (f : (n : Nat) → BitVec n → BitVec n → BitVec n) (l r v : Word) : Prop :=
  match w with
  | .w64 => v = f 64 l r
  | .w32 => v = (f 32 (l.setWidth 32) (r.setWidth 32)).signExtend 64

/-- 1 where the condition holds, else 0. -/
def Tells (v : Word) (c : Prop) : Prop := (c → v = 1#64) ∧ (¬c → v = 0#64)

/-- A relation of two operands at a width. -/
def Compare (w : Width) (c : (n : Nat) → BitVec n → BitVec n → Bool) (l r v : Word) : Prop :=
  match w with
  | .w64 => Tells v (c 64 l r = true)
  | .w32 => Tells v (c 32 (l.setWidth 32) (r.setWidth 32) = true)

/-- A condition of CMP (R286). -/
def condOf (c : Cond) (n : Nat) (a b : BitVec n) : Bool :=
  match c with
  | .eq => a == b
  | .ne => a != b
  | .lt => a.slt b
  | .le => a.sle b
  | .ltu => a.ult b
  | .leu => a.ule b

/-- Arithmetic (R230, R286, R301): `l` and `r` are the operands. -/
def arithRule : Instr → Option (Word → Word → Word → Prop)
  | .add _ _ _ w => some (ByWidth w fun _ a b => a + b)
  | .sub _ _ _ w => some (ByWidth w fun _ a b => a - b)
  | .addi _ _ _ i => some fun l _ v => v = l + i.signExtend 64
  | .mul _ _ _ w => some (ByWidth w fun _ a b => a * b)
  | .mulh _ _ _ w => some (ByWidth w fun n a b => (a.signExtend (2 * n) * b.signExtend (2 * n)).extractLsb' n n)
  | .mulhu _ _ _ w => some (ByWidth w fun n a b => (a.setWidth (2 * n) * b.setWidth (2 * n)).extractLsb' n n)
  | .div _ _ _ w => some (ByWidth w fun n a b => if b = 0#n then BitVec.allOnes n else a.sdiv b)
  | .divu _ _ _ w => some (ByWidth w fun n a b => if b = 0#n then BitVec.allOnes n else a / b)
  | .rem _ _ _ w => some (ByWidth w fun n a b => if b = 0#n then a else a.srem b)
  | .remu _ _ _ w => some (ByWidth w fun n a b => if b = 0#n then a else a % b)
  | .min _ _ _ w => some (ByWidth w fun _ a b => if b.slt a then b else a)
  | .max _ _ _ w => some (ByWidth w fun _ a b => if a.slt b then b else a)
  | .minu _ _ _ w => some (ByWidth w fun _ a b => if b.ult a then b else a)
  | .maxu _ _ _ w => some (ByWidth w fun _ a b => if a.ult b then b else a)
  | .absd _ _ _ w => some (ByWidth w fun _ a b => if a.slt b then b - a else a - b)
  | .lea _ _ _ w k => some (ByWidth w fun n a b => a + b <<< (k.toNat % n))
  | .cmp _ _ _ w c => some (Compare w (condOf c))
  | _ => none

/-- Logic, selection, constants and copies (R296 to R298, R301, R302, R307, R310): `t` is the third operand. -/
def logicRule : Instr → Option (Word → Word → Word → Word → Prop)
  | .and _ _ _ w => some fun l r _ v => ByWidth w (fun _ a b => a &&& b) l r v
  | .or _ _ _ w => some fun l r _ v => ByWidth w (fun _ a b => a ||| b) l r v
  | .xor _ _ _ w => some fun l r _ v => ByWidth w (fun _ a b => a ^^^ b) l r v
  | .andn _ _ _ w => some fun l r _ v => ByWidth w (fun _ a b => a &&& ~~~b) l r v
  | .orn _ _ _ w => some fun l r _ v => ByWidth w (fun _ a b => a ||| ~~~b) l r v
  | .lut3 _ _ i => some fun l r t v => ∀ j < 64,
      v.getLsbD j = i.getLsbD (4 * (l.getLsbD j).toNat + 2 * (r.getLsbD j).toNat + (t.getLsbD j).toNat)
  | .sel _ _ => some fun l r t v => (t ≠ 0#64 → v = l) ∧ (t = 0#64 → v = r)
  | .mov _ _ _ => some fun l _ _ v => v = l
  | .const _ _ k => some fun _ _ _ v => v = k.setWidth 64
  | .consth _ _ k => some fun l _ _ v => v = l <<< 15 ||| k.setWidth 64
  | .hasha _ _ _ => some fun l r _ v => ∀ j < 64,
      v.getLsbD j = (((l * 0xD6E8FEB86659FD93#64).getLsbD j ^^ (l * 0xD6E8FEB86659FD93#64).getLsbD (j + 32)) && r.getLsbD j)
  | .test _ _ _ m => some fun l _ _ v => match m with
    | .nz => Tells v (l ≠ 0#64)
    | .z => Tells v (l = 0#64)
    | .neg => Tells v (l.getLsbD 63 = true)
    | .bit k => Tells v (l.getLsbD k.toNat = true)
  | _ => none

/-- Counting and reversing bits (R301). -/
def bitRule : Instr → Option (Word → Word → Prop)
  | .clz _ _ _ w => some fun l v => AtWidth w v fun n x => ∃ c ≤ n, x = BitVec.ofNat n c ∧
      (∀ j < c, l.getLsbD (n - 1 - j) = false) ∧ (c < n → l.getLsbD (n - 1 - c) = true)
  | .ctz _ _ _ w => some fun l v => AtWidth w v fun n x => ∃ c ≤ n, x = BitVec.ofNat n c ∧
      (∀ j < c, l.getLsbD j = false) ∧ (c < n → l.getLsbD c = true)
  | .popc _ _ _ w => some fun l v => AtWidth w v fun n x =>
      x = BitVec.ofNat n ((List.range n).countP fun j => l.getLsbD j)
  | .brev _ _ _ w => some fun l v => AtWidth w v fun n x => ∀ j < n, x.getLsbD j = l.getLsbD (n - 1 - j)
  | .bswap _ _ _ w => some fun l v => AtWidth w v fun n x =>
      ∀ j < n, x.getLsbD j = l.getLsbD (8 * (n / 8 - 1 - j / 8) + j % 8)
  | _ => none

/-- Shifts, funnels and fields (R301, R303 to R306). -/
def shiftRule : Instr → Option (Word → Word → Word → Word → Prop)
  | .shl _ _ _ w => some fun l r _ v => ByWidth w (fun n a b => a <<< (b.toNat % n)) l r v
  | .shr _ _ _ w => some fun l r _ v => ByWidth w (fun n a b => a >>> (b.toNat % n)) l r v
  | .sar _ _ _ w => some fun l r _ v => ByWidth w (fun n a b => a.sshiftRight (b.toNat % n)) l r v
  | .shli _ _ _ w k => some fun l r _ v => ByWidth w (fun n a _ => a <<< (k.toNat % n)) l r v
  | .shri _ _ _ w k => some fun l r _ v => ByWidth w (fun n a _ => a >>> (k.toNat % n)) l r v
  | .sari _ _ _ w k => some fun l r _ v => ByWidth w (fun n a _ => a.sshiftRight (k.toNat % n)) l r v
  | .rol _ _ _ w => some fun l r _ v => ByWidth w (fun n a b => a.rotateLeft (b.toNat % n)) l r v
  | .fshl _ _ w => some fun l r t v => ByWidth w (fun n a b => ((a ++ b) <<< (t.toNat % n)).extractLsb' n n) l r v
  | .fshr _ _ w => some fun l r t v => ByWidth w (fun n a b => ((a ++ b) >>> (t.toNat % n)).setWidth n) l r v
  | .ext _ _ _ signed k => some fun l r _ v => ∀ j < 64,
      v.getLsbD j = if j ≤ k.toNat then l.getLsbD (r.toNat % 64 + j) else signed && l.getLsbD (r.toNat % 64 + k.toNat)
  | .ins _ _ _ len k => some fun l r _ v => ∀ j < 64,
      v.getLsbD j = if k.toNat ≤ j ∧ j < k.toNat + len.bits then r.getLsbD (j - k.toNat) else l.getLsbD j
  | .sext _ _ _ k => some fun l _ _ v => v = (l.setWidth (k.toNat + 1)).signExtend 64
  | .zext _ _ _ k => some fun l _ _ v => v = (l.setWidth (k.toNat + 1)).setWidth 64
  | _ => none

/-- A lane's exact result reduced as the mode says (R311). -/
def laneRule (m : PMode) (n : Nat) (op : Int → Int → Int) (a b x : BitVec n) : Prop :=
  match m with
  | .wrap => x = BitVec.ofInt n (op a.toNat b.toNat)
  | .signedSat => x.toInt = max (-2 ^ (n - 1)) (min (op a.toInt b.toInt) (2 ^ (n - 1) - 1))
  | .unsignedSat => (x.toNat : Int) = max 0 (min (op a.toNat b.toNat) (2 ^ n - 1))

/-- Every lane of the operands and of the result (R311). -/
def EachLane (l : Lanes) (P : (n : Nat) → BitVec n → BitVec n → BitVec n → Prop) (a b v : Word) : Prop :=
  ∀ k < 64 / laneBits l, P (laneBits l) (a.extractLsb' (laneBits l * k) (laneBits l))
    (b.extractLsb' (laneBits l * k) (laneBits l)) (v.extractLsb' (laneBits l * k) (laneBits l))

/-- The packed instructions (R311). -/
def packedRule : Instr → Option (Word → Word → Word → Prop)
  | .padd _ _ _ m l => some (EachLane l fun n => laneRule m n (· + ·))
  | .psub _ _ _ m l => some (EachLane l fun n => laneRule m n (· - ·))
  | .pmul _ _ _ m l => some (EachLane l fun n => laneRule m n (· * ·))
  | .pmax _ _ _ unsigned l => some (EachLane l fun _ a b x =>
      x = if unsigned then (if a.ult b then b else a) else (if a.slt b then b else a))
  | _ => none

/-! ## Exits and accesses -/

/-- POISON of a token that an instruction would use (R63, R292, R320, R334). -/
def poisonedOperand : Trap := { cause := 0x07, addr := 0, info := 0x60 }

/-- The exit that an instruction takes, and its exit number (R275, R299, R300, R350). -/
def exitRule : Instr → Option (Inst → Fired → Exit × Nat)
  | .br _ e d => some fun j _ => (.br ((j.blk + 4 * d.toInt) % 2 ^ 64).toNat, e.toNat)
  | .brr _ e => some fun _ o => (.br o.l.toNat, e.toNat)
  | .call _ e d => some fun j _ => (.call ((j.blk + 4 * d.toInt) % 2 ^ 64).toNat, e.toNat)
  | .callr _ e => some fun _ o => (.call o.l.toNat, e.toNat)
  | .done _ e => some fun _ _ => (.done, e.toNat)
  | .trap _ c => some fun _ o => (.trap c.toNat o.l, 0)
  | .repost _ e => some fun _ o => (.repost o.l, e.toNat)
  | _ => none

/-- Only a task may repost itself (R350). -/
def needsTask : Instr → Bool
  | .repost _ _ => true
  | _ => false

/-- How a local access of an instruction is made (R320 to R323, R325, R330, R331): when it performs, whether
R70 orders it, what it does, and its address: left + offset × size, modulo 2^64 (R271, R284, R285). -/
structure AccessRule where
  kind : PerformKind
  ordered : Bool
  lsid : BitVec 5
  op : Fired → MemOp
  unit : Nat
  off : Int
  /-- a pure store takes poisoned data -/
  pure : Bool

/-- A load. -/
def loadRule (l : BitVec 5) (rlx : Bool) (off : BitVec 8) (n : Nat) (signed : Bool) : Option AccessRule :=
  some { kind := .inBlock, ordered := !rlx, lsid := l, op := fun _ => .load n signed, unit := n, off := off.toInt, pure := false }

/-- A store. -/
def storeRule (l : BitVec 5) (rlx : Bool) (off : BitVec 8) (n : Nat) : Option AccessRule :=
  some { kind := .commitTime, ordered := !rlx, lsid := l, op := fun o => .store n o.r o.t o.poison, unit := n
         off := off.toInt, pure := true }

/-- An operation on one word, or on a barrier object of 16 bytes. -/
def wordRule (l : BitVec 5) (off : BitVec 8) (unit : Nat) (kind : PerformKind) (pure : Bool) (op : Fired → MemOp) :
    Option AccessRule :=
  some { kind := kind, ordered := true, lsid := l, op := op, unit := unit, off := off.toInt, pure := pure }

/-- A holding operation. -/
def holdRule (l : BitVec 5) (w : Width) (off : BitVec 6) (op : Fired → MemOp) : Option AccessRule :=
  some { kind := .holding, ordered := true, lsid := l, op := op, unit := if w = .w64 then 8 else 4, off := off.toInt, pure := false }

/-- The accesses of opcodes 0x60 to 0x80. -/
def accessRule : Instr → Option AccessRule
  | .ld8 _ _ l rlx o => loadRule l rlx o 1 true
  | .ld8u _ _ l rlx o => loadRule l rlx o 1 false
  | .ld16 _ _ l rlx o => loadRule l rlx o 2 true
  | .ld16u _ _ l rlx o => loadRule l rlx o 2 false
  | .ld32 _ _ l rlx o => loadRule l rlx o 4 true
  | .ld32u _ _ l rlx o => loadRule l rlx o 4 false
  | .ld64 _ _ l rlx o => loadRule l rlx o 8 false
  | .ld128 _ _ l rlx o => loadRule l rlx o 16 false
  | .st8 _ l rlx o => storeRule l rlx o 1
  | .st16 _ l rlx o => storeRule l rlx o 2
  | .st32 _ l rlx o => storeRule l rlx o 4
  | .st64 _ l rlx o => storeRule l rlx o 8
  | .st128 l rlx o => storeRule l rlx o 16
  | .ldsync _ _ l o => wordRule l o 8 .holding false fun _ => .ldsync
  | .stsync _ l o => wordRule l o 8 .holding true fun x => .stsync x.r x.rp
  | .ldff _ _ l o => wordRule l o 8 .inBlock false fun _ => .ldff
  | .stff _ l o => wordRule l o 8 .commitTime true fun x => .stff x.r x.rp
  | .sete _ l o => wordRule l o 8 .commitTime false fun _ => .sete
  | .festat _ _ l o => wordRule l o 8 .inBlock false fun _ => .festat
  | .mwait _ _ l o => wordRule l o 8 .inBlock false fun x => .mwait x.r
  | .barj _ l o => wordRule l o 16 .commitTime false fun _ => .barj
  | .bara _ l o => wordRule l o 16 .commitTime false fun _ => .bara
  | .barx _ l o => wordRule l o 16 .commitTime false fun _ => .barx
  | .barw _ _ l o => wordRule l o 16 .inBlock false fun x => .barw (x.r.toNat % 65536)
  | .rsv _ _ l w n => holdRule l w n fun _ => .rsv w
  | .cas _ l w n => holdRule l w n fun x => .cas w x.r x.t
  | .swap _ _ l w n => holdRule l w n fun x => .swap w x.r
  | .amin _ _ l w u n => holdRule l w n fun x => .amin w u x.r
  | .amax _ _ l w u n => holdRule l w n fun x => .amax w u x.r
  | _ => none

/-- The address of an access. -/
def AccessRule.va (R : AccessRule) (o : Fired) : Nat := ((o.l.toNat + R.off * R.unit) % 2 ^ 64).toNat

/-- The operands let the access be made: a clean address, and clean data unless it is a pure store (R320). -/
def AccessRule.mayUse (R : AccessRule) (o : Fired) : Prop := o.lp = false ∧ (R.pure = true ∨ o.poison = false)

/-- What the access asks of the checks of R32. -/
def AccessRule.want (R : AccessRule) (o : Fired) : Want :=
  { core := slotCore o.slot, sys := systemSlot o.slot, va := R.va o, size := (R.op o).size, use := (R.op o).use }

/-- The access as it is queued. -/
def AccessRule.acc (R : AccessRule) (o : Fired) (s : State) (j : Inst) (pa : Nat) : Acc :=
  { id := s.nextId, inst := j.num, lsid := R.lsid.toNat, node := o.node, kind := R.kind, ordered := R.ordered
    op := R.op o, va := R.va o, pa := pa, asid := (s.core (slotCore o.slot)).xlatAsid.toNat, blk := (s.slot o.slot).blk }

/-- The listing that later checks of the instance use, after a BARJ or a BARX (R331). -/
def listed (op : MemOp) (pa : Nat) (l : List Nat) : List Nat :=
  match op with
  | .barj => l ++ [pa]
  | .barx => l.erase pa
  | _ => l

/-- REL and RELN of a local word (R325). -/
def releaseRule : Instr → Option AccessRule
  | .rel _ l w n => some { kind := .commitTime, ordered := true, lsid := l, op := fun x => .rel w x.r
                           unit := if w = .w64 then 8 else 4, off := n.toInt, pure := false }
  | .reln _ l w n => some { kind := .commitTime, ordered := true, lsid := l, op := fun _ => .reln w
                            unit := if w = .w64 then 8 else 4, off := n.toInt, pure := false }
  | _ => none

/-- The remote operations by global name: RLD, RST, RAT and RADD (R354, R355). They are never ordered by R70 (R80). -/
def remoteRule : Instr → Option AccessRule
  | .rld _ _ l _ o => some { kind := .inBlock, ordered := false, lsid := l, op := fun _ => .load 8 false, unit := 8
                             off := o.toInt, pure := false }
  | .rst _ l o => some { kind := .commitTime, ordered := false, lsid := l, op := fun x => .store 8 x.r 0#64 x.rp
                         unit := 8, off := o.toInt, pure := true }
  | .rat _ _ l w n => some { kind := .holding, ordered := false, lsid := l, op := fun _ => .rsv w
                             unit := if w = .w64 then 8 else 4, off := n.toInt, pure := false }
  | .radd _ l w n => some { kind := .commitTime, ordered := false, lsid := l, op := fun x => .amadd w x.r none
                            unit := if w = .w64 then 8 else 4, off := n.toInt, pure := false }
  | _ => none

/-- The address of a remote operation within the module that its global name names (R354). -/
def AccessRule.far (R : AccessRule) (o : Fired) : Int := (o.l.toNat % 2 ^ 48 : Nat) + R.off * R.unit

/-- A remote access as it is queued. -/
def AccessRule.remoteAcc (R : AccessRule) (o : Fired) (s : State) (j : Inst) : Acc :=
  { id := s.nextId, inst := j.num, lsid := R.lsid.toNat, node := o.node, kind := R.kind, ordered := false
    op := R.op o, va := o.l.toNat / 2 ^ 48 * 2 ^ 48 + (R.far o).toNat, pa := (R.far o).toNat
    remote := some (o.l.toNat / 2 ^ 48), asid := (s.core (slotCore o.slot)).xlatAsid.toNat, blk := (s.slot o.slot).blk }

/-- The access of an AMADD (R104, R325). -/
def amaddRule (l : BitVec 5) (rlx : Bool) (w : Width) (n : BitVec 6) (reg : Option Nat) : AccessRule :=
  { kind := .commitTime, ordered := !rlx, lsid := l, op := fun o => .amadd w o.r reg
    unit := if w = .w64 then 8 else 4, off := n.toInt, pure := false }

/-- The state in which an access has been entered: only the access, the instruction's place, its LSID and the listing
of the instance have changed. -/
def Entered (s t : State) (o : Fired) (j : Inst) (a : Acc) : Prop :=
  OnlySlot o.slot { s with nextId := s.nextId + 1 } t ∧
    t.slot o.slot = { s.slot o.slot with
      accs := (s.slot o.slot).accs ++ [a]
      inst := some { stand j o.node (if a.kind = .commitTime then .fired else .waiting) with
        lsids := tabPut j.lsids a.lsid .fired, members0 := listed a.op a.pa j.members0 } }

/-- Where an access that has a location may leave its slot: neither BARA nor PHASE, which wait for more (R64, R67, R70, R73, R75,
R76, R84, R121). An ordered commit-time operation of its own instance holds nothing back before commit. -/
def MayLeave (s : State) (k : Nat) (a : Acc) : Prop :=
  let sl := s.slot k
  let earlier (b : Acc) : Prop := b.inst < a.inst ∨ b.inst = a.inst ∧ b.lsid < a.lsid
  let settled (b : Acc) : Prop :=
    b.st = .done ∨ b.st = .granted ∨ b.inst = a.inst ∧ b.kind = .commitTime ∧ a.committed = false
  a.st = .ready ∧
  (a.committed = false → a.kind ≠ .commitTime ∧
    (∃ i, sl.inst = some i ∧ ∀ n ∈ i.nodes, ∀ l, n.form.lsid = some l → l.toNat < a.lsid → tabFind i.lsids l.toNat ≠ none) ∧
    ∀ b ∈ sl.accs, earlier b → b.st ≠ .walking) ∧
  (a.ordered = true → ∀ b ∈ sl.accs, b.ordered = true → b.id ≠ a.id →
    b.st ≠ .sent ∧ b.st ≠ .refused ∧ b.st ≠ .unready ∧ (earlier b → settled b)) ∧
  (∀ b ∈ sl.accs, b.id ≠ a.id → earlier b → b.remote = a.remote → b.pa / 8 ≤ (a.pa + a.op.size - 1) / 8 →
    a.pa / 8 ≤ (b.pa + b.op.size - 1) / 8 → settled b) ∧
  (∀ f ∈ sl.fences, ¬f.inst < a.inst ∧ ¬(f.inst = a.inst ∧ a.committed = true ∧ f.lsid < a.lsid)) ∧
  (∀ b ∈ sl.accs, b.inst < a.inst → ∀ level, b.op ≠ .phase level) ∧
  ∀ r ∈ (s.core (slotCore k)).scoreboard, a.remote = none → poolBase (slotCore k) ≤ a.pa → a.pa < poolBase (slotCore k) + 0x18000 →
    r.scale = false → (r.write = true ∨ a.op.changes = true) →
    poolBase (slotCore k) + r.hi ≤ a.pa ∨ a.pa + a.op.size ≤ poolBase (slotCore k) + r.lo

/-- No access of the slot bears the next number. -/
def FreshId (s : State) (k : Nat) : Prop := ∀ b ∈ (s.slot k).accs, b.id ≠ s.nextId

/-! ## Floating point -/

/-- The formats of R221. -/
def formats : List FloatFmt :=
  [fmtE11M52, fmtE8M23, fmtE8M10, fmtE5M10, fmtE8M7, fmtE4M3, fmtE5M2, fmtE3M2, fmtE2M3, fmtE2M1]

/-- A finite value in units of 2^k, for a k at or below its exponent. -/
def inUnits (k : Int) (neg : Bool) (m : Nat) (e : Int) : Int := (if neg then -1 else 1) * m * 2 ^ (e - k).toNat

/-- A value in units of 2^k, where it is finite. -/
def unitsIn (k : Int) : Val → Int
  | .fin n m e => inUnits k n m e
  | .nan | .inf _ => 0

/-- Of an exact value X, the rounded Y is what a mode asks for, as seen from one value Z of the format (R225). -/
def roundedFor (mode : Rounding) (X Y Z : Int) (yEven : Bool) : Prop :=
  match mode with
  | .rne => (Y - X).natAbs ≤ (Z - X).natAbs ∧ ((Y - X).natAbs = (Z - X).natAbs → Z ≠ Y → yEven = true)
  | .rz => Y.natAbs ≤ X.natAbs ∧ 0 ≤ X * Y ∧ (Z.natAbs ≤ X.natAbs → 0 ≤ Z * X → Z.natAbs ≤ Y.natAbs)
  | .ru => X ≤ Y ∧ (X ≤ Z → Y ≤ Z)
  | .rd => Y ≤ X ∧ (Z ≤ X → Z ≤ Y)

/-- The exponent field of an operand read in F. -/
def expField (f : FForm) (x : Word) : Nat :=
  match f with
  | .e11m52 => fld x.toNat 52 11
  | .e8m23 => fld x.toNat 23 8

/-- Its fraction field. -/
def fracField (f : FForm) (x : Word) : Nat :=
  match f with
  | .e11m52 => fld x.toNat 0 52
  | .e8m23 => fld x.toNat 0 23

/-- Its sign. -/
def signField (f : FForm) (x : Word) : Bool :=
  match f with
  | .e11m52 => x.getLsbD 63
  | .e8m23 => x.getLsbD 31

/-- The greatest exponent field. -/
def expOnes : FForm → Nat
  | .e11m52 => 2047
  | .e8m23 => 255

/-- The class of an operand, by the bit of FCLASS (R315). -/
def classOf (f : FForm) (x : Word) : Nat :=
  if expField f x = expOnes f then (if fracField f x = 0 then (if signField f x then 0 else 7) else 8)
  else if expField f x = 0 then
    (if fracField f x = 0 then (if signField f x then 3 else 4) else (if signField f x then 2 else 5))
  else (if signField f x then 1 else 6)

/-- The value of an operand read in F by its fields (R221, R312). -/
def fieldValue (f : FForm) (x : Word) : Val :=
  let bits : Nat := match f with
    | .e11m52 => 52
    | .e8m23 => 23
  let bias : Int := match f with
    | .e11m52 => 1023
    | .e8m23 => 127
  let e : Int := expField f x
  if expField f x = expOnes f then (if fracField f x = 0 then .inf (signField f x) else .nan)
  else if expField f x = 0 then .fin (signField f x) (fracField f x) (1 - bias - bits)
  else .fin (signField f x) (2 ^ bits + fracField f x) (e - bias - bits)

/-- The operand is subnormal (R228). -/
def subnormal (f : FForm) (x : Word) : Bool := classOf f x == 2 || classOf f x == 5

/-- The bits of an operand that F reads; the others are 0 (R312). -/
def operandBits (f : FForm) (x : Word) : Word :=
  match f with
  | .e11m52 => x
  | .e8m23 => (x.setWidth 32).setWidth 64

/-- The canonical NaN (R223). -/
def nanBits : FForm → Word
  | .e11m52 => 0x7FF8000000000000#64
  | .e8m23 => 0x7FC00000#64

/-- x is less than y; −0 and +0 are equal, and NaN has no order (R287). -/
def ValLt (x y : Val) : Prop :=
  match x, y with
  | .nan, _ | _, .nan => False
  | .inf a, .inf b => a = true ∧ b = false
  | .inf a, .fin _ _ _ => a = true
  | .fin _ _ _, .inf b => b = false
  | .fin a m e, .fin b n g => inUnits (min e g) a m e < inUnits (min e g) b n g

/-- FCMP of two operands that are not NaN (R287). -/
def condHolds (c : FCond) (x y : Val) : Prop :=
  match c with
  | .eq => ¬ValLt x y ∧ ¬ValLt y x
  | .lt => ValLt x y
  | .le => ¬ValLt y x
  | .un => False
  | .ne => ValLt x y ∨ ValLt y x

/-- The exact value `x`, invalid or not, rounded once in the mode (R225, R226, R228): `sub` says whether an operand is
subnormal. -/
def OnceRounded (f : FForm) (mode : Rounding) (x : Val × Bool) (sub : Bool) (res : FResult) : Prop :=
  let r := roundTo (formatF f) mode x.1
  res.v = BitVec.ofNat 64 r.bits ∧ res.flags = { r.flags with nv := r.flags.nv || x.2 } ∧ res.slow = (sub || r.tiny)

/-- FMIN and FMAX (R314): of a NaN and another operand the other; else an operand that the other does not pass, −0 standing
below +0. -/
def Selects (greatest : Bool) (f : FForm) (l r : Word) (res : FResult) : Prop :=
  let passes (x y : Word) : Prop :=
    if greatest then ValLt (fVal f x) (fVal f y) ∨ classOf f x = 3 ∧ classOf f y = 4
    else ValLt (fVal f y) (fVal f x) ∨ classOf f x = 4 ∧ classOf f y = 3
  res.flags = {} ∧ res.slow = (subnormal f l || subnormal f r) ∧
    if classOf f l = 8 ∧ classOf f r = 8 then res.v = nanBits f
    else if classOf f l = 8 then res.v = operandBits f r
    else if classOf f r = 8 then res.v = operandBits f l
    else ∃ x ∈ [l, r], res.v = operandBits f x ∧ ¬passes x l ∧ ¬passes x r

/-- FSGN: every bit but the sign is that of the left operand (R314). -/
def SignReplaced (f : FForm) (g : SgnOp) (l r : Word) (res : FResult) : Prop :=
  res.flags = {} ∧ res.slow = (subnormal f l || subnormal f r) ∧
    (∀ j < 64, j ≠ (if f = .e11m52 then 63 else 31) → res.v.getLsbD j = (operandBits f l).getLsbD j) ∧
    signField f res.v = match g with
      | .copy => signField f r
      | .neg => !signField f r
      | .xor => signField f l != signField f r

/-- An integer is what a mode makes of a finite value (R225, R229). -/
def IntegerFor (mode : Rounding) (neg : Bool) (m : Nat) (e : Int) (y : Int) : Prop :=
  ∀ (k : Int), k ≤ 0 → k ≤ e → ∀ z : Int,
    roundedFor mode (inUnits k neg m e) (y * 2 ^ (-k).toNat) (z * 2 ^ (-k).toNat) (y % 2 == 0)

/-- A finite value is an integer. -/
def isInteger (neg : Bool) (m : Nat) (e : Int) (y : Int) : Prop :=
  ∀ k : Int, k ≤ 0 → k ≤ e → inUnits k neg m e = y * 2 ^ (-k).toNat

/-- FRND (R314): NaN, infinities and zeros stay; else the integer of the mode, its sign kept where it is 0. -/
def RoundedToIntegral (f : FForm) (mode : Rounding) (l : Word) (res : FResult) : Prop :=
  match fVal f l with
  | .nan => res = ⟨nanBits f, {}, false⟩
  | .inf _ => res = ⟨operandBits f l, {}, false⟩
  | .fin n m e => ∃ (y : Int) (m' : Nat) (e' : Int), IntegerFor mode n m e y ∧ fVal f res.v = .fin n m' e' ∧ isInteger n m' e' y ∧
      (res.flags = {} ∨ res.flags = { nx := true }) ∧ (res.flags.nx = false ↔ isInteger n m e y) ∧
      res.slow = (subnormal f l || (m != 0 && y == 0)) ∧ operandBits f res.v = res.v

/-- The least and the greatest number of an integer type (R317). -/
def leastOf : IntTy → Int
  | .s64 => -2 ^ 63
  | .s32 => -2 ^ 31
  | .u64 | .u32 => 0

/-- The greatest. -/
def greatestOf : IntTy → Int
  | .s64 => 2 ^ 63 - 1
  | .u64 => 2 ^ 64 - 1
  | .s32 => 2 ^ 31 - 1
  | .u32 => 2 ^ 32 - 1

/-- FTOI (R229, R317): the integer of the mode, or the end of the range that it passes, sign- or zero-extended; NaN gives 0. -/
def ToInteger (f : FForm) (ty : IntTy) (mode : Rounding) (l : Word) (res : FResult) : Prop :=
  match fVal f l with
  | .nan => res = ⟨0#64, { nv := true }, false⟩
  | .inf n => res = ⟨BitVec.ofInt 64 (if n then leastOf ty else greatestOf ty), { nv := true }, false⟩
  | .fin n m e => ∃ y : Int, IntegerFor mode n m e y ∧ res.slow = (subnormal f l || (m != 0 && y == 0)) ∧
      if y < leastOf ty then res.v = BitVec.ofInt 64 (leastOf ty) ∧ res.flags = { nv := true }
      else if greatestOf ty < y then res.v = BitVec.ofInt 64 (greatestOf ty) ∧ res.flags = { nv := true }
      else res.v = BitVec.ofInt 64 y ∧ (res.flags = {} ∨ res.flags = { nx := true }) ∧ (res.flags.nx = false ↔ isInteger n m e y)

/-- The integer that ITOF reads (R317). -/
def integerOf (ty : IntTy) (l : Word) : Int :=
  match ty with
  | .s64 => l.toInt
  | .u64 => l.toNat
  | .s32 => (l.setWidth 32).toInt
  | .u32 => (l.setWidth 32).toNat

/-- The partner formats of FCVT (R316). -/
def partnerOf (f : FForm) : Partner → FloatFmt
  | .other => if f = .e11m52 then fmtE8M23 else fmtE11M52
  | .e8m10 => fmtE8M10
  | .e5m10 => fmtE5M10
  | .e8m7 => fmtE8M7
  | .e4m3 => fmtE4M3
  | .e5m2 => fmtE5M2
  | .e3m2 => fmtE3M2
  | .e2m3 => fmtE2M3

/-- A pattern of one format converted to another: its value rounded once (R229). -/
def Converted (src dst : FloatFmt) (mode : Rounding) (pattern : Nat) (bits : Nat) (flags : Flags) (slow : Bool) : Prop :=
  let r := roundTo dst mode (valueOf src (pattern % 2 ^ patternBits src))
  bits = r.bits ∧ flags = r.flags ∧ slow = (isSubnormal src (pattern % 2 ^ patternBits src) || r.tiny)

/-- The partner formats of VCVT2, and the widths of their containers (R319). -/
def pairPartner : VPartner → FloatFmt × Nat
  | .e5m10 => (fmtE5M10, 16)
  | .e8m7 => (fmtE8M7, 16)
  | .e4m3 => (fmtE4M3, 8)
  | .e5m2 => (fmtE5M2, 8)
  | .e3m2 => (fmtE3M2, 8)
  | .e2m3 => (fmtE2M3, 8)
  | .e2m1 => (fmtE2M1, 4)

/-- A lane as an operand (R318). -/
def laneOf (k : Nat) (x : Word) : Word := (x.extractLsb' (32 * k) 32).setWidth 64

/-- Two elements stand side by side in `n` bits each; their flags are ORed (R227, R318, R319). -/
def SideBySide (n : Nat) (a b : Nat × Flags × Bool) (res : FResult) : Prop :=
  res.v.toNat = a.1 + b.1 * 2 ^ n ∧ res.flags.bits = a.2.1.bits ||| b.2.1.bits ∧ res.slow = (a.2.2 || b.2.2)

/-- Both lanes, each of which is rounded once (R318). -/
def InLanes (g : Nat → Val × Bool) (sub : Nat → Bool) (mode : Rounding) (res : FResult) : Prop :=
  ∃ a b : FResult, OnceRounded .e8m23 mode (g 0) (sub 0) a ∧ OnceRounded .e8m23 mode (g 1) (sub 1) b ∧
    SideBySide 32 (a.v.toNat, a.flags, a.slow) (b.v.toNat, b.flags, b.slow) res

/-- m × 2^e lies from (128 + k) × 2^(b − 7) on and below (129 + k) × 2^(b − 7): it is 1.m × 2^b with the top fraction bits k
(R231). -/
def SeedIndex (m : Nat) (e b : Int) (k : Nat) : Prop :=
  k < 128 ∧ ∀ u : Int, u ≤ e → u ≤ b - 7 →
    (128 + k) * 2 ^ (b - 7 - u).toNat ≤ m * 2 ^ (e - u).toNat ∧ m * 2 ^ (e - u).toNat < (129 + k) * 2 ^ (b - 7 - u).toNat

/-- n is the floor of a value, and j that of 128 times what is left (R231). -/
def FloorParts (neg : Bool) (m : Nat) (e n : Int) (j : Nat) : Prop :=
  j < 128 ∧ ∀ u : Int, u ≤ e → u ≤ -7 →
    (128 * n + j) * 2 ^ (-7 - u).toNat ≤ inUnits u neg m e ∧ inUnits u neg m e < (128 * n + j + 1) * 2 ^ (-7 - u).toNat

/-- FRCP (R231, R232): Q / 4096 is nearest to 1 / (1 + (k + 0.5) / 128). -/
def ReciprocalSeed (f : FForm) (mode : Rounding) (l : Word) (res : FResult) : Prop :=
  match fVal f l with
  | .nan => OnceRounded f mode (.nan, false) false res
  | .inf n => OnceRounded f mode (.fin n 0 0, false) false res
  | .fin n 0 _ => OnceRounded f mode (.inf n, false) false { res with flags := { res.flags with dz := false } } ∧ res.flags.dz = true
  | .fin n m e => ∃ (b : Int) (k q : Nat), SeedIndex m e b k ∧ 2 * q * (257 + 2 * k) < 2 ^ 21 + (257 + 2 * k) ∧
      2 ^ 21 < (2 * q + 1) * (257 + 2 * k) ∧ OnceRounded f mode (.fin n q (-12 - b), false) (subnormal f l) res

/-- FRSQ (R231, R232): Q / 4096 is nearest to 1 / √(2^p × (1 + (k + 0.5) / 128)). -/
def RootSeed (f : FForm) (mode : Rounding) (l : Word) (res : FResult) : Prop :=
  match fVal f l with
  | .nan => OnceRounded f mode (.nan, false) false res
  | .inf n => OnceRounded f mode (if n then (.nan, true) else (.fin false 0 0, false)) false res
  | .fin n 0 _ => OnceRounded f mode (.inf n, false) false { res with flags := { res.flags with dz := false } } ∧ res.flags.dz = true
  | .fin true _ _ => OnceRounded f mode (.nan, true) (subnormal f l) res
  | .fin false m e => ∃ (b h : Int) (p k q : Nat), SeedIndex m e b k ∧ p < 2 ∧ b = 2 * h + p ∧
      (2 * q - 1) ^ 2 * (2 ^ p * (257 + 2 * k)) < 2 ^ 34 ∧ 2 ^ 34 < (2 * q + 1) ^ 2 * (2 ^ p * (257 + 2 * k)) ∧
      OnceRounded f mode (.fin false q (-12 - h), false) (subnormal f l) res

/-- FEXP2S (R231, R232): Q / 2048 is nearest to 2^((j + 0.5) / 128). -/
def ExponentialSeed (f : FForm) (mode : Rounding) (l : Word) (res : FResult) : Prop :=
  match fVal f l with
  | .nan => OnceRounded f mode (.nan, false) false res
  | .inf n => OnceRounded f mode (if n then .fin false 0 0 else .inf false, false) false res
  | .fin _ 0 _ => OnceRounded f mode (.fin false 1 0, false) false res
  | .fin s m e => ∃ (n : Int) (j q : Nat), FloorParts s m e n j ∧ (2 * q - 1) ^ 256 < 2 ^ (3072 + 2 * j + 1) ∧
      2 ^ (3072 + 2 * j + 1) < (2 * q + 1) ^ 256 ∧ OnceRounded f mode (.fin false q (n - 11), false) (subnormal f l) res

/-- FLOG2S (R231, R232): Q / 4096 is nearest to log2(1 + (k + 0.5) / 128). -/
def LogarithmSeed (f : FForm) (mode : Rounding) (l : Word) (res : FResult) : Prop :=
  match fVal f l with
  | .nan => OnceRounded f mode (.nan, false) false res
  | .inf n => OnceRounded f mode (if n then (.nan, true) else (.inf false, false)) false res
  | .fin _ 0 _ =>
    OnceRounded f mode (.inf true, false) false { res with flags := { res.flags with dz := false } } ∧ res.flags.dz = true
  | .fin true _ _ => OnceRounded f mode (.nan, true) (subnormal f l) res
  | .fin false m e => ∃ (b y : Int) (k q : Nat), SeedIndex m e b k ∧ 1 ≤ q ∧ 2 ^ (2 * q - 1) * 256 ^ 8192 < (257 + 2 * k) ^ 8192 ∧
      (257 + 2 * k) ^ 8192 < 2 ^ (2 * q + 1) * 256 ^ 8192 ∧ y = 4096 * b + q ∧
      OnceRounded f mode (.fin (decide (y < 0)) y.natAbs (-12), false) (subnormal f l) res

/-- What the floating instructions compute of their operands (R312 to R319), under the reading of their mode. -/
def floatRule : Instr → Option ((FMode → Rounding) → Fired → FResult → Prop)
  | .fadd _ _ _ f r => some fun m o =>
      OnceRounded f (m r) (sumVals (m r) [fVal f o.l, fVal f o.r]) (subnormal f o.l || subnormal f o.r)
  | .fsub _ _ _ f r => some fun m o =>
      OnceRounded f (m r) (sumVals (m r) [fVal f o.l, (fVal f o.r).negate]) (subnormal f o.l || subnormal f o.r)
  | .fmul _ _ _ f r => some fun m o => OnceRounded f (m r) ((fVal f o.l).mul (fVal f o.r)) (subnormal f o.l || subnormal f o.r)
  | .ffma _ _ f r => some fun m o => OnceRounded f (m r)
      (let p := (fVal f o.l).mul (fVal f o.r); let s := sumVals (m r) [p.1, fVal f o.t]; (s.1, p.2 || s.2))
      (subnormal f o.l || subnormal f o.r || subnormal f o.t)
  | .fmin _ _ _ f => some fun _ o => Selects false f o.l o.r
  | .fmax _ _ _ f => some fun _ o => Selects true f o.l o.r
  | .fsgn _ _ _ f g => some fun _ o => SignReplaced f g o.l o.r
  | .fcmp _ _ _ f c => some fun _ o res => res.slow = (subnormal f o.l || subnormal f o.r) ∧
      if classOf f o.l = 8 ∨ classOf f o.r = 8 then
        res.v = (if c = .un ∨ c = .ne then 1#64 else 0#64) ∧ res.flags = { nv := c = .lt || c = .le }
      else res.flags = {} ∧ Tells res.v (condHolds c (fVal f o.l) (fVal f o.r))
  | .fcvt _ _ _ f fromP q r => some fun m o res =>
      if fromP then Converted (partnerOf f q) (formatF f) (m r) o.l.toNat res.v.toNat res.flags res.slow
      else Converted (formatF f) (partnerOf f q) (m r) o.l.toNat res.v.toNat res.flags res.slow
  | .frnd _ _ _ f r => some fun m o => RoundedToIntegral f (m r) o.l
  | .ftoi _ _ _ f y r => some fun m o => ToInteger f y (m r) o.l
  | .itof _ _ _ f y r => some fun m o => OnceRounded f (m r)
      (.fin (decide (integerOf y o.l < 0)) (integerOf y o.l).natAbs 0, false) false
  | .fclass _ _ _ f => some fun _ o res => res = ⟨1#64 <<< classOf f o.l, {}, subnormal f o.l⟩
  | .fscale _ _ _ f r => some fun m o => OnceRounded f (m r)
      (match fVal f o.l with
        | .nan => .nan
        | .inf n => .inf n
        | .fin n k e => .fin n k (e + o.r.toInt), false) (subnormal f o.l)
  | .frcp _ _ _ f r => some fun m o => ReciprocalSeed f (m r) o.l
  | .frsq _ _ _ f r => some fun m o => RootSeed f (m r) o.l
  | .fexp2s _ _ _ f r => some fun m o => ExponentialSeed f (m r) o.l
  | .flog2s _ _ _ f r => some fun m o => LogarithmSeed f (m r) o.l
  | .vadd2 _ _ _ r => some fun m o =>
      let v (k : Nat) (x : Word) : Val := fVal .e8m23 (laneOf k x)
      let sub (k : Nat) : Bool := subnormal .e8m23 (laneOf k o.l) || subnormal .e8m23 (laneOf k o.r)
      InLanes (fun k => sumVals (m r) [v k o.l, v k o.r]) sub (m r)
  | .vsub2 _ _ _ r => some fun m o =>
      let v (k : Nat) (x : Word) : Val := fVal .e8m23 (laneOf k x)
      let sub (k : Nat) : Bool := subnormal .e8m23 (laneOf k o.l) || subnormal .e8m23 (laneOf k o.r)
      InLanes (fun k => sumVals (m r) [v k o.l, (v k o.r).negate]) sub (m r)
  | .vmul2 _ _ _ r => some fun m o =>
      let v (k : Nat) (x : Word) : Val := fVal .e8m23 (laneOf k x)
      let sub (k : Nat) : Bool := subnormal .e8m23 (laneOf k o.l) || subnormal .e8m23 (laneOf k o.r)
      InLanes (fun k => (v k o.l).mul (v k o.r)) sub (m r)
  | .vfma2 _ _ r => some fun m o =>
      let v (k : Nat) (x : Word) : Val := fVal .e8m23 (laneOf k x)
      let sub (k : Nat) : Bool :=
        subnormal .e8m23 (laneOf k o.l) || subnormal .e8m23 (laneOf k o.r) || subnormal .e8m23 (laneOf k o.t)
      InLanes (fun k =>
        let p := (v k o.l).mul (v k o.r)
        let s := sumVals (m r) [p.1, v k o.t]
        (s.1, p.2 || s.2)) sub (m r)
  | .vdot2 _ _ _ r => some fun m o =>
      let v (k : Nat) (x : Word) : Val := fVal .e8m23 (laneOf k x)
      let p (k : Nat) := (v k o.l).mul (v k o.r)
      let s := sumVals (m r) [(p 0).1, (p 1).1]
      OnceRounded .e8m23 (m r) (s.1, (p 0).2 || (p 1).2 || s.2)
        ([o.l, o.r].any fun x => subnormal .e8m23 (laneOf 0 x) || subnormal .e8m23 (laneOf 1 x))
  | .vcvt2 _ _ _ fromP q r => some fun m o res =>
      let (p, n) := pairPartner q
      ∃ a b : Nat × Flags × Bool,
        if fromP then Converted p fmtE8M23 (m r) (o.l.toNat / 2 ^ 0 % 2 ^ n) a.1 a.2.1 a.2.2 ∧
          Converted p fmtE8M23 (m r) (o.l.toNat / 2 ^ n % 2 ^ n) b.1 b.2.1 b.2.2 ∧ SideBySide 32 a b res
        else Converted fmtE8M23 p (m r) (laneOf 0 o.l).toNat a.1 a.2.1 a.2.2 ∧
          Converted fmtE8M23 p (m r) (laneOf 1 o.l).toNat b.1 b.2.1 b.2.2 ∧ SideBySide n a b res
  | _ => none

/-- The exact sum of some values, and whether it is invalid (R225): NaN, infinities, and finite sums, with the sign of an
exact zero. -/
def ExactSum (mode : Rounding) (xs : List Val) (y : Val × Bool) : Prop :=
  let zero (n : Bool) (x : Val) : Prop := ∃ e, x = .fin n 0 e
  if .inf false ∈ xs ∧ .inf true ∈ xs then y = (.nan, true)
  else if .nan ∈ xs then y = (.nan, false)
  else if .inf false ∈ xs then y = (.inf false, false)
  else if .inf true ∈ xs then y = (.inf true, false)
  else ∃ (n : Bool) (m : Nat) (e : Int), y = (.fin n m e, false) ∧
    (∀ k : Int, k ≤ e → (∀ a p g, Val.fin a p g ∈ xs → k ≤ g) → inUnits k n m e = (xs.map (unitsIn k)).sum) ∧
    (m = 0 → xs ≠ [] → ((∀ x ∈ xs, zero false x) → n = false) ∧ ((∀ x ∈ xs, zero true x) → n = true) ∧
      (¬(∀ x ∈ xs, zero false x) → ¬(∀ x ∈ xs, zero true x) → n = decide (mode = .rd)))

/-- The exact product of two values, and whether it is invalid (R225). -/
def ExactProduct (x y : Val) (z : Val × Bool) : Prop :=
  match x, y with
  | .nan, _ | _, .nan => z = (.nan, false)
  | .inf a, .inf b => z = (.inf (a != b), false)
  | .inf a, .fin b m _ | .fin b m _, .inf a => z = if m = 0 then (.nan, true) else (.inf (a != b), false)
  | .fin a m e, .fin b p g => ∃ (q : Nat) (h : Int), z = (.fin (a != b) q h, false) ∧
      ∀ k l : Int, k ≤ e → l ≤ g → k + l ≤ h → inUnits (k + l) (a != b) q h = inUnits k a m e * inUnits l b p g

/-- The formats that have infinities (R221). -/
def withInfinities : List FloatFmt := [fmtE11M52, fmtE8M23, fmtE8M10, fmtE5M10, fmtE8M7, fmtE5M2]

/-- The formats that have NaN, with their canonical NaN (R223). -/
def canonicals : List (FloatFmt × Nat) :=
  [(fmtE11M52, 0x7FF8000000000000), (fmtE8M23, 0x7FC00000), (fmtE8M10, 0x7FC00000), (fmtE5M10, 0x7E00), (fmtE8M7, 0x7FC0),
   (fmtE4M3, 0x7F), (fmtE5M2, 0x7E)]

/-- The result of an overflow is an infinity, in a format that has them (R225, step 4). -/
def toInfinity : Rounding → Bool → Bool
  | .rne, _ => true
  | .rz, _ => false
  | .ru, neg => !neg
  | .rd, neg => neg

/-- A value rounded overflows (R225, steps 3 and 4): its magnitude, rounded to the significand's width as though the exponent
were unbounded, is above the largest finite value T × 2^t. -/
def Overflows (mode : Rounding) (neg : Bool) (m : Nat) (e : Int) (top : Nat) (t : Int) : Prop :=
  ∀ k : Int, k ≤ e → k ≤ t →
    let excess : Int := inUnits k false m e - inUnits k false top t
    let step : Int := 2 ^ (t - k).toNat
    match mode with
    | .rne => if top % 2 = 0 then step < 2 * excess else step ≤ 2 * excess
    | .rz => step ≤ excess
    | .ru => if neg then step ≤ excess else 0 < excess
    | .rd => if neg then 0 < excess else step ≤ excess

/-! ## Requests at memory -/

/-- An answer to a request is in flight that was not before. -/
def Answered (s t : State) (r : Req) (a : Answer) : Prop :=
  ∃ id, s.nextId ≤ id ∧
    tabFind t.net id = some (if r.combined = [] then .reply r.src r.inst r.part r.pa a else .combined r a)

/-- Every byte outside a span reads as before. -/
def MemoryBut (s t : State) (lo n : Nat) : Prop := ∀ a, a < lo ∨ lo + n ≤ a → t.byte a = s.byte a

/-- The word of a request is held by the access that made it. -/
def Held (t : State) (r : Req) : Prop :=
  ∀ k a, r.src = .slot k a → (t.wordQ (r.pa / 8)).held = some (k, r.inst, a)

/-- A read that waits for a condition: its answer at once where the condition holds; else NOT_READY, or a place in the
waiter list for a park request (R106). -/
def AnswersWhen (r : Req) (s t : State) (c : Bool) (a : Answer) : Prop :=
  SameMemory s t ∧
    if c then Answered s t r a
    else if !r.park then Answered s t r .notReady
    else if entryFree s r.pa then r ∈ (t.wordQ (r.pa / 8)).waiters else Answered s t r .full

/-- The same of an operation that is granted the word. -/
def GrantsWhen (r : Req) (s t : State) (c : Bool) : Prop :=
  AnswersWhen r s t c (.grant (s.word (r.pa / 8 * 8))) ∧ (c = true → Held t r)

/-- The bytes of an atomic's operand (R326). -/
def atomBytes (w : Width) : Nat := if w = .w64 then 8 else 4

/-- What a request does to memory and what it is answered, where nothing holds its words (R54, R59, R99, R104, R106,
R107, R110, R115): `s` before, `t` after. -/
def Performed (r : Req) (s t : State) : Prop :=
  let bad : Answer := .poisoned (errorSource r.pa) (!s.wordPoisoned r.pa)
  let old := s.word (r.pa / 8 * 8)
  match r.op with
  | .load n _ =>
    SameMemory s t ∧
      Answered s t r (if s.wordPoisoned r.pa = true ∨ n = 16 ∧ s.wordPoisoned (r.pa + 8) = true then bad
        else .value (BitVec.ofNat 64 (s.readN r.pa n)) (BitVec.ofNat 64 (s.readN r.pa n / 2 ^ 64)) false)
  | .store n v hi p =>
    n ≤ 16 → if (r.pa % 8 ≠ 0 ∨ n % 8 ≠ 0) ∧ s.wordPoisoned r.pa = true then SameMemory s t ∧ Answered s t r bad
      else Answered s t r .ack ∧ t.empties = s.empties ∧ MemoryBut s t r.pa n ∧
        (∀ i < n, t.byte (r.pa + i) = BitVec.ofNat 8 ((hi.toNat * 2 ^ 64 + v.toNat) / 2 ^ (8 * i))) ∧
        ∀ i < n, t.wordPoisoned (r.pa + i) = p
  | .amadd w v _ =>
    r.pa % atomBytes w = 0 → if s.wordPoisoned r.pa = true then SameMemory s t ∧ Answered s t r bad
      else Answered s t r (.value (BitVec.ofNat 64 (s.readN r.pa (atomBytes w))) 0#64 false) ∧
        t.readN r.pa (atomBytes w) = (s.readN r.pa (atomBytes w) + v.toNat) % 2 ^ (8 * atomBytes w) ∧
        MemoryBut s t r.pa (atomBytes w) ∧ t.empties = s.empties ∧ t.poison = s.poison
  | .sete =>
    Answered s t r .ack ∧ t.mem = s.mem ∧ t.poison = s.poison ∧ t.isFull r.pa = false ∧
      ∀ a, a / 8 ≠ r.pa / 8 → t.isFull a = s.isFull a
  | .stff v p =>
    r.pa % 8 = 0 → Answered s t r .ack ∧ t.word r.pa = v ∧ t.isFull r.pa = true ∧ t.wordPoisoned r.pa = p ∧
      MemoryBut s t r.pa 8 ∧ ∀ a, a / 8 ≠ r.pa / 8 → t.isFull a = s.isFull a
  | .festat =>
    SameMemory s t ∧ ∃ v : Word, Answered s t r (.value v 0#64 false) ∧ v.toNat < 16 ∧
      v.getLsbD 0 = s.isFull r.pa ∧ v.getLsbD 1 = s.wordPoisoned r.pa ∧
      v.getLsbD 2 = (s.wordQ (r.pa / 8)).held.isSome ∧
      (v.getLsbD 3 = true ↔ (s.wordQ (r.pa / 8)).queue ≠ [] ∨ (s.wordQ (r.pa / 8)).waiters ≠ [])
  | .ldff =>
    if s.wordPoisoned r.pa then SameMemory s t ∧ Answered s t r bad
    else AnswersWhen r s t (s.isFull r.pa) (.value old 0#64 false)
  | .mwait v =>
    if s.wordPoisoned r.pa then SameMemory s t ∧ Answered s t r bad
    else AnswersWhen r s t (decide (v.toNat ≤ old.toNat)) (.value old 0#64 false)
  | .barw g =>
    let high := s.word (r.pa + 8)
    if objectPoisoned s r.pa then SameMemory s t ∧ Answered s t r bad
    else AnswersWhen r s t (decide (old.toNat / 2 ^ 48 ≠ g) || high.getLsbD 63)
      (.value (BitVec.ofNat 64 ((if high.getLsbD 63 then 2 ^ 63 else 0) + old.toNat / 2 ^ 48)) 0#64 false)
  | .ldsync =>
    if s.wordPoisoned r.pa then SameMemory s t ∧ Answered s t r bad else GrantsWhen r s t (s.isFull r.pa)
  | .stsync _ _ =>
    if s.wordPoisoned r.pa then SameMemory s t ∧ Answered s t r bad else GrantsWhen r s t (!s.isFull r.pa)
  | .rsv _ | .cas _ _ _ | .swap _ _ | .amin _ _ _ | .amax _ _ _ =>
    if s.wordPoisoned r.pa then SameMemory s t ∧ Answered s t r bad else GrantsWhen r s t true
  | .bytes bs _ => Answered s t r .ack ∧ MemoryBut s t r.pa bs.length ∧ t.empties = s.empties
  | .rel _ _ | .reln _ | .barj | .bara | .barx | .arm _ | .phase _ | .zfree _ _ | .zrsv _ | .breakBar | .turn => SameMemory s t

/-- Operations that a word grants in any state (R99). -/
def alwaysGranted : MemOp → Bool
  | .rsv _ | .cas _ _ _ | .swap _ _ | .amin _ _ _ | .amax _ _ _ => true
  | _ => false

/-- Operations that an open word performs at once (R99). -/
def performsAtOnce : MemOp → Bool
  | .load _ _ | .store _ _ _ _ | .amadd _ _ _ | .sete | .stff _ _ => true
  | _ => false

/-- An access that goes to its point of coherence as one request: local memory, not a barrier operation, a phase, a
zone operation or a release, and not torn, nor short of a word that forwarding supplies (R57, R68). -/
def OneRequest (a : Acc) : Prop :=
  a.remote = none ∧ tears a.pa a.op.size = false ∧ a.forwarded = [] ∧
    (match a.op with
      | .barj | .bara | .barx | .arm _ | .phase _ | .zfree _ _ | .zrsv _ => False
      | .rel _ _ | .reln _ | .ldsync | .stsync _ _ => a.committed = false
      | _ => True)

/-- The access has been sent again, as a park request or not. -/
def Resent (s t : State) (k : Nat) (a : Acc) (park : Bool) : Prop :=
  SameMemory s t ∧ (∃ b ∈ (t.slot k).accs, b.id = a.id ∧ b.st = .sent ∧ b.op = a.op ∧ b.pa = a.pa) ∧
    tabFind t.net s.nextId = some (.req { src := .slot k a.id, inst := a.inst, op := a.op, pa := a.pa, park := park })

/-- The token of a load of `n` bytes (R321): the low bytes of what was read, sign- or zero-extended. -/
def loadToken (n : Nat) (signed : Bool) (got : Word) : Word :=
  if signed then (got.setWidth (8 * n)).signExtend 64 else (got.setWidth (8 * n)).setWidth 64

/-- The low token of an answered access: a load extends what it read, a holding atomic sends the named part of the
word, and every other read its word (R103, R321, R326). -/
def tokenOf (op : MemOp) (pa : Nat) (got : Word) : Word :=
  match op with
  | .load n signed => loadToken n signed got
  | .rsv .w32 | .cas .w32 _ _ | .swap .w32 _ | .amin .w32 _ _ | .amax .w32 _ _ =>
    if pa % 8 < 4 then (got.setWidth 32).setWidth 64 else got >>> 32
  | _ => got

/-- The instruction of an access is done, the access stands at `st`, and its tokens are sent. -/
def Replied (s t : State) (k : Nat) (j : Inst) (x : Acc) (f : Form) (st : AccSt) (got hi : Word) : Prop :=
  ∃ u : State, OnlySlot k s u ∧
    (u.slot k).accs = (s.slot k).accs.map (fun a => if a.id = x.id then { x with got := got, gotHi := hi, st := st } else a) ∧
    (∃ g, (u.slot k).inst = some { stand j x.node .fired with firstGrant := g } ∧
      (st = .granted → g = some (j.firstGrant.getD s.now)) ∧ (st ≠ .granted → g = j.firstGrant)) ∧
    t = sendTokens k ((f.t, .data (tokenOf x.op x.pa got) false) ::
      if f.pair then [(tgtNext f.t, .data hi false)] else []) u

/-- Changes of a barrier object (R113, R114, R150), of its fields before `b` to those after `b'`, where no field
overflows. -/
def barrierRule (op : MemOp) (recorded : Option Nat) (b b' : Bar) : Prop :=
  let done (c : Bar) : Bar :=
    if c.broken = false ∧ c.expected ≤ c.arrived ∧ c.pending = 0 then { c with gen := (c.gen + 1) % 65536, arrived := 0 } else c
  match op with
  | .barj => b.expected < 0xFFFFFF → b' = { b with expected := b.expected + 1 }
  | .bara => b.arrived < 0xFFFFFF → b' = done { b with arrived := b.arrived + 1 }
  | .barx => 0 < b.expected → (recorded = some b.gen → 0 < b.arrived) →
      b' = done { b with expected := b.expected - 1, arrived := if recorded = some b.gen then b.arrived - 1 else b.arrived }
  | .arm n => b.pending + n ≤ 0xFFFFFF → b' = if n = 0 then b else done { b with pending := b.pending + n }
  | _ => True

/-- One half of a word changed by a function of 32 bits, the other kept (R326). -/
def halfBecomes (pa : Nat) (o n : Word) (f : BitVec 32 → BitVec 32) : Prop :=
  if pa % 8 < 4 then n = (o >>> 32).setWidth 32 ++ f (o.setWidth 32) else n = f ((o >>> 32).setWidth 32) ++ o.setWidth 32

/-- The word that a holding atomic releases, of the word `o` that it was granted (R103, R326). -/
def atomRule (op : MemOp) (pa : Nat) (o n : Word) : Prop :=
  match op with
  | .swap .w64 v => n = v
  | .swap .w32 v => halfBecomes pa o n fun _ => v.setWidth 32
  | .cas .w64 c v => n = if o = c then v else o
  | .cas .w32 c v => halfBecomes pa o n fun x => if x = c.setWidth 32 then v.setWidth 32 else x
  | .amin .w64 u v => n = if (if u then v.ult o else v.slt o) then v else o
  | .amin .w32 u v => halfBecomes pa o n fun x =>
      if (if u then (v.setWidth 32).ult x else (v.setWidth 32).slt x) then v.setWidth 32 else x
  | .amax .w64 u v => n = if (if u then o.ult v else o.slt v) then v else o
  | .amax .w32 u v => halfBecomes pa o n fun x =>
      if (if u then x.ult (v.setWidth 32) else x.slt (v.setWidth 32)) then v.setWidth 32 else x
  | _ => n = o

/-! ## Blocks -/

/-- The word of a block at an address, as a fetch finds it: translated, clean and not held. -/
def BlockWord (s : State) (k va w : Nat) : Prop :=
  ∃ pa, checkAddr s { core := slotCore k, sys := systemSlot k, va := va, size := 4, use := .fetch } = .at pa ∧
    pa % 4 = 0 ∧ s.wordPoisoned pa = false ∧ (s.wordQ (pa / 8)).held = none ∧ w = s.readN pa 4

/-- A block cache holds what memory holds. -/
def CacheAgrees (s : State) (core : Nat) : Prop :=
  ∀ l ∈ (s.core core).blockCache, l.addr % 64 = 0 ∧ l.bytes = s.bytesAt l.addr 64

/-- A fetch of this word reads memory, and the word has an uncorrectable error: its address passes the checks, nothing
holds it, and the core's block cache does not have its line. -/
def PoisonedWord (s : State) (k va : Nat) : Prop :=
  ∃ pa, checkAddr s { core := slotCore k, sys := systemSlot k, va := va, size := 4, use := .fetch } = .at pa ∧
    s.wordPoisoned pa = true ∧ (s.wordQ (pa / 8)).held = none ∧
    ∀ l ∈ (s.core (slotCore k)).blockCache, l.addr ≠ pa / 64 * 64

/-- What the exit of an instance does to its slot at commit (R183, R190, R275, R300). -/
def exitDone (j : Inst) (e : Exit) (a b : Slot) : Prop :=
  match e with
  | .br n => b.life = .fetch ∧ b.next = n ∧ b.pending = a.pending
  | .call n => b.life = .fetch ∧ b.next = n ∧ b.pending = a.pending
  | .done => b.life = .ending none ∧ b.pending = a.pending
  | .repost v => b.life = .ending (some v) ∧ b.pending = a.pending
  | .trap code addr =>
    b.life = .fetch ∧ b.next = (j.blk + 4 * (j.nodes.length + 2)) % 2 ^ 64 ∧
      b.pending = a.pending ++ [{ cause := 0x09, addr := addr.toNat, info := code, origin := 1 }]

/-- The exit of an instance is CALL or CALLR. -/
def isCall (j : Inst) : Prop := ∃ n e, j.exit = some (.call n, e)

/-! ## Page walks -/

/-- An entry that names the table of the next level (R22 to R24). -/
def NamesTable (level e table : Nat) : Prop :=
  2 ≤ level ∧ e % 256 = 1 ∧ e < 2 ^ 48 ∧ table = e / 256 * 256 ∧ sectorRow table = 2 ∧ (3 ≤ level → table % 4096 = 0)

/-- An entry that is the leaf of an address (R22 to R24). -/
def NamesPage (m : Module) (va level e : Nat) : Prop :=
  let page := e / 256 * 256
  level ≤ 3 ∧ e % 4 = 3 ∧ e / 64 % 4 = 0 ∧ e < 2 ^ 48 ∧ page % 2 ^ pageBits level = 0 ∧ sectorRow page = sectorRow va ∧
    installed m page (2 ^ pageBits level) = true

/-- How what a walk has read last ends it: no level-4 table in tier-2 memory, an uncorrectable error, an invalid entry, a leaf,
or an entry that is neither a leaf nor names a table (R24, R30). -/
def WalkEnded (s : State) (w : Walk) (e : WalkEnd) : Prop :=
  let m := s.module (w.cluster / 512)
  let root := sectorRow (w.base / 4096 % 2 ^ 36 * 4096)
  (root ≠ 2 ∧ e = .fault 0x06 2 4) ∨
    (root = 2 ∧ w.level ≤ 4 ∧ ∃ v poisoned, w.read = some (v, poisoned) ∧
      (if poisoned then e = .fault 0x07 0xB w.level
      else if v.toNat % 2 = 0 then e = .fault 0x05 1 w.level
      else (NamesPage m w.va w.level v.toNat ∧ e = .leaf w.level v.toNat) ∨
        (¬NamesPage m w.va w.level v.toNat ∧ (∀ table, ¬NamesTable w.level v.toNat table) ∧ e = .fault 0x06 2 w.level)))

/-! ## Control registers -/

/-- The bits that MTC may write, of each register that it may write (R21, R102, R106, R140, R145, R167, R218, R226, R239,
R251, R308, R400). -/
def writableBits : List (Nat × Word) :=
  [(0x04, 0xFB#64), (0x05, 0xFFFF#64), (0x08, 0xFFFFFFFFFFFFFFFC#64), (0x0A, 0xFFFFFFFF#64), (0x18, 0xFFFFFFFF#64),
   (0x19, 0xFFFFFFFF#64), (0x2C, 0xFF#64), (0x80, 0x0000FFFFFFFFF001#64), (0x81, 0xFFFF#64), (0x82, 0xFFFFFFFF#64),
   (0x8C, 0xFFFF#64)] ++
    (List.range 8).map (fun i => (0x10 + i, 0xFFFFFF#64)) ++
    (List.range 4).flatMap (fun i => [(0x50 + 2 * i, 0xC000FFFFFFFFFFF8#64), (0x51 + 2 * i, 0x0000FFFFFFFFFFF8#64)]) ++
    (List.range 4).map fun i => (0x88 + i, 0xFFFFFF80FFFFFFFF#64)

/-- The read-only registers (R193). -/
def readOnly : List Nat :=
  [0x00, 0x01, 0x02, 0x03, 0x06, 0x07, 0x09, 0x0C, 0x0D, 0x0E, 0x0F, 0x20, 0x21, 0x22, 0x23, 0x24, 0x25, 0x26, 0x27, 0x28,
   0x29, 0x2A, 0x2B, 0x30, 0x31, 0x32, 0x33, 0x34, 0x40, 0x41, 0x42, 0x43, 0x44, 0x45, 0x46, 0x47, 0x60]

/-- What MFC reads of the registers that stand in the state as they are (R194, R379). -/
def plainReads (s : State) (k : Nat) : List (Nat × Word) :=
  let sl := s.slot k
  let co := s.core (slotCore k)
  [(0x01, BitVec.ofNat 64 (k % 16)), (0x02, BitVec.ofNat 64 (slotCore k)),
   (0x03, BitVec.ofNat 64 (s.now - (s.module (slotModule k)).bootAt)), (0x04, sl.fpc), (0x05, sl.feRetry),
   (0x08, sl.deadline &&& 0xFFFFFFFFFFFFFFFC#64), (0x09, BitVec.ofNat 64 (s.partition (slotCore k))), (0x0A, sl.cellInv), (0x18, sl.sepEps),
   (0x19, sl.sepBeta), (0x2C, co.tlerr), (0x30, sl.trapCause), (0x31, sl.trapAddr), (0x32, sl.trapBlock),
   (0x33, sl.trapInfo), (0x34, sl.trapVec), (0x40, 8#64), (0x41, 16#64), (0x42, 32#64), (0x43, 64#64), (0x45, 0x001FFFFE#64),
   (0x46, 0x01000001#64), (0x47, 0x0FFF#64), (0x80, co.xlatBase), (0x81, co.xlatAsid), (0x82, co.holdLimit),
   (0x8C, co.fabTmo)] ++
    (List.range 8).map (fun i => (0x10 + i, tabGet co.tcfg i 0x17FF#64)) ++
    (List.range 8).map (fun i => (0x20 + i, BitVec.ofNat 64 (tabGet co.timeline i 0))) ++
    (List.range 4).flatMap (fun i => [(0x50 + 2 * i, (tabGet co.watches i {}).addr), (0x51 + 2 * i, (tabGet co.watches i {}).mask)]) ++
    (List.range 4).map fun i => (0x88 + i, tabGet co.zdesc i 0#64)

/-! ## Copies and landing zones -/

/-- The request that a copy instruction queues: form, landing send, context, REUSE and LSID (R124, R150). -/
def copyRule : Instr → Option (Nat × Bool × Nat × Bool × BitVec 5)
  | .cpy _ l r c => some (0, false, c.toNat, r, l)
  | .cpyx _ l r c => some (1, false, c.toNat, r, l)
  | .cpyt _ l r c => some (2, false, c.toNat, r, l)
  | .cpys _ l r c => some (3, false, c.toNat, r, l)
  | .lzsend _ l r => some (0, true, 7, r, l)
  | _ => none

/-- A movement routine may name an engine: the vendor's, c[10:6], or any of the die where the core's launch has its copies at
the expert level (R128, R338, R417). -/
def EngineOpen (s : State) (core e : Nat) : Prop :=
  e ≤ 31 ∧ (e = core % 2048 / 64 ∨ ((s.core core).launch % 2 ^ 48, 1) ∈ (s.module (core / 8192)).expert)

/-- The oldest mailbox that is full and not taken (R125, R337). -/
def OldestBox (co : Core) (m : Nat) (b : Mailbox) : Prop :=
  Rising co.mailboxes ∧ (m, b) ∈ co.mailboxes ∧ b.full = true ∧ b.taken = false ∧
    ∀ q ∈ co.mailboxes, q.2.full = true → q.2.taken = false → q = (m, b) ∨ b.order < q.2.order

/-- The units of a run of `n` bytes at `va`, which lies in system memory from `pa` on. -/
def unitsAt (va pa n : Nat) : List (Nat × Nat) := (unitAddrs va n).map fun p => (pa + (p.1 - va), p.2)

/-! ## Queues, tasks and deferred actions -/

/-- Nothing holds a read of a slot back: no access and no fence of it is open, no range of its core is busy, and no
word is held. -/
def Quiet (s : State) (k : Nat) : Prop :=
  (s.slot k).accs = [] ∧ (s.slot k).fences = [] ∧ (s.core (slotCore k)).scoreboard = [] ∧ Idle s

/-- A core belongs to the launch of a slot (R199). -/
def ownedLike (s : State) (c k : Nat) : Prop := sameLaunch s (s.core c).launch (s.slot k).launch = true

/-- A task reference names an entry of a list of the slot's launch (R343). -/
def RefOk (s : State) (k : Nat) (ref : Word) : Prop :=
  let r := ref.toNat
  let c := r / 2 ^ 32 % 2 ^ 13 * 8192 + r / 2 ^ 19 % 2 ^ 13
  let n := r % 2 ^ 19
  r < 2 ^ 45 ∧
    if n < 0x40000 then ownedLike s c k ∧ (s.core c).desc ≠ [] ∧ n < ((s.core c).desc.getD 4 0#64).toNat / 2 ^ 34 % 2 ^ 16
    else n ≤ 0x400FF ∧ c % 16 = 0 ∧ ∃ i < 16, ownedLike s (c + i) k

/-- A slot reference names a program slot of the module (R378). -/
def SlotNamed (k : Nat) (ref : Word) (t : Nat) : Prop :=
  ref.toNat < 2 ^ 17 ∧ ref.toNat % 16 < 14 ∧ t = (slotModule k * 8192 + ref.toNat / 16) * 16 + ref.toNat % 16

/-- The deferred action that an instruction of this kind registers as it fires, where its operands are admitted: it
then sends 0 (R333, R343, R344, R346 to R348, R353, R357, R358, R382 to R387, R389). -/
def deferRule : Instr → Option (State → Fired → Action → Prop)
  | .dec _ _ _ => some fun s o a => a = .dec o.l ∧ RefOk s o.slot o.l
  | .tretry _ _ _ => some fun s o a => a = .tretry o.l ∧ RefOk s o.slot o.l
  | .tdrop _ _ _ => some fun s o a => a = .tdrop o.l ∧ RefOk s o.slot o.l
  | .prio _ _ _ y => some fun s o a => ∃ r, a = .prio r y.toNat ∧ RefOk s o.slot r ∧
      if o.l.toNat % 2 ^ 32 = 2 ^ 32 - 1 then ∃ x, (s.slot o.slot).task = some x ∧ r = BitVec.ofNat 64 (refOf x.list x.entry)
      else r = o.l
  | .spawn _ _ _ => some fun _ o a => a = .spawn o.l.toNat o.r
  | .migr _ _ _ => some fun s o a => o.l.toNat < 8192 ∧ a = .migr (slotModule o.slot * 8192 + o.l.toNat) ∧
      ownedLike s (slotModule o.slot * 8192 + o.l.toNat) o.slot ∧
      ∀ j, InstIs s o.slot j → ∀ n c, (n, Action.migr c) ∉ j.actions
  | .inj _ _ _ => some fun s o a => o.l.toNat ≤ 31 ∧ a = .inj o.l.toNat o.node ∧ partQueue (s.partition (slotCore o.slot)) ≠ 0
  | .rcvpFree _ _ _ => some fun _ o a => o.l.toNat ≤ 31 ∧ a = .rcvFree o.l.toNat
  | .swaps _ _ _ => some fun _ o a => ∃ t, SlotNamed o.slot o.l t ∧ o.r.toNat ≤ 63 ∧ a = .swaps t o.r.toNat
  | .park _ _ _ => some fun _ o a => ∃ t, SlotNamed o.slot o.l t ∧ a = .park t
  | .wake _ _ _ => some fun _ o a => ∃ t, SlotNamed o.slot o.l t ∧ a = .wake t
  | .halts _ _ _ => some fun _ o a => ∃ t, SlotNamed o.slot o.l t ∧ a = .halts t
  | .tlbiPage _ _ _ c => some fun _ o a => a = .tlbi 0 o.l.toNat (o.r.toNat % 65536) c
  | .tlbiAsid _ _ _ c => some fun _ o a => a = .tlbi 1 o.l.toNat (o.r.toNat % 65536) c
  | .tlbiAll _ _ _ c => some fun _ o a => a = .tlbi 2 o.l.toNat (o.r.toNat % 65536) c
  | .pwrq _ _ _ => some fun _ o a => o.l.toNat ≤ 255 ∧ a = .pwrq o.l.toNat
  | .csync _ _ _ => some fun _ _ a => a = .csync
  | .kregSeal _ _ _ => some fun s o a => ∃ pa, a = .seal o.l.toNat pa ∧
      checkWalk s { core := slotCore o.slot, sys := true, va := o.l.toNat, size := 64, use := .keyWrite } = .at pa
  | _ => none

/-- The opcodes of system level (R283). -/
def systemOnly : Instr → Bool
  | .mbxw _ _ _ | .mbxr _ _ _ | .eret _ _ | .swaps _ _ _ | .tlbiPage _ _ _ _ | .tlbiAsid _ _ _ _ | .tlbiAll _ _ _ _
  | .park _ _ _ | .wake _ _ _ | .halts _ _ _ | .trqpop _ _ _ _ | .kregSeal _ _ _ | .kregCheck _ _ _ => true
  | _ => false

/-- The instructions that act on more than their tokens, the memory operations of R320 and R354 apart (R123, R150, R331 to
R361, R377 to R389). -/
def actsBeyond : Instr → Bool
  | .dec _ _ _ | .tretry _ _ _ | .tdrop _ _ _ | .prio _ _ _ _ | .spawn _ _ _ | .migr _ _ _ | .inj _ _ _ | .rcvpFree _ _ _
  | .swaps _ _ _ | .park _ _ _ | .wake _ _ _ | .halts _ _ _ | .tlbiPage _ _ _ _ | .tlbiAsid _ _ _ _ | .tlbiAll _ _ _ _
  | .pwrq _ _ _ | .csync _ _ _ | .kregSeal _ _ _ | .kregCheck _ _ _ | .eret _ _ | .trqpop _ _ _ _ | .mbxw _ _ _ | .mbxr _ _ _
  | .cpy _ _ _ _ | .cpyx _ _ _ _ | .cpyt _ _ _ _ | .cpys _ _ _ _ | .lzsend _ _ _ | .lzrsv _ _ _ | .lzarm _ _ _
  | .lzfree _ _ _ _ | .tlwait _ _ _ _ | .tlrd _ _ _ _ _ | .qpop _ _ _ | .qpush _ _ _ | .post _ _ _ _ | .postc _ _ _ _
  | .join _ _ _ | .elem _ _ _ _ | .nbr _ _ _ | .nbrn _ _ _ | .colourCur _ _ _ | .colourSet _ _ _ | .deadl _ _ _ _
  | .rcvpTake _ _ _ | .coll _ _ _ _ _ _ | .mfc _ _ _ _ | .mtc _ _ => true
  | _ => false

/-- Its left operand names a task. -/
def takesRef : Instr → Bool
  | .dec _ _ _ | .tretry _ _ _ | .tdrop _ _ _ => true
  | _ => false

/-- Its left operand names a slot. -/
def takesSlot : Instr → Bool
  | .eret _ _ | .swaps _ _ _ | .park _ _ _ | .wake _ _ _ | .halts _ _ _ => true
  | _ => false

/-! ## The matrix unit -/

/-- The instance with more tiles and accumulators staged. -/
def stages (j : Inst) (tiles accs : List Nat) : Inst :=
  { j with staged := { j.staged with
      tiles := tiles.foldl setIns j.staged.tiles, accs := accs.foldl setIns j.staged.accs } }

/-- A Q operation fires and may start at once: the units that it names are its slot's, every lower Q operation of the
instance is settled, the matrix unit is free and its power granted, nothing holds a read back, and the instance may
stage what the operation writes (R242 to R244, R362, R415). -/
def MayStart (s : State) (i : Instr) (o : Fired) (j : Inst) (units : List (UnitKind × Nat)) (tiles accs : List Nat) : Prop :=
  let co := s.core (slotCore o.slot)
  FiresClean s i o ∧ InstIs s o.slot j ∧ qTurn j o.node = true ∧ (∀ u ∈ units, ownsUnit s o.slot u.1 u.2 = true) ∧
    co.claim = none ∧ co.claimWait = [] ∧ co.qbusy = none ∧ 100 ≤ co.pwrGrant ∧ co.busyTiles = [] ∧ Quiet s o.slot ∧
    stagedTooMuch (slotCore o.slot) (stages j tiles accs) = false

/-- The matrix unit works for the slot: its instance is `i`, which differs from the one before in what it has staged; the
accesses `accs` have been added; and MATRIX_OP_COMPLETE will send the token `v` (R242, R243). -/
def Started (s t : State) (o : Fired) (j i : Inst) (accs : List Acc) (v : Word) (p : Bool) : Prop :=
  SameMemory s t ∧ (∀ m, m ≠ o.slot → t.slot m = s.slot m) ∧ (∀ c, c ≠ slotCore o.slot → t.core c = s.core c) ∧
    t.core (slotCore o.slot) = { s.core (slotCore o.slot) with
      claim := some (o.slot, s.now), claimWait := [], qbusy := some (o.slot, o.node, v, p) } ∧
    t.slot o.slot = { s.slot o.slot with matrix := true, inst := some i, accs := (s.slot o.slot).accs ++ accs } ∧
    i = { stand j o.node .waiting with staged := i.staged, scaleError := i.scaleError }

/-- The instance is gone, and the slot has this trap pending. -/
def Trapped (s t : State) (k : Nat) (f : Trap) : Prop :=
  (t.slot k).inst = none ∧ (t.slot k).pending = (s.slot k).pending ++ [{ f with origin := 0 }]

/-- A store access gives a byte to a system address. -/
def Gives (x : Acc) (a : Nat) (b : Byte) : Prop :=
  ∃ n v p, x.op = .store n v 0#64 p ∧ x.pa ≤ a ∧ a < x.pa + n ∧ b = BitVec.ofNat 8 (v.toNat / 2 ^ (8 * (a - x.pa)))

/-- The accesses are relaxed stores of the instance that perform after commit (R363). -/
def Relaxed (j : Inst) (accs : List Acc) : Prop :=
  ∀ x ∈ accs, x.inst = j.num ∧ x.kind = .commitTime ∧ x.ordered = false ∧ x.committed = false ∧
    ∃ n v p, x.op = .store n v 0#64 p

/-- The accesses give the bytes of a number from a system address on. -/
def GivesNumber (accs : List Acc) (a n v : Nat) : Prop :=
  ∀ k < n, ∃ x ∈ accs, Gives x (a + k) (BitVec.ofNat 8 (v / 2 ^ (8 * k)))

/-- Element `c` of row `r` of a tile, as an instance sees it: its pattern, and whether its word is poisoned. -/
def tileElem (s : State) (i : Inst) (core : Nat) (t : Tile) (r c : Nat) : Nat × Bool := (rowElems s i core t r).getD c (0, false)

/-- The exact value of an element with its scale (R224). -/
def scaledElem (s : State) (i : Inst) (core : Nat) (t : Tile) (coff r c : Nat) : Val :=
  (Val.mul (elemValue t.fmt (tileElem s i core t r c).1) (scaleAt t (rowScales s i core t coff r) c).v).1

/-- The scaled product of element `c` of two rows (R236). -/
def productAt (s : State) (j : Inst) (core : Nat) (ta tb : Tile) (coff ra rb c : Nat) : Val :=
  scaledProduct (elemValue ta.fmt (tileElem s j core ta ra c).1) (elemValue tb.fmt (tileElem s j core tb rb c).1)
    (scaleAt ta (rowScales s j core ta coff ra) c).v (scaleAt tb (rowScales s j core tb coff rb) c).v

/-- An element of a floating result (R235): the products are taken in chunks of L in rising order, and after each chunk
the sum of the accumulator and its products, exact, is rounded once. -/
def ChunkedSum (f : FloatFmt) (mode : Rounding) (len k : Nat) (prod : Nat → Val) (old new : Nat) : Prop :=
  ∃ acc : Nat → Nat, acc 0 = old ∧ new = acc ((k + len - 1) / len) ∧
    ∀ q < (k + len - 1) / len, acc (q + 1) = (roundTo f mode (sumVals mode
      (valueOf f (acc q) :: (List.range (min len (k - q * len))).map fun n => prod (q * len + n))).1).bits

/-- An element of an integer result (R237), modulo 2^32. -/
def IntegerSum (s : State) (j : Inst) (core : Nat) (ta tb : Tile) (ra rb old new : Nat) : Prop :=
  ((new : Int) - (old + ((List.range ta.k).map fun c => elemInteger ta.fmt (tileElem s j core ta ra c).1 *
    elemInteger tb.fmt (tileElem s j core tb rb c).1).sum)) % 2 ^ 32 = 0 ∧ new < 2 ^ 32

/-- The row has a poisoned element or scale. -/
def rowPoisoned (s : State) (j : Inst) (core : Nat) (t : Tile) (coff r : Nat) : Bool :=
  (rowElems s j core t r).any (fun e => e.2) || (rowScales s j core t coff r).any fun x => x.bad.isSome

/-- MMA, MMAS and MMAK: mixed formats, whether the old accumulator counts as 0, the units D, A and B, and MOD (R368). -/
def mmaRule : Instr → Option (Bool × Bool × Nat × Nat × Nat × BitVec 6)
  | .mma _ _ d a b m => some (false, false, d.toNat, a.toNat, b.toNat, m)
  | .mmas _ _ d a b m => some (false, true, d.toNat, a.toNat, b.toNat, m)
  | .mmak _ _ d a b m => some (true, false, d.toNat, a.toNat, b.toNat, m)
  | _ => none

/-- The indices at the ranks of a row's keys (R371): the key at each rank is at least every key that ranks after it; equal
keys stand by rising index; NaN ranks last. -/
def RankedBy (keys : List Val) (at_ : Nat → Nat) : Prop :=
  (∀ m < keys.length, at_ m < keys.length) ∧
  ∀ m n, m < n → n < keys.length → at_ m ≠ at_ n ∧
    (rankedBefore (keys.getD (at_ m) .nan) (keys.getD (at_ n) .nan) = true ∨
      rankedBefore (keys.getD (at_ n) .nan) (keys.getD (at_ m) .nan) = false ∧ at_ m < at_ n)

/-- The reduction of values by maximum or minimum (R372): NaN where one is NaN, else one that no other passes. -/
def Extreme (greatest : Bool) (vs : List Val) (y : Val) : Prop :=
  (.nan ∈ vs → y = .nan) ∧ (.nan ∉ vs → y ∈ vs ∧ ∀ z ∈ vs, (if greatest then y.order z else z.order y) ≠ .lt)

/-! ## The Separator -/

/-- A block in information form holds these elements: Λ[i][j] and η[i] for indices below `d`, and 0 elsewhere. -/
def InfoIs (x : Info) (d : Nat) (l : Nat → Nat → Nat × Bool) (h : Nat → Nat × Bool) : Prop :=
  x.d = d ∧ (∀ i < 6, ∀ k < 6, x.l i k = if i < d ∧ k < d then ((l i k).1 % 2 ^ 32, (l i k).2) else (0, false)) ∧
    ∀ i < 6, x.h i = if i < d then ((h i).1 % 2 ^ 32, (h i).2) else (0, false)

/-- The left operand names a record that may be read: its system address, and d of its header (R248). -/
def RecordAt (s : State) (o : Fired) (write : Bool) (pa d : Nat) : Prop :=
  pailCheck s o.slot o.l.toNat [(o.l.toNat, 256)] write = none ∧ o.l.toNat % 256 = 0 ∧
    pa = poolBase (slotCore o.slot) + o.l.toNat ∧ s.wordPoisoned (pa + 0xDC) = false ∧ d = s.readN (pa + 0xDC) 4 % 8 ∧
    d ≠ 0 ∧ d ≠ 7

/-- An element of a record, with its poison (R248). -/
def recElem (s : State) (pa off : Nat) : Nat × Bool := (s.readN (pa + off) 4, s.wordPoisoned (pa + off))

/-- The offset of Λ[i][k] in a message: the upper triangle by rows (R248). -/
def triOffset (i k : Nat) : Nat := 4 * ((List.range (min i k)).map (fun n => 6 - n)).sum + 4 * (max i k - min i k)

/-- The next header (R375): STEP + 1, d replaced, every other bit kept. -/
def headerAfter (h d : Nat) : Nat := (h / 2 ^ 16 + 1) % 2 ^ 16 * 2 ^ 16 + h % 2 ^ 16 / 8 * 8 + d

/-- One elimination of variable `k` (R250): r = round(1 / Λ[k][k]), l[i] = round(Λ[k][i] × r), and every remaining element
less l times row k, fused and rounded once. -/
def ElimRule (x y : Info) (k : Nat) : Prop :=
  let r := roundElem ((Val.fin false 1 0).div (elemVal (x.l k k)))
  let l (i : Nat) : Nat := roundElem (Val.mul (elemVal (x.l k i)) (valueOf fmtE8M23 r)).1
  let less (v : Val) (i : Nat) (w : Val) : Nat :=
    roundElem (sumVals .rne [v, (Val.mul (valueOf fmtE8M23 (l i)) w).1.negate]).1
  y.d = k ∧ (∀ i n, i ≤ n → n < k → (y.l i n).1 = less (elemVal (x.l i n)) i (elemVal (x.l k n)) ∧ y.l n i = y.l i n) ∧
    ∀ i < k, (y.h i).1 = less (elemVal (x.h i)) i (elemVal (x.h k))

/-- A chain of eliminations from `x` down: `f k` is what is left when variables k and above are gone (R250). -/
def ElimChain (x : Info) (m : Nat) (f : Nat → Info) : Prop :=
  f x.d = x ∧ ∀ k, m ≤ k → k < x.d → f k = elimStep (f (k + 1)) k

/-! ## Actions after commit, messages, ranks -/

/-- The first deferred action of a slot, with nothing of the slot in memory unacknowledged (R86, R333). -/
def Due (s : State) (k num : Nat) (a : Action) : Prop :=
  (s.slot k).accs = [] ∧ ∃ rest, (s.slot k).post = (num, a) :: rest

/-- The action has been performed and left its line; nothing else of the state has changed but what `change` says of one
other slot. -/
def ActedOn (s t : State) (k m : Nat) (change : Slot → Slot) : Prop :=
  SameMemory s t ∧ t.slot k = { s.slot k with post := (s.slot k).post.drop 1 } ∧ t.slot m = change (s.slot m) ∧
    (∀ n, n ≠ k → n ≠ m → t.slot n = s.slot n) ∧ t.cores = s.cores ∧ t.modules = s.modules

/-- The action has been performed and counted as a misuse (R346, R353, R378). -/
def Misused (s t : State) (k : Nat) : Prop :=
  SameMemory s t ∧ t.slot k = { s.slot k with post := (s.slot k).post.drop 1 } ∧ (∀ n, n ≠ k → t.slot n = s.slot n) ∧
    (t.module (slotModule k)).taskMisuse = (s.module (slotModule k)).taskMisuse + 1

/-- An entry of a run list that is not free, named by a reference (R203, R343). -/
def EntryAt (s : State) (k : Nat) (ref : Word) (list n : Nat) (e : ListEntry) : Prop :=
  resolveRef s k 0 ref = .ok (list, n) ∧ readEntry s list n = e ∧ e.st ≠ 0 ∧ MemInv s ∧
    (2 ^ 80 ≤ list → Rising (s.cluster (list - 2 ^ 80)).list)

/-- An entry of a list stands with these fields; element, age, entry address and argument are kept. -/
def EntryBecomes (t : State) (list n : Nat) (e : ListEntry) (st prio count : Nat) : Prop :=
  let x := readEntry t list n
  x.st = st ∧ x.prio = prio ∧ x.count = count ∧ x.element = e.element ∧ x.age = e.age ∧ x.start = e.start ∧ x.w2 = e.w2

/-- One bit enters the remainder of CRC-64/ECMA-182, unreflected (R389). -/
def crcBit (c : Word) (b : Bool) : Word := if c.msb != b then (c <<< 1) ^^^ 0x42F0E1EBA9EA3693#64 else c <<< 1

/-- CRC-64/ECMA-182 of bytes in rising address order, each from its highest bit down (R389). -/
def crcOf (bs : List Byte) : Word :=
  (bs.flatMap fun b => (List.range 8).map fun n => b.getLsbD (7 - n)).foldl crcBit 0#64

/-- The innermost level of a launch that has instances of its own: the last, unless that is the element level (R360). -/
def lastLevel (l : Launch) : Nat := if levelDomain (l.level l.nlevm1) = 7 then l.nlevm1 - 1 else l.nlevm1

/-- Levels above `n` down to the innermost (R360). -/
def levelsBelow (l : Launch) (n : Nat) : List Nat := (List.range (lastLevel l - n)).map fun q => n + 1 + q

/-- A message can be taken by the core's next receive entry (R358). -/
def receiveAt (s : State) (c : Nat) : Nat :=
  poolBase c + queueBase (s.partition c) + 0x800 + 64 * (s.core c).rcvNext

/-! ## Traps -/

/-- The place of a trap in the order in which a slot takes them (R393); a fault inside an instance has been discarded with it
and comes last. -/
def trapPlace (t : Trap) : Nat := if t.cause = 0x0E then 2 else if t.origin = 1 then 0 else if t.origin = 2 then 1 else 3

/-- Of the pending traps of a slot, this one is taken first: copies and landing sends go in number order (R393). -/
def TakenFirst (sl : Slot) (t : Trap) : Prop :=
  t ∈ sl.pending ∧ ∀ u ∈ sl.pending, u = t ∨ (trapPlace t < trapPlace u ∧ ¬(t.origin = 2 ∧ u.origin = 2)) ∨
    (t.origin = 2 ∧ u.origin = 2 ∧ trapPlace t = trapPlace u ∧ t.seq < u.seq)

/-- The words of a trap record (R390). -/
def recordOf (k : Nat) (sl : Slot) (t : Trap) : List Word :=
  let handle := match sl.task with
    | some x => x.handle
    | none => 2 ^ 32 - 1
  [BitVec.ofNat 64 (handle * 2 ^ 32 + t.cause * 2 ^ 24 + (if t.replay then 2 ^ 23 else 0) + t.origin * 2 ^ 21 + k % 16 * 2 ^ 17 +
      k / 16 % 2048 * 2 ^ 6 + sl.exn),
    BitVec.ofNat 64 t.addr,
    BitVec.ofNat 64 (t.seq % 2 ^ 16 * 2 ^ 48 + (match t.origin, t.own with
      | 2, _ => t.block
      | _, some b => b
      | _, none => sl.blk) % 2 ^ 48),
    BitVec.ofNat 64 t.info]

/-- A slot whose record may be queued: its die's trap message stands alone for it, everything that its committed instances
owe to memory has been made and acknowledged (R88, R394), and it runs no task and no handler. -/
def RecordReady (s : State) (m k d : Nat) (ws : List Word) (replay : Bool) : Prop :=
  tabFind s.net m = some (.record k d ws replay true) ∧ (s.slot k).accs = [] ∧ (s.slot k).post = [] ∧ (s.slot k).task = none ∧
    (s.slot k).handlerFile = none ∧ Idle s ∧ ∃ t, (s.slot k).record = some t

/-- The place in the ring of the record that stands at a position (R395). -/
def ringPlace (s : State) (d pos : Nat) : Nat :=
  d / 4 * 2 ^ 48 + ((s.die d).tqBase.toNat / 2 ^ 15 % 2 ^ 33 * 2 ^ 15 + 32 * (pos % 1024))

/-! ## Power, control space, boot -/

/-- The writable bits of the control-space registers that hold what is written, by offset in a module's control space
(R160, R195, R395, R402, R404, R413); for a cluster cap, `pin` says whether PIN may be set. -/
def spaceMask (pin : Bool) (off : Nat) : Option Word :=
  if off < 0x800 ∧ off % 32 = 16 then some 0xF000FFFFFFFFFFF0#64
  else if 0x100000 ≤ off ∧ off < 0x140000 then some 0xC000007FFFFFFFFF#64
  else if 0x200000 ≤ off ∧ off < 0x200400 ∧ off % 256 = 0 then some 0xFFFFFFFF8001#64
  else if 0x200000 ≤ off ∧ off < 0x200400 ∧ off % 256 = 0x18 then some 0xFFE0FFFFFFFFFFFD#64
  else if 0x200000 ≤ off ∧ off < 0x200400 ∧ off % 256 = 0x80 then some 0xFFFFFFFF0000#64
  else if off = 0x300000 then some 0x800000000000FFFF#64
  else if 0x500000 ≤ off ∧ off < 0x500020 then some 0x3FFFF#64
  else if 0x501000 ≤ off ∧ off < 0x502000 then some (if pin then 0x1FFFF#64 else 0xFFFF#64)
  else none

/-- The control-space registers that are read only: COUNT of a ring, TQ.HEAD, TQ.TAIL and the latch (R195, R395). -/
def spaceFixed (off : Nat) : Prop :=
  (off < 0x800 ∧ off % 32 = 24) ∨ (0x200000 ≤ off ∧ off < 0x200400 ∧ (off % 256 = 8 ∨ off % 256 = 16 ∨ 0x40 ≤ off % 256 ∧ off % 256 < 0x60))

/-- The counter of corrected errors, by its place among R419's, that an address belongs to: 0 pool, 1 banks, 2 scale memory,
3 tier-2 (R58, R419). Where scale memory stands among the addresses is the model's own (log 42). -/
def countedAs (pa n : Nat) : Bool :=
  match regionOf (pa % 2 ^ 48) with
  | some (.own _) | some (.remote _ _) => n == 0
  | some .global => n == 1
  | some .tier2 => n == 3
  | some .control | some .cxl | some .host => false
  | none => n == 2 && pa % 2 ^ 48 / 2 ^ 47 == 1

/-- The power granted to the cores of a cluster. -/
def clusterGrant (s : State) (cl : Nat) : Nat := ((List.range 16).map fun i => (s.core (cl * 16 + i)).pwrGrant).sum

/-- The power granted to the cores of a die. -/
def dieGrant (s : State) (d : Nat) : Nat := ((List.range 128).map fun i => clusterGrant s (d * 128 + i)).sum

/-- The budgets of a die's clusters: a pinned cluster has its cap while the die's lasts, in rising order; the others share what
is left in proportion to their cores' requests, none above its cap (R412, R413). -/
def BudgetsOf (s : State) (d : Nat) (budget : Nat → Nat) : Prop :=
  let top := min 212500 ((s.die d).dcap.toNat % 2 ^ 18)
  let cap := min top ((s.die d).throttle.getD top)
  let pinned (c : Nat) : Bool := (s.cluster c).ccap.toNat / 2 ^ 16 % 2 == 1
  let own (c : Nat) := min 4080 ((s.cluster c).ccap.toNat % 2 ^ 16)
  let asks (c : Nat) := ((List.range 16).map fun i => (s.core (c * 16 + i)).pwrNext).sum
  let below (n : Nat) (p : Bool) : List Nat := ((List.range n).map fun i => d * 128 + i).filter fun c => pinned c == p
  ∀ i < 128, budget (d * 128 + i) = min (own (d * 128 + i)) (if pinned (d * 128 + i)
    then cap - ((below i true).map budget).sum
    else (cap - ((below 128 true).map budget).sum) * asks (d * 128 + i) / ((below 128 false).map asks).sum)

/-- A budget is granted to the cores of a cluster: each has the smaller of its request and an equal share, and what is over goes
to those whose requests are unmet, in rising order, until it is spent (R412). -/
def SharesOut (s t : State) (cl budget : Nat) : Prop :=
  let asks (i : Nat) := (s.core (cl * 16 + i)).pwrNext
  let grant (i : Nat) := (t.core (cl * 16 + i)).pwrGrant
  (∀ i < 16, min (asks i) (budget / 16) ≤ grant i ∧ grant i ≤ asks i) ∧ clusterGrant t cl ≤ budget ∧
    ∀ i < 16, grant i < asks i → clusterGrant t cl = budget ∧ ∀ j < 16, i < j → grant j = min (asks j) (budget / 16)

/-- The module has been frozen: no program slot of it has an instance that has not completed (R404). -/
def Froze (s t : State) (m : Nat) : Prop :=
  (t.module m).boot = .frozen ∧ (t.module m).frozenAt = s.now ∧ (t.module m).rebooted = false ∧
    ∀ k i, k / 16 / 8192 = m → k % 16 < 14 → (t.slot k).inst = some i → i.complete = true

/-! ## Launches -/

/-- The partition word obeys R40, and its classes fit the pool (R41). -/
def PartitionGood (p : Nat) : Prop :=
  let reg := p % 256
  let tile := p / 2 ^ 8 % 256
  let acc := p / 2 ^ 16 % 256
  let zone := p / 2 ^ 24 % 256
  let queue := p / 2 ^ 32 % 256
  p < 2 ^ 40 ∧ 1 ≤ reg ∧ reg ≤ 8 ∧ (∃ k ≤ 8, tile = 2 * k) ∧ (∃ k ≤ 8, acc = 4 * k ∨ acc = 4 * k + 1) ∧ zone ≤ 32 ∧
    (queue = 0 ∨ queue = 4) ∧ reg + tile + acc + zone + queue ≤ 96

/-- A record has a reserved bit of LCTRL set, or an address word with a bit above 47 (R185, R440). -/
def RecordMalformed (r : List Word) : Prop :=
  let w (i : Nat) : Nat := (r.getD i 0#64).toNat
  w 0 / 2 ^ 36 % 2 ^ 12 ≠ 0 ∨ w 0 / 2 ^ 25 % 2 ^ 7 ≠ 0 ∨ w 0 / 2 ^ 3 % 2 ^ 21 ≠ 0 ∨ ∃ i ∈ [1, 4, 5, 6], 2 ^ 48 ≤ w i

/-- LSTAT (R187). -/
def statusWord (state why ended : Nat) : Word := BitVec.ofNat 64 (state * 2 ^ 60 + why * 2 ^ 56 + ended)

/-- The queue has no completion ring (R195). -/
def NoRing (s : State) (m q : Nat) : Prop := (tabGet (s.module m).queues q {}).ring = 0#64

/-- The launch has no level that starts a child launch, and no element level (R185, R186). -/
def PlainLevels (r : List Word) : Prop := ∀ e ∈ levelWords r, levelNest e = false ∧ levelIsElement e = false

/-- The key of the part of a launch that a module carries: the launch's instance and record, and the module (R199; the form of
the key is log 106). -/
def partAt (la m : Nat) : Nat := la / 2 ^ 61 * 2 ^ 61 + m * 2 ^ 48 + la % 2 ^ 48

/-- No other launch stands at the record of this one, and it is no child launch (R185). -/
def Alone (s : State) (la : Nat) (l : Launch) : Prop :=
  l.parent = 0 ∧ tabFind s.launches 0 = none ∧ ∀ p ∈ s.launches, p.1 % 2 ^ 61 = la % 2 ^ 61 → p.1 = la

/-- A core has been taken for a launch: its registers, and its pool 0, full and clean (R48, R185, R188). -/
def CoreTaken (t : State) (la : Nat) (l : Launch) (c : Nat) : Prop :=
  (t.core c).launch = la ∧ (t.core c).partition = l.record.getD 2 0#64 ∧ (t.core c).own = l.record.getD 3 0#64 ∧
    (t.core c).xlatBase = l.base ∧ (t.core c).xlatAsid = l.asid ∧
    (∀ i < 4, tabGet (t.core c).zdesc i 0#64 = l.zones.getD i 0#64) ∧
    ∀ a, poolBase c ≤ a → a < poolBase c + 0x18000 → t.byte a = 0#8 ∧ t.isFull a = true ∧ t.wordPoisoned a = false

/-! ## The Parlour and threads -/

/-- The lowest-numbered free program slot of a core that belongs to a launch. -/
def FreeSlot (s : State) (core k : Nat) : Prop :=
  (s.core core).launch ≠ 0 ∧ k / 16 = core ∧ k % 16 < 14 ∧ (s.slot k).life = .free ∧
    ∀ x, x / 16 = core → x < k → (s.slot x).life ≠ .free

/-- The lowest-numbered free worker slot: with an element level, one of the slots that the launch placed (R188, R208). -/
def FreeWorker (s : State) (core k : Nat) : Prop :=
  let l := s.launch (s.core core).launch
  let free (x : Nat) : Prop := (s.slot x).life = .free ∧
    ((∃ e ∈ levelWords l.record, levelIsElement e = true) → ∃ t ∈ l.threads, t.1 = x)
  (s.core core).launch ≠ 0 ∧ k / 16 = core ∧ k % 16 < 14 ∧ free k ∧ ∀ x, x / 16 = core → x < k → ¬free x

/-- Of two tasks of a list this one is attempted first: by PRIO, then by age, then by entry (R204). -/
def Sooner (now : Nat) (a b : Nat × ListEntry) : Prop :=
  b.2.prio < a.2.prio ∨ a.2.prio = b.2.prio ∧
    (older now a.2.posted b.2.posted = true ∨ older now b.2.posted a.2.posted = false ∧ a.1 < b.1)

/-- The first of the eligible tasks of a list that may be attempted. -/
def NextTask (s : State) (now list n : Nat) (e : ListEntry) (may : Nat → Prop) : Prop :=
  n < listCap s list ∧ e = readEntry s list n ∧ e.st = 2 ∧ may n ∧
    ∀ m < listCap s list, (readEntry s list m).st = 2 → may m → m = n ∨ Sooner now (n, e) (m, readEntry s list m)

/-- A task has been dispatched to a worker slot: its entry is running, and the slot fetches at its ENTRY with ARGS in g1 to
g8, but for the word of a POST in g8 (R204, R218, R220). -/
def Dispatched (s t : State) (k list n : Nat) (e : ListEntry) (held : List Nat) : Prop :=
  let core := k / 16
  let l := s.launch (s.core core).launch
  EntryBecomes t list n e 3 e.prio e.count ∧ (t.slot k).life = .fetch ∧ (t.slot k).next = e.start ∧
    (t.slot k).deadline = (if l.desc = [] then 0#64 else l.desc.getD 5 0#64 &&& 0xFFFFFFFFFFFFFFFC#64) ∧
    (∃ x, (t.slot k).task = some x ∧ x.list = list ∧ x.entry = n ∧ x.handle = handleOf list n ∧ x.start = s.now ∧
      x.held = held ∧ x.element = if list < 2 ^ 80 then some e.element else none) ∧
    (∀ r, 1 ≤ r → r ≤ 7 → r < s.fileSize core - 1 → (t.slot k).reg r = { val := l.args.getD (r - 1) 0#64 }) ∧
    (8 < s.fileSize core - 1 → (t.slot k).reg 8 = { val :=
      if list < 2 ^ 80 ∧ n ∈ (s.core core).launchPosted then l.args.getD 7 0#64 else e.w2 }) ∧
    ∀ r, r = 0 ∨ 8 < r ∨ s.fileSize core - 1 ≤ r → (t.slot k).reg r = {}

/-- A record of a core's agent is on its way to the queue of its die: ORIGIN 11 and the task's handle (R212, R216, R390). -/
def AgentSays (t : State) (core handle cause addr info : Nat) : Prop :=
  ∃ id, tabFind t.net id = some (.record (core * 16) (core / 2048)
    [BitVec.ofNat 64 (handle * 2 ^ 32 + cause * 2 ^ 24 + 3 * 2 ^ 21 + core % 2048 * 2 ^ 6), BitVec.ofNat 64 addr, 0#64,
      BitVec.ofNat 64 info] false false)

/-- An agent has sent its next requests: a run of its ball in rising order, of at most 32 (R210). -/
def AsksFor (t : State) (core entry : Nat) (run rest : List Nat) : Prop :=
  run ≠ [] ∧ run.length ≤ 32 ∧ run <+: rest ∧ ∃ id age handle reqs, tabFind t.net id = some (.stall core entry age handle reqs) ∧
    reqs.map (fun x => x.1) = run

/-- STATE, SCOUNT, PAGE and OWNER of a stall word (R209). -/
def stallParts (w : Nat) : Nat × Nat × Nat × Nat := (w / 2 ^ 62, w / 2 ^ 48 % 2 ^ 14, w / 2 ^ 32 % 2 ^ 16, w % 2 ^ 32)

/-- A stall word of these parts. -/
def stallWord (st count page owner : Nat) : Nat := st * 2 ^ 62 + count * 2 ^ 48 + page * 2 ^ 32 + owner

/-- No party holds a word for a turn of its own, or waits for one (R99). -/
def NoTurns (s : State) : Prop :=
  ∀ p ∈ s.words, (∀ h, p.2.held = some h → h.1 < 2 ^ 100) ∧ ∀ r ∈ p.2.queue, r.op ≠ .turn

/-- An entry of a run list that an instruction of the running instance may write before its commit: one that a POST or POSTC of
the instance has reserved, or the lowest free one of the list that this one names (R345). -/
def EntryReserved (s : State) (i : Instr) (l n : Nat) : Prop :=
  let k := s.focus.slot
  ∃ j, (s.slot k).inst = some j ∧ ((∃ p ∈ j.actions, ∃ e b a y, p.2 = .post l n e b a y) ∨
    ((∃ p a b y, i = .post p a b y) ∨ ∃ p a b c, i = .postc p a b c) ∧ ∃ x, j.nodes[s.focus.node]? = some x ∧
      postList s k ((x.fired (formOf i) k s.focus.node).l.toNat % 2 ^ 32) = some l ∧ freeEntryOf s l = some n)

/-- The end of a thread may take effect: DONE or REPOST has committed, and nothing of it is left (R86, R190). -/
def MayEnd (sl : Slot) (repost : Option Word) : Prop :=
  sl.life = .ending repost ∧ sl.halt = .none ∧ sl.pending = [] ∧ sl.record = none ∧ sl.accs = [] ∧ sl.copies = [] ∧
    sl.unretired = [] ∧ sl.post = [] ∧ sl.join = 0

/-- What a request names does not answer: nothing is there, it found no valid entry, or FAB.TMO has passed (R19, R161,
R167). -/
def Silent (s : State) (core m sentAt : Nat) (stranded : Bool) : Prop :=
  (s.module m).populated = false ∨ stranded = true ∨
    sentAt + max 1 ((s.core core).fabTmo.toNat % 65536) * 4000000 ≤ s.now

end Sys2Proof.Safety
end

