-- ==== Sys2Proof/Certificates/Slice0/Obligations.lean ====
section
/-! DEFINITION. The statements for the provers. -/

open Sys2Proof Sys2Proof.Machine Sys2Proof.Safety

/-! ## Decoding -/

/-- Words written out in the spec decode to the instructions that it gives them (R266 to R271, and the listings of spec/13
to spec/17). -/
def Obligations.DecodeOfSpecWords : Prop :=
  decodeTableWord 32 0x0111A401 = some (.get .always (.to .left 3#5) (.to .left 4#5) 1#6) ∧
  decodeTableWord 32 0x38130006 = some (.lea .always (.to .left 6#5) .none .w64 6#6) ∧
  decodeTableWord 32 0x03238001 = some (.const .always (.to .right 7#5) 1#15) ∧
  decodeTableWord 32 0x74000206 = some (.amadd .always .none 0#5 true .w64 6#6) ∧
  decodeTableWord 32 0x74000606 = some (.amadd .always .none 1#5 true .w64 6#6) ∧
  decodeTableWord 32 0x3912A700 = some (.cell (.to .left 5#5) (.to .left 7#5)) ∧
  decodeTableWord 32 0x3A130000 = some (.hasha .always (.to .left 6#5) .none) ∧
  decodeTableWord 32 0x02000005 = some (.put .always 5#6) ∧
  decodeTableWord 32 0x0C000000 = some (.done .always 0#6)

/-- Every well-formed instruction word is read back as what was encoded, with every operand at every value that the encoding
admits. -/
def Obligations.DecodeEncode : Prop :=
  ∀ (i : Instr) (w : Nat), i.wf = true → i.encode = some w → decodeWord w = .ok i

/-- A 32-bit word has one meaning: what it decodes to is encoded as that word. An opcode that the opcode table does not list
is refused (R277, check 5). -/
def Obligations.EncodeDecode : Prop :=
  (∀ (w : Nat) (i : Instr), w < 2 ^ 32 → decodeWord w = .ok i → i.encode = some w) ∧
  (∀ w : Nat, w < 2 ^ 32 → formatOf (fld w 24 8) = none → decodeWord w = .error .opcode)

/-! ## The step -/

/-- When a core has the next turn and the rotation gives it an instruction whose word decodes to `i`, the step runs `i` at
that place, and then what follows from it by itself. An event of a turn has the meaning of the constructor of `Instr` of the
same name. -/
def Obligations.StepRunsDecoded : Prop :=
  (∀ (s : State) (core k n : Nat) (i : Instr) (j : Inst) (x : Node) (rest : List Turn),
    s.turns = .issue core :: rest → issueOf { s with turns := rest } core = some (k, n) → InstIs s k j →
    j.nodes[n]? = some x → decodeWord x.word = .ok i →
    step s = andThen (exec i (atFocus k n { s with turns := rest })) (settle exec)) ∧
  (∀ (s : State) (x y z : Nat),
  (runEvent (.blockFetch x) s = exec (.blockFetch x) s) ∧
  (runEvent (.commit x) s = exec (.commit x) s) ∧
  (runEvent (.normaliserServiceEnd x) s = exec (.normaliserServiceEnd x) s) ∧
  (runEvent (.threadEnd x) s = exec (.threadEnd x) s) ∧
  (runEvent (.pageWalkStart x) s = exec (.pageWalkStart x) s) ∧
  (runEvent (.pageWalkComplete x) s = exec (.pageWalkComplete x) s) ∧
  (runEvent (.tlbiComplete x) s = exec (.tlbiComplete x) s) ∧
  (runEvent (.memoryRequestArrival x) s = exec (.memoryRequestArrival x) s) ∧
  (runEvent (.holdRelease x) s = exec (.holdRelease x) s) ∧
  (runEvent (.requestCancel x) s = exec (.requestCancel x) s) ∧
  (runEvent (.memoryReplyArrival x) s = exec (.memoryReplyArrival x) s) ∧
  (runEvent (.nackResend x) s = exec (.nackResend x) s) ∧
  (runEvent (.notReadyResend x) s = exec (.notReadyResend x) s) ∧
  (runEvent (.reservationTimeout x) s = exec (.reservationTimeout x) s) ∧
  (runEvent (.amaddCombine x y) s = exec (.amaddCombine x y) s) ∧
  (runEvent (.amaddReplySplit x) s = exec (.amaddReplySplit x) s) ∧
  (runEvent (.barrierOpArrival x) s = exec (.barrierOpArrival x) s) ∧
  (runEvent (.phaseTreeArrival x) s = exec (.phaseTreeArrival x) s) ∧
  (runEvent (.phaseRelease x) s = exec (.phaseRelease x) s) ∧
  (runEvent (.mailboxHandoff x) s = exec (.mailboxHandoff x) s) ∧
  (runEvent (.copySubmit x) s = exec (.copySubmit x) s) ∧
  (runEvent (.engineRefusalResubmit x y) s = exec (.engineRefusalResubmit x y) s) ∧
  (runEvent (.copyRowTransfer x) s = exec (.copyRowTransfer x) s) ∧
  (runEvent (.copyRetire x) s = exec (.copyRetire x) s) ∧
  (runEvent (.trapTake x) s = exec (.trapTake x) s) ∧
  (runEvent (.trapRecordQueue x) s = exec (.trapRecordQueue x) s) ∧
  (runEvent (.handlerThreadStart x) s = exec (.handlerThreadStart x) s) ∧
  (runEvent (.lzReservation x) s = exec (.lzReservation x) s) ∧
  (runEvent (.landingPacket x) s = exec (.landingPacket x) s) ∧
  (runEvent (.slotLanded x y) s = exec (.slotLanded x y) s) ∧
  (runEvent (.zoneSlotTimeout x y) s = exec (.zoneSlotTimeout x y) s) ∧
  (runEvent (.senderAbort x) s = exec (.senderAbort x) s) ∧
  (runEvent (.lzfreePerform x) s = exec (.lzfreePerform x) s) ∧
  (runEvent (.landingSendRetire x) s = exec (.landingSendRetire x) s) ∧
  (runEvent (.landingAckTimeout x) s = exec (.landingAckTimeout x) s) ∧
  (runEvent (.remoteRequestArrival x) s = exec (.remoteRequestArrival x) s) ∧
  (runEvent (.fabricTimeout x) s = exec (.fabricTimeout x) s) ∧
  (runEvent (.linkStateChange x y) s = exec (.linkStateChange x y) s) ∧
  (runEvent (.injSend x) s = exec (.injSend x) s) ∧
  (runEvent (.messageArrival x) s = exec (.messageArrival x) s) ∧
  (runEvent (.collectiveResult x) s = exec (.collectiveResult x) s) ∧
  (runEvent (.refillStart x y) s = exec (.refillStart x y) s) ∧
  (runEvent (.refillComplete x) s = exec (.refillComplete x) s) ∧
  (runEvent (.migrationComplete x) s = exec (.migrationComplete x) s) ∧
  (runEvent (.spawnChildStart x) s = exec (.spawnChildStart x) s) ∧
  (runEvent (.matrixOpComplete x) s = exec (.matrixOpComplete x) s) ∧
  (runEvent (.grantPeriod x) s = exec (.grantPeriod x) s) ∧
  (runEvent (.thermalThrottle x y) s = exec (.thermalThrottle x y) s) ∧
  (runEvent (.lqDoor x y z) s = exec (.lqDoor x y z) s) ∧
  (runEvent (.lqRing x y z) s = exec (.lqRing x y z) s) ∧
  (runEvent (.launchDecision x) s = exec (.launchDecision x) s) ∧
  (runEvent (.reserve x) s = exec (.reserve x) s) ∧
  (runEvent (.reserveAnswer x) s = exec (.reserveAnswer x) s) ∧
  (runEvent (.start x) s = exec (.start x) s) ∧
  (runEvent (.release x) s = exec (.release x) s) ∧
  (runEvent (.endedReport x) s = exec (.endedReport x) s) ∧
  (runEvent (.parlourDispatchAttempt x) s = exec (.parlourDispatchAttempt x) s) ∧
  (runEvent (.parlourRetryTimer x y) s = exec (.parlourRetryTimer x y) s) ∧
  (runEvent (.stallWordRequest x) s = exec (.stallWordRequest x) s) ∧
  (runEvent (.holdReleaseParlour x) s = exec (.holdReleaseParlour x) s) ∧
  (runEvent (.quarantineMessage x) s = exec (.quarantineMessage x) s) ∧
  (runEvent (.colourPhaseStart x) s = exec (.colourPhaseStart x) s) ∧
  (runEvent (.deadlineExpiry x) s = exec (.deadlineExpiry x) s) ∧
  (runEvent (.timeBeacon x y) s = exec (.timeBeacon x y) s) ∧
  (runEvent (.patrolScrub x y) s = exec (.patrolScrub x y) s) ∧
  (runEvent (.watchdogRestart x y) s = exec (.watchdogRestart x y) s) ∧
  (runEvent (.watchdogExpiry x) s = exec (.watchdogExpiry x) s) ∧
  (runEvent (.kernelCrashReport x) s = exec (.kernelCrashReport x) s) ∧
  (runEvent (.warmReboot x) s = exec (.warmReboot x) s) ∧
  (runEvent (.reAdoption x) s = exec (.reAdoption x) s) ∧
  (runEvent (.moduleDeclaredLost x y) s = exec (.moduleDeclaredLost x y) s) ∧
  (runEvent (.coldBoot x) s = exec (.coldBoot x) s) ∧
  (runEvent (.tqBase x y) s = exec (.tqBase x y) s) ∧
  (runEvent (.resyncGo x y) s = exec (.resyncGo x y) s) ∧
  (runEvent (.controlRegisterWrite x y) s = exec (.controlRegisterWrite x y) s) ∧
  (runEvent (.frozenAnnouncement x y) s = exec (.frozenAnnouncement x y) s) ∧
  (runEvent (.thawedAnnouncement x y) s = exec (.thawedAnnouncement x y) s) ∧
  (runEvent (.holdAnswerArrival x) s = exec (.holdAnswerArrival x) s) ∧
  (runEvent (.expertLevelEnable x y z) s = exec (.expertLevelEnable x y z) s))

/-! ## Firing inside an instance -/

/-- An instruction that lacks an operand, has fired already, or stands in an instance that has completed does not fire: the
machine is unchanged (R177). Said of an instruction with two operands. Sending a token to two open operand slots puts it
there and changes nothing else; `none` is sent nothing (R178, R179). A NULL that arrives at an unresolved instruction
resolves it without firing, and its LSID is nullified (R67, R178). Said of an instruction that has no targets of its own. A
token into an operand slot that is occupied, or that the instruction does not use, discards the instance, and the slot takes
TOKEN COLLISION (R179, R391). -/
def Obligations.TokensFireInstructions : Prop :=
  (∀ (s : State) (p : Pred) (t u : Tgt) (w : Width) (n : Node),
    (s.focused = none ∨ (s.focused = some n ∧ (n.st ≠ .idle ∨ n.left = none ∨ n.left = some .null ∨ n.right = none ∨
      n.right = some .null ∨ (p ≠ .always ∧ n.third = none)))) →
    exec (.add p t u w) s = .next s) ∧
  (∀ (s : State) (k : Nat) (j : Inst) (t u : Tgt) (v : Token), InstIs s k j → (t = u → t = .none) →
    OpenFor j v t → OpenFor j v u →
    (sendTokens k [(t, v), (u, v)] s).slot k = { s.slot k with inst := some (putToken (putToken j v t) v u) } ∧
      OnlySlot k s (sendTokens k [(t, v), (u, v)] s)) ∧
  (∀ (s : State) (k : Nat) (j : Inst) (side : Side) (n : BitVec 5) (x : Node), InstIs s k j →
    j.nodes[n.toNat]? = some x → x.st = .idle → x.form.uses side = true → x.slotOf side = none →
    x.form.t = .none → x.form.u = .none → x.form.pair = false →
    ∃ i, ((sendTokens k [(.to side n, .null)] s).slot k).inst = some i ∧
      (∃ y, i.nodes[n.toNat]? = some y ∧ y.st = .resolved) ∧
      (∀ l, x.form.lsid = some l → tabFind i.lsids l.toNat = some .nullified) ∧
      i.puts = j.puts ∧ i.exit = j.exit ∧ i.actions = j.actions ∧
      OnlySlot k s (sendTokens k [(.to side n, .null)] s)) ∧
  (∀ (s : State) (k : Nat) (j : Inst) (side : Side) (n : BitVec 5) (x : Node) (v : Token), InstIs s k j →
    j.nodes[n.toNat]? = some x → (x.form.uses side = false ∨ x.slotOf side ≠ none) →
    ((sendTokens k [(.to side n, v)] s).slot k).inst = none ∧
      ∃ t, ((sendTokens k [(.to side n, v)] s).slot k).pending = (s.slot k).pending ++ [t] ∧ t.cause = 0x02 ∧
        t.origin = 0 ∧ t.replay = false ∧ t.info = n.toNat * 2 ^ 16 + (match side with
          | .left => 1
          | .right => 2
          | .third => 3) * 2 ^ 14)

/-- A fault inside an instance discards it: no register is written, no access that had not committed is left, nothing in
memory changes but the 24 bytes of a run-list entry that a POST of the instance had reserved; the slot stands before the block's start with
the trap pending, ORIGIN 00 (R184, R345, R393). -/
def Obligations.FaultDiscards : Prop :=
  ∀ (s : State) (k : Nat) (j : Inst) (t : Trap), InstIs s k j →
    (raise k t s).empties = s.empties ∧ (raise k t s).poison = s.poison ∧
      (MemInv s → ∀ a, (∀ p ∈ j.actions, ∀ l n e b w y, p.2 = .post l n e b w y → l < 2 ^ 80 →
        a < l + 32 * n ∨ l + 32 * n + 24 ≤ a) → (raise k t s).byte a = s.byte a) ∧
    ((raise k t s).slot k).inst = none ∧ ((raise k t s).slot k).life = .fetch ∧ ((raise k t s).slot k).next = j.blk ∧
      ((raise k t s).slot k).pending = (s.slot k).pending ++ [{ t with origin := 0 }] ∧
      ((raise k t s).slot k).accs = (s.slot k).accs.filter (fun a => a.committed) ∧
      ((raise k t s).slot k).copies = (s.slot k).copies ∧ ((raise k t s).slot k).post = (s.slot k).post ∧
      SameRegs (s.slot k) ((raise k t s).slot k) ∧
      ((∀ p ∈ j.actions, ∀ l n e b a y, p.2 ≠ .post l n e b a y) → SameMemory s (raise k t s))

/-! ## Opcodes 0x01 to 0x3F -/

/-- Integer arithmetic: what ADD, SUB, ADDI, MUL, MULH, MULHU, DIV, DIVU, REM, REMU, MIN, MAX, MINU, MAXU, ABSD, LEA and CMP
send (R230, R286, R291, R301), and a poisoned operand poisons the result (R292). Logic, constants, copies and selection:
AND, OR, XOR, ANDN, ORN, LUT3, SEL, MOV, CONST, CONSTH, HASHA and TEST (R296 to R298, R301, R302, R307, R310). Counting and
reversing: CLZ, CTZ, POPC, BREV and BSWAP (R301). Shifts, funnels and bit fields: SHL, SHR, SAR, SHLI, SHRI, SARI, ROL,
FSHL, FSHR, EXT, INS, SEXT and ZEXT (R301, R303 to R306). Packed lanes: PADD, PSUB, PMUL and PMAX (R311). -/
def Obligations.IntegerResults : Prop :=
  (∀ (s : State) (i : Instr) (o : Fired) (R : Word → Word → Word → Prop), Fires s i o → arithRule i = some R →
    ∃ v, R o.l o.r v ∧ exec i s = .next (finish i o (.data v o.poison) s)) ∧
  (∀ (s : State) (i : Instr) (o : Fired) (R : Word → Word → Word → Word → Prop), Fires s i o → logicRule i = some R →
    ∃ v, R o.l o.r o.t v ∧ exec i s = .next (finish i o (.data v o.poison) s)) ∧
  (∀ (s : State) (i : Instr) (o : Fired) (R : Word → Word → Prop), Fires s i o → bitRule i = some R →
    ∃ v, R o.l v ∧ exec i s = .next (finish i o (.data v o.poison) s)) ∧
  (∀ (s : State) (i : Instr) (o : Fired) (R : Word → Word → Word → Word → Prop), Fires s i o → shiftRule i = some R →
    ∃ v, R o.l o.r o.t v ∧ exec i s = .next (finish i o (.data v o.poison) s)) ∧
  (∀ (s : State) (i : Instr) (o : Fired) (R : Word → Word → Word → Prop), Fires s i o → packedRule i = some R →
    ∃ v, R o.l o.r v ∧ exec i s = .next (finish i o (.data v o.poison) s))

/-- GET sends its register as it stood when the instance started, g0 as 0 (R180, R294); while a reply to the register is
outstanding GET and PUT wait (R78, R294, R327), and a GET of a poisoned register raises POISON (R59, R63). PUT keeps its value
for commit (R180, R295); NULL sends NULL (R297). A poisoned predicate raises POISON in every instruction that has one, and a
poisoned operand in an exit (R292). An exit that is the first to fire in its instance is recorded with its exit number,
and nothing else changes: BR, BRR, CALL, CALLR, DONE, TRAP, and REPOST in a task (R275, R299, R300, R350). A second exit
that fires in an instance raises TOKEN COLLISION and discards the instance (R179). -/
def Obligations.RegistersAndExits : Prop :=
  ((∀ (s : State) (p : Pred) (t u : Tgt) (r : BitVec 6) (o : Fired) (j : Inst),
    Fires s (.get p t u r) o → InstIs s o.slot j → (r ≠ 0#6 → (tabGet j.regs0 r.toNat {}).pending = false ∧
      (tabGet j.regs0 r.toNat {}).poison = false) →
    exec (.get p t u r) s = .next (finish (.get p t u r) o
      (.data (if r = 0#6 then 0#64 else (tabGet j.regs0 r.toNat {}).val) false) s)) ∧
  (∀ (s : State) (p : Pred) (r : BitVec 6) (o : Fired) (j : Inst),
    Fires s (.put p r) o → InstIs s o.slot j → (r ≠ 0#6 → (tabGet j.regs0 r.toNat {}).pending = false) →
    j.hasReg r.toNat = false → (r = 63#6 → j.called = false) →
    ∃ t, exec (.put p r) s = .next t ∧ OnlySlot o.slot s t ∧
      t.slot o.slot = { s.slot o.slot with
        inst := some { stand j o.node .fired with puts := j.puts ++ [(r.toNat, o.l, o.lp)] } }) ∧
  (∀ (s : State) (p : Pred) (t u : Tgt) (o : Fired), Fires s (.null p t u) o →
    exec (.null p t u) s = .next (finish (.null p t u) o .null s))) ∧
  (∀ (s : State) (p : Pred) (t u : Tgt) (r : BitVec 6) (o : Fired) (j : Inst), Fires s (.get p t u r) o → InstIs s o.slot j →
    r ≠ 0#6 →
    ((tabGet j.regs0 r.toNat {}).pending = true → exec (.get p t u r) s = .next s) ∧
    ((tabGet j.regs0 r.toNat {}).pending = false → (tabGet j.regs0 r.toNat {}).poison = true →
      exec (.get p t u r) s = .next (raise o.slot { cause := 0x07, addr := r.toNat, info := 0x60 + r.toNat * 2 ^ 16 } s))) ∧
  (∀ (s : State) (p : Pred) (r : BitVec 6) (o : Fired) (j : Inst), Fires s (.put p r) o → InstIs s o.slot j → r ≠ 0#6 →
    (tabGet j.regs0 r.toNat {}).pending = true → exec (.put p r) s = .next s) ∧
  (∀ (s : State) (i : Instr) (n : Node) (j : Inst) (v : Word), InstIs s s.focus.slot j → s.focused = some n →
    n.ready (formOf i) = true → (formOf i).predicated = true → n.third = some (.data v true) →
    ((formOf i).kind = .matrix → qTurn j s.focus.node = true) →
    exec i s = .next (raise s.focus.slot poisonedOperand s)) ∧
  (∀ (s : State) (i : Instr) (o : Fired), Fires s i o → (exitRule i).isSome = true → o.poison = true →
    (∃ j, InstIs s o.slot j) → exec i s = .next (raise o.slot poisonedOperand s)) ∧
  (∀ (s : State) (i : Instr) (o : Fired) (j : Inst) (E : Inst → Fired → Exit × Nat), FiresClean s i o →
    InstIs s o.slot j → exitRule i = some E → j.exit = none → j.hasReg 63 = false →
    (needsTask i = true → (s.slot o.slot).task.isSome = true) →
    ∃ t, exec i s = .next t ∧ OnlySlot o.slot s t ∧
      t.slot o.slot = { s.slot o.slot with inst := some { stand j o.node .fired with exit := some (E j o) } }) ∧
  (∀ (s : State) (i : Instr) (o : Fired) (j : Inst) (E : Inst → Fired → Exit × Nat), FiresClean s i o →
    InstIs s o.slot j → exitRule i = some E → j.exit ≠ none →
    (needsTask i = true → (s.slot o.slot).task.isSome = true) →
    exec i s = .next (raise o.slot { cause := 0x02, addr := 0, info := o.node * 2 ^ 16 } s))

/-- What an integer instruction, a register access or an exit of a running instance leaves as it was: while its instance
stands afterwards, every register, every memory byte, every other slot and every other table; of its own slot only the
instance changes. -/
def Obligations.IntegerFrame : Prop :=
  ∀ (s t : State) (i : Instr) (o : Fired), Fires s i o →
    ((arithRule i).isSome = true ∨ (logicRule i).isSome = true ∨ (bitRule i).isSome = true ∨ (shiftRule i).isSome = true ∨
      (packedRule i).isSome = true ∨ (exitRule i).isSome = true ∨ (∃ p a b r, i = .get p a b r) ∨ (∃ p r, i = .put p r) ∨
      ∃ p a b, i = .null p a b) →
    exec i s = .next t → (t.slot o.slot).inst ≠ none →
    OnlySlot o.slot s t ∧ ∃ j, t.slot o.slot = { s.slot o.slot with inst := j }

/-! ## Floating point -/

/-- The floating instructions: a value that `floatRule` admits is sent, poisoned where an operand is; its flags are added to
those of the instance; the mode FPC.RM is that of the instance's start; and the slot goes to the normaliser where R228 asks for
it (R226 to R228, R292, R312 to R319). FADD, FSUB, FMUL, FFMA, ITOF, FSCALE and the lanes of VADD2, VSUB2, VMUL2, VFMA2 and
VDOT2 round their exact value once; FCVT and VCVT2 the value of what they read; FMIN and FMAX select an operand; FSGN replaces a
sign; FRND and FTOI take the integer of the mode, FTOI saturating; FRCP, FRSQ, FEXP2S and FLOG2S send the table entry nearest to
their formula, scaled and rounded once (R229, R231, R232). An operand's value is that of its fields (R221); sums and products are
exact (R225). -/
def Obligations.FloatResults : Prop :=
  (∀ (s : State) (i : Instr) (o : Fired) (j : Inst) (F : (FMode → Rounding) → Fired → FResult → Prop), Fires s i o →
    InstIs s o.slot j → floatRule i = some F →
    ∃ res : FResult, F (fmodeOf j.fpc0) o res ∧
      exec i s = .next (finish i o (.data res.v o.poison)
        (let t := s.modInst o.slot fun x => { x with flags := x.flags ||| res.flags.bits }
         if res.slow then normalise o.slot t else t))) ∧
  (∀ (f : FForm) (x : Word), fVal f x = fieldValue f x) ∧
  (∀ (mode : Rounding) (xs : List Val), ExactSum mode xs (sumVals mode xs)) ∧
  (∀ x y : Val, ExactProduct x y (x.mul y))

/-- Rounding is correct (R225, R226, R229): a finite value that does not overflow is rounded to a value of the format that no
other value of the format betters in the mode, a tie under RNE going to the even significand; NX is raised exactly where the
value changed, and UF where it changed and ends below the smallest normal. An overflow gives the infinity or the largest value
that the mode asks for. Zeros keep their sign; infinities stay, or become the largest value with OF; NaN becomes the canonical
NaN, or +0 with NV in a format without NaN. The pattern stands in its container, its ignored bits 0. -/
def Obligations.RoundingIsCorrect : Prop :=
  (∀ f ∈ formats, (∃ b < 2 ^ patternBits f, valueOf f b = .fin false (topSig f) (topUnit f)) ∧
    (∀ (b : Nat) (n : Bool) (m : Nat) (e k : Int), valueOf f b = .fin n m e → k ≤ e → k ≤ topUnit f →
      inUnits k false m e ≤ inUnits k false (topSig f) (topUnit f)) ∧
    ∀ (mode : Rounding) (x : Val), (roundTo f mode x).bits < 2 ^ patternBits f ∧ (roundTo f mode x).bits % 2 ^ f.low = 0 ∧
      match x with
      | .nan => match canonicals.find? fun p => p.1 = f with
        | some p => (roundTo f mode x).bits = p.2 ∧ (roundTo f mode x).flags = {}
        | none => (roundTo f mode x).bits = 0 ∧ (roundTo f mode x).flags = { nv := true }
      | .inf n => if f ∈ withInfinities then valueOf f (roundTo f mode x).bits = .inf n ∧ (roundTo f mode x).flags = {}
        else valueOf f (roundTo f mode x).bits = .fin n (topSig f) (topUnit f) ∧ (roundTo f mode x).flags = { ofl := true }
      | .fin n 0 _ => (∃ e, valueOf f (roundTo f mode x).bits = .fin n 0 e) ∧ (roundTo f mode x).flags = {}
      | .fin n m e => ((roundTo f mode x).flags.ofl = true ↔ Overflows mode n m e (topSig f) (topUnit f)) ∧
        ((roundTo f mode x).flags.ofl = true → (roundTo f mode x).flags = { ofl := true, nx := true } ∧
          valueOf f (roundTo f mode x).bits =
            if f ∈ withInfinities ∧ toInfinity mode n = true then .inf n else .fin n (topSig f) (topUnit f)) ∧
        ((roundTo f mode x).flags.ofl = false → (roundTo f mode x).flags.nv = false ∧ (roundTo f mode x).flags.dz = false ∧
          ∃ (m' : Nat) (e' : Int), valueOf f (roundTo f mode x).bits = .fin n m' e' ∧
            ((roundTo f mode x).tiny = true ↔ ∀ k : Int, k ≤ e' → k ≤ 1 - f.bias → inUnits k false m' e' < inUnits k false 1 (1 - f.bias)) ∧
            (roundTo f mode x).flags.uf = ((roundTo f mode x).flags.nx && (roundTo f mode x).tiny))) ∧
  ∀ f ∈ formats, ∀ (mode : Rounding) (neg : Bool) (m : Nat) (e : Int), m ≠ 0 →
    (roundTo f mode (.fin neg m e)).flags.ofl = false →
    ∃ (n' : Bool) (m' : Nat) (e' : Int), valueOf f (roundTo f mode (.fin neg m e)).bits = .fin n' m' e' ∧
      (∀ k : Int, k ≤ e → k ≤ e' →
        ((roundTo f mode (.fin neg m e)).flags.nx = false ↔ inUnits k n' m' e' = inUnits k neg m e)) ∧
      ∀ b < 2 ^ patternBits f, ∀ (nz : Bool) (mz : Nat) (ez k : Int), valueOf f b = .fin nz mz ez → k ≤ e → k ≤ e' → k ≤ ez →
        roundedFor mode (inUnits k neg m e) (inUnits k n' m' e') (inUnits k nz mz ez) (m' % 2 == 0)

/-- FCLASS sends a mask with one bit set, that of its operand's class (R315). -/
def Obligations.FclassSendsOneBit : Prop :=
  ∀ (s : State) (p : Pred) (t u : Tgt) (f : FForm) (o : Fired) (j : Inst), Fires s (.fclass p t u f) o →
    InstIs s o.slot j →
    exec (.fclass p t u f) s = .next (finish (.fclass p t u f) o (.data (1#64 <<< classOf f o.l) o.poison)
      (if classOf f o.l = 2 ∨ classOf f o.l = 5 then normalise o.slot s else s))

/-- FCMP sends 1 where its condition holds of the values of its operands, else 0; with a NaN operand EQ, LT and LE are false, UN
and NE true, and LT and LE raise NV; +0 equals −0 (R287). The sign of an exact zero sum (R225): a value and its negative add to +0, and to −0 under RD;
zeros of one sign keep it; and ∞ − ∞ is NaN with NV. CELL sends the three key components of its coordinates interleaved, bit
63 being 0, with no flag and no turn of the normaliser (R308, R309). -/
def Obligations.ComparesSumsAndCells : Prop :=
  (∀ (f : FForm) (l r : Word),
    (classOf f l = 8 ∨ classOf f r = 8 → ∀ c : FCond,
      (fcmpOp f c l r).v = (if c = .un ∨ c = .ne then 1#64 else 0#64) ∧
        (fcmpOp f c l r).flags = { nv := c = .lt || c = .le }) ∧
    (classOf f l ≠ 8 → classOf f r ≠ 8 →
      (∀ c : FCond, Tells (fcmpOp f c l r).v (condHolds c (fVal f l) (fVal f r))) ∧
      (fcmpOp f .un l r).v = 0#64 ∧ (∀ c : FCond, (fcmpOp f c l r).flags = {}) ∧
      ((fcmpOp f .eq l r).v = 1#64 ↔ (fcmpOp f .ne l r).v = 0#64) ∧
      ((fcmpOp f .le l r).v = 1#64 ↔ (fcmpOp f .lt l r).v = 1#64 ∨ (fcmpOp f .eq l r).v = 1#64) ∧
      ((fcmpOp f .lt l r).v = 1#64 → (fcmpOp f .lt r l).v = 0#64) ∧
      (classOf f l ∈ [3, 4] → classOf f r ∈ [3, 4] → (fcmpOp f .eq l r).v = 1#64))) ∧
  (∀ (mode : Rounding) (n : Bool) (m : Nat) (e e' : Int),
    (m ≠ 0 → sumVals mode [.fin n m e, .fin (!n) m e] = (.fin (mode = .rd) 0 0, false)) ∧
    sumVals mode [.fin n 0 e, .fin n 0 e'] = (.fin n 0 0, false) ∧
    sumVals mode [.fin n 0 e, .fin (!n) 0 e'] = (.fin (mode = .rd) 0 0, false) ∧
    sumVals mode [.inf n, .inf (!n)] = (.nan, true)) ∧
  (∀ (s : State) (t u : Tgt) (o : Fired) (j : Inst), Fires s (.cell t u) o → InstIs s o.slot j →
    ∃ v : Word, exec (.cell t u) s = .next (finish (.cell t u) o (.data v o.poison) s) ∧ v.getLsbD 63 = false ∧
      ∀ i < 21, v.getLsbD (3 * i) = (cellKey (fVal .e8m23 o.l) (fVal .e8m23 j.cellInv0)).testBit i ∧
        v.getLsbD (3 * i + 1) = (cellKey (fVal .e8m23 o.r) (fVal .e8m23 j.cellInv0)).testBit i ∧
        v.getLsbD (3 * i + 2) = (cellKey (fVal .e8m23 o.t) (fVal .e8m23 j.cellInv0)).testBit i)

/-! ## Memory operations as they fire -/

/-- A local memory operation whose operands are clean, whose address passes the checks of R32 and whose location passes
those of R101 and R113 is queued as `accessRule` says, and its LSID is resolved (R64, R67, R70, R320 to R323, R325, R330,
R331): LD8 to LD128, ST8 to ST128, LDSYNC, STSYNC, LDFF, STFF, SETE, FESTAT, RSV, CAS, SWAP, AMIN, AMAX, MWAIT, BARJ, BARA,
BARX and BARW. Where the address of a local memory operation fails its checks, the instance is discarded with that fault;
where the translation cache misses, the access waits for a walk of its page (R27, R31, R184). A poisoned address raises POISON, and
so does poisoned data, but for a pure store, a STSYNC, a STFF or an RST; this holds of REL, RELN, AMADD, RLD, RST, RAT and RADD too
(R59, R292, R320). -/
def Obligations.LocalAccesses : Prop :=
  (∀ (s : State) (i : Instr) (o : Fired) (j : Inst) (R : AccessRule) (pa : Nat), Fires s i o → InstIs s o.slot j →
    accessRule i = some R → R.mayUse o → checkAddr s (R.want o) = .at pa →
    locationCheck (s.slot o.slot) j (R.acc o s j pa) = none → FreshId s o.slot →
    ∃ t, exec i s = .next t ∧ Entered s t o j (R.acc o s j pa)) ∧
  (∀ (s : State) (i : Instr) (o : Fired) (j : Inst) (R : AccessRule), Fires s i o → InstIs s o.slot j →
    accessRule i = some R → R.mayUse o →
    (∀ f, checkAddr s (R.want o) = .fault f → exec i s = .next (raise o.slot f s)) ∧
    (checkAddr s (R.want o) = .miss → ∃ t, exec i s = .next t ∧
      (t.slot o.slot).accs = (s.slot o.slot).accs ++ [{ R.acc o s j 0 with st := .walking }] ∧
      (∃ w ∈ t.walks, w.2.va = R.va o / 65536 * 65536 ∧ w.2.cluster = coreCluster (slotCore o.slot) ∧
        (w.2.stale = false ∨ w.2.started = false)) ∧
      SameMemory s t)) ∧
  (∀ (s : State) (i : Instr) (o : Fired) (R : AccessRule), Fires s i o →
    (accessRule i = some R ∨ releaseRule i = some R ∨ remoteRule i = some R ∨
      ∃ p t l rlx w n, i = .amadd p t l rlx w n ∧ R = amaddRule l rlx w n none) → ¬R.mayUse o →
    exec i s = .next (raise o.slot poisonedOperand s))

/-- REL and RELN of a word that an RSV of the instance has reserved are queued for commit (R101, R325). AMADD without T0 is
queued for commit; with T0 at the left slot of a PUT it resolves that PUT, whose register will be pending (R104, R325,
R327). The remote operations RLD, RST, RAT and RADD are queued under their global name: module and address taken from the
left operand, the offset added to the address alone (R80, R354, R355). -/
def Obligations.ReleasesAddsRemote : Prop :=
  (∀ (s : State) (i : Instr) (o : Fired) (j : Inst) (R : AccessRule) (pa : Nat), Fires s i o → InstIs s o.slot j →
    releaseRule i = some R → o.poison = false → o.l.toNat < 2 ^ 48 →
    heldByRat s o.slot 0 (o.l.toNat + R.off * R.unit).toNat = false → checkAddr s (R.want o) = .at pa →
    locationCheck (s.slot o.slot) j (R.acc o s j pa) = none → FreshId s o.slot →
    ∃ t, exec i s = .next t ∧ Entered s t o j (R.acc o s j pa)) ∧
  ((∀ (s : State) (p : Pred) (l : BitVec 5) (rlx : Bool) (w : Width) (n : BitVec 6) (o : Fired) (j : Inst) (pa : Nat),
    Fires s (.amadd p .none l rlx w n) o → InstIs s o.slot j → o.poison = false → FreshId s o.slot →
    checkAddr s ((amaddRule l rlx w n none).want o) = .at pa →
    ∃ t, exec (.amadd p .none l rlx w n) s = .next t ∧ Entered s t o j ((amaddRule l rlx w n none).acc o s j pa)) ∧
  (∀ (s : State) (p : Pred) (c : BitVec 5) (l : BitVec 5) (rlx : Bool) (w : Width) (n : BitVec 6) (o : Fired) (j : Inst)
    (x : Node) (q : Pred) (r : BitVec 6) (pa : Nat),
    Fires s (.amadd p (.to .left c) l rlx w n) o → InstIs s o.slot j → o.poison = false → o.node ≠ c.toNat →
    j.nodes[c.toNat]? = some x → x.instr = some (.put q r) → x.left = none → x.st = .idle → j.hasReg r.toNat = false →
    (tabGet j.regs0 r.toNat {}).pending = false → checkAddr s ((amaddRule l rlx w n none).want o) = .at pa →
    ∃ t i, exec (.amadd p (.to .left c) l rlx w n) s = .next t ∧ InstIs t o.slot i ∧
      i.pends = j.pends ++ [r.toNat] ∧ i.puts = j.puts ∧ (∃ y, i.nodes[c.toNat]? = some y ∧ y.st = .fired) ∧
      (amaddRule l rlx w n (some r.toNat)).acc o s j pa ∈ (t.slot o.slot).accs ∧ SameMemory s t)) ∧
  (∀ (s : State) (i : Instr) (o : Fired) (j : Inst) (R : AccessRule), Fires s i o → InstIs s o.slot j →
    remoteRule i = some R → R.mayUse o → o.l.toNat < 2 ^ 61 → 0 ≤ R.far o → R.far o < 2 ^ 48 → R.far o % R.unit = 0 →
    FreshId s o.slot → locationCheck (s.slot o.slot) j (R.remoteAcc o s j) = none →
    ∃ t, exec i s = .next t ∧ Entered s t o j (R.remoteAcc o s j))

/-- Bits [63:48] of an address operand are 0; any other value raises PROTECTION (R10), before every other check. -/
def Obligations.HighAddressBits : Prop :=
  ∀ (s : State) (w : Want), 2 ^ 48 ≤ w.va →
    (∃ f, checkAddr s w = .fault f ∧ f.cause = 0x06 ∧ f.addr = w.va ∧ f.info % 16 = 6 ∧ f.replay = false) ∧
    ∃ f, checkWalk s w = .fault f ∧ f.cause = 0x06 ∧ f.addr = w.va ∧ f.info % 16 = 6 ∧ f.replay = false

/-- Below 2^48 an address that is not aligned to the access size raises MISALIGNED, before any check of the region (R32). A
program-level access to the control space raises PROTECTION with REASON 0x5 (R15). -/
def Obligations.AddressChecks : Prop :=
  (∀ (s : State) (w : Want), w.va < 2 ^ 48 → w.va % w.size ≠ 0 →
    ∃ f, checkAddr s w = .fault f ∧ f.cause = 0x04 ∧ f.addr = w.va ∧ f.info % 16 = 0xC ∧ f.replay = false) ∧
  (∀ (s : State) (w : Want), w.va < 2 ^ 48 → w.va / 2 ^ 40 = 0xF → w.va % w.size = 0 → w.sys = false →
    (w.use = .load ∨ w.use = .store) →
    ∃ f, checkAddr s w = .fault f ∧ f.cause = 0x06 ∧ f.info % 16 = 5)

/-- FENCE with nothing to wait for is resolved at once; else it waits (R75). PHASE on a phase-capable level of which the
thread is a live member queues its arrival; elsewhere it raises ILLEGAL, and on a broken context BARRIER BROKEN (R121,
R122). An access leaves its slot exactly where `MayLeave` says: when every lower LSID is resolved, after commit for a commit-time
operation; an ordered one when no other ordered access is outstanding and every earlier one has performed; one of any kind after
every earlier access of its slot to the same word, after every FENCE that still holds it back, and clear of the range scoreboard
(R66, R67, R70, R73, R75, R76, R84). -/
def Obligations.FenceAndPhase : Prop :=
  (∀ (s : State) (p : Pred) (l : BitVec 5) (sc : Scope) (o : Fired) (j : Inst), Fires s (.fence p l sc) o →
    InstIs s o.slot j → ∃ t, exec (.fence p l sc) s = .next t ∧ OnlySlot o.slot s t ∧
      t.slot o.slot = { s.slot o.slot with inst := some (
        if fenceWaits s o.slot (s.slot o.slot) j.num l.toNat sc then stand j o.node .waiting
        else { stand j o.node .fired with lsids := tabPut j.lsids l.toNat .fired }) }) ∧
  (∀ (s : State) (p : Pred) (l : BitVec 5) (v : BitVec 3) (o : Fired) (j : Inst) (c : Nat × PhaseCtx),
    Fires s (.phase p l v) o → InstIs s o.slot j → s.phaseOf o.slot v.toNat = some c →
    (c.2.broken = false → FreshId s o.slot → ∃ t, exec (.phase p l v) s = .next t ∧ Entered s t o j
      { id := s.nextId, inst := j.num, lsid := l.toNat, node := o.node, kind := .commitTime, ordered := true
        op := .phase v.toNat, va := 0, pa := 2 ^ 62, blk := (s.slot o.slot).blk }) ∧
    (c.2.broken = true →
      exec (.phase p l v) s = .next (raise o.slot { cause := 0x10, addr := 0, info := v.toNat } s))) ∧
  (∀ (s : State) (p : Pred) (l : BitVec 5) (v : BitVec 3) (o : Fired), Fires s (.phase p l v) o →
    s.phaseOf o.slot v.toNat = none →
    exec (.phase p l v) s = .next (raise o.slot { cause := 0x01, addr := 0, info := o.node * 2 ^ 16 } s)) ∧
  (∀ (s : State) (k : Nat) (a : Acc), a.op ≠ .bara → (∀ level, a.op ≠ .phase level) →
    (maySend s k (s.slot k) a = true ↔ MayLeave s k a) ∧
    (¬MayLeave s k a → sendAcc k a s = s) ∧
    (MayLeave s k a → a ∈ (s.slot k).accs → OneRequest a → (∀ n b, a.op ≠ .load n b) →
      Resent s (sendAcc k a s) k a (a.park || (s.slot k).feRetry == 0#64)))

/-! ## Requests at their points of coherence -/

/-- A request that arrives at memory where no other instance holds its words is performed at once, and answered (R54, R59,
R98, R99, R104, R106, R107, R110, R115): loads, stores, full/empty operations, AMADD, MWAIT, BARW and the grants of holding
operations. Its own bytes apart, memory is as it was. A request for a word that another instance holds leaves memory as it
is: FESTAT is answered, any other waits in the hold queue in arrival order, and where the unit has no entry free it is
answered NACK (R98 to R100); a write that no party waits for, of an outside master or of a unit itself, then comes again after the
back-off. -/
def Obligations.RequestsPerform : Prop :=
  (∀ (s : State) (m : Nat) (r : Req), MemInv s → tabFind s.net m = some (.req r) →
    regionOf (r.pa % 2 ^ 48) ≠ some .control → blockedAt s r = none → (r.persists = true → backingOff s r.src = false) →
    ∃ t, exec (.memoryRequestArrival m) s = .next t ∧ Performed r s t) ∧
  (∀ (s : State) (m : Nat) (r : Req) (w : Nat), tabFind s.net m = some (.req r) → r.persists = true →
    regionOf (r.pa % 2 ^ 48) ≠ some .control → r.op ≠ .festat →
    (backingOff s r.src = true → exec (.memoryRequestArrival m) s = .next s) ∧
    (backingOff s r.src = false → blockedAt s r = some w → ∃ t, exec (.memoryRequestArrival m) s = .next t ∧ SameMemory s t ∧
      (entryFree s r.pa = true → (t.wordQ w).queue = (s.wordQ w).queue ++ [r]) ∧
      (entryFree s r.pa = false → r.op ≠ .breakBar → tabFind t.net s.nextId = some (.req r) ∧
        ∃ n, 1 ≤ n ∧ (r.src, n, s.now + min (64 * 2 ^ (n - 1)) 4096) ∈ t.waits))) ∧
  (∀ (s : State) (m : Nat) (r : Req) (w : Nat), tabFind s.net m = some (.req r) → r.persists = false →
    regionOf (r.pa % 2 ^ 48) ≠ some .control → blockedAt s r = some w →
    ∃ t, exec (.memoryRequestArrival m) s = .next t ∧ SameMemory s t ∧
      (r.op = .festat → ∃ v, Answered s t r (.value v 0#64 false) ∧ v.getLsbD 0 = s.isFull r.pa) ∧
      (r.op ≠ .festat → entryFree s r.pa = true →
        t = (s.drop m).setWordQ w { s.wordQ w with queue := (s.wordQ w).queue ++ [r] }) ∧
      (r.op ≠ .festat → entryFree s r.pa = false → Answered s t r .nack))

/-- A release of a word by the instance that holds it opens the word with what the release writes: REL its value into the
named part, RELN nothing, LDSYNC EMPTY, STSYNC its value and FULL (R77, R99, R325). Where nothing waits, no other byte
changes and the word stays open. Where requests wait, the oldest is served at once: a hold is granted and the rest waits on, a party
that makes its access itself has its turn, and a load, store, AMADD, SETE or STFF performs (R99). The word that SWAP, CAS, AMIN and AMAX release, of the word they were granted: at 32 bits
the named half is compared and replaced and the other half kept; AMIN and AMAX compare signed or unsigned; CAS releases the
old word where the comparison fails (R103, R326). -/
def Obligations.HoldsRelease : Prop :=
  (∀ (s : State) (m : Nat) (r : Req), MemInv s → Rising s.words → tabFind s.net m = some (.release r) →
    r.owns (s.wordQ (r.pa / 8)) = true → (s.wordQ (r.pa / 8)).queue = [] → (s.wordQ (r.pa / 8)).waiters = [] →
    ∃ t, exec (.holdRelease m) s = .next t ∧ Answered s t r .ack ∧ (t.wordQ (r.pa / 8)).held = none ∧
      (match r.op with
        | .rel w v => r.pa % atomBytes w = 0 → t.readN r.pa (atomBytes w) = v.toNat % 2 ^ (8 * atomBytes w) ∧
            MemoryBut s t r.pa (atomBytes w) ∧ t.empties = s.empties ∧ t.poison = s.poison
        | .ldsync => t.mem = s.mem ∧ t.poison = s.poison ∧ t.isFull r.pa = false
        | .stsync v p => r.pa % 8 = 0 → t.word r.pa = v ∧ t.isFull r.pa = true ∧ t.wordPoisoned r.pa = p ∧
            MemoryBut s t r.pa 8
        | _ => SameMemory s t)) ∧
  (∀ (s : State) (m : Nat) (r q : Req) (w : Width) (rest : List Req), tabFind s.net m = some (.release r) → r.op = .reln w →
    r.owns (s.wordQ (r.pa / 8)) = true → (s.wordQ (r.pa / 8)).queue = q :: rest → q.words = [r.pa / 8] →
    ∃ t, exec (.holdRelease m) s = .next t ∧ Answered s t r .ack ∧
      (q.op = .turn → SameMemory s t ∧
        t.wordQ (r.pa / 8) = { s.wordQ (r.pa / 8) with held := some (q.src.key, 0, 0), queue := rest }) ∧
      (∀ k a, q.src = .slot k a → alwaysGranted q.op = true → s.wordPoisoned q.pa = false → SameMemory s t ∧
        Answered s t q (.grant (s.word (q.pa / 8 * 8))) ∧
        t.wordQ (r.pa / 8) = { s.wordQ (r.pa / 8) with held := some (k, q.inst, a), queue := rest }) ∧
      (performsAtOnce q.op = true → rest = [] → MemInv s → Performed q s t)) ∧
  (∀ (op : MemOp) (pa : Nat) (o : Word), pa % 4 = 0 → atomRule op pa o (releaseValue op pa o))

/-- NACK_RESEND sends a refused access again once its back-off is over, NOT_READY_RESEND one that met the wrong state, as a
park request after FE.RETRY answers (R100, R106). REQUEST_CANCEL takes an access's request out of every queue and waiter
list and out of flight, and touches no other (R109). RESERVATION_TIMEOUT: HOLD.LIMIT cycles after the first grant to an
instance it is discarded with RESERVATION TIMEOUT, whose TRAP.ADDR is the address of its hold of lowest LSID; before that,
or in a frozen module, nothing happens (R102, R405). NORMALISER_SERVICE_END: 64 cycles after its service began a slot is
runnable again, and the next that waits is served (R174). -/
def Obligations.RetriesAndTimers : Prop :=
  ((∀ (s : State) (k : Nat) (a : Acc), findAcc s a.id = some (k, a) → a ∈ (s.slot k).accs → OneRequest a →
    a.st = .refused → a.notBefore ≤ s.now →
    ∃ t, exec (.nackResend a.id) s = .next t ∧ Resent s t k a (a.park || (s.slot k).feRetry == 0#64)) ∧
  (∀ (s : State) (k : Nat) (a : Acc), findAcc s a.id = some (k, a) → a.st = .refused → s.now < a.notBefore →
    exec (.nackResend a.id) s = .next s) ∧
  (∀ (s : State) (k : Nat) (a : Acc), findAcc s a.id = some (k, a) → a ∈ (s.slot k).accs → OneRequest a →
    a.st = .unready →
    ∃ t, exec (.notReadyResend a.id) s = .next t ∧ Resent s t k a (decide ((s.slot k).feRetry.toNat ≤ a.tries))) ∧
  (∀ (s : State) (m k a pa : Nat), Rising s.words → tabFind s.net m = some (.cancel k a pa) →
    ∃ t, exec (.requestCancel m) s = .next t ∧ SameMemory s t ∧
      (∀ p ∈ t.net, p ∈ s.net ∧ ∀ r, p.2 = .req r → r.from_ k a = false) ∧
      ∀ w, t.wordQ w = { s.wordQ w with queue := (s.wordQ w).queue.filter fun r => !r.from_ k a
                                        waiters := (s.wordQ w).waiters.filter fun r => !r.from_ k a })) ∧
  ((∀ (s : State) (w k acc since : Nat) (j : Inst) (a : Acc), w < 2 ^ 80 → (s.wordQ w).held = some (k, j.num, acc) →
    InstIs s k j → j.firstGrant = some since → a ∈ (s.slot k).accs → a.st = .granted → a.committed = false →
    (∀ b ∈ (s.slot k).accs, b.st = .granted → b.committed = false → b = a ∨ a.lsid < b.lsid) →
    let limit := (s.core (slotCore k)).holdLimit.toNat
    (limit ≠ 0 → since + limit ≤ s.now → (s.module (slotModule k)).boot ≠ .frozen →
      exec (.reservationTimeout w) s = .next (raise k { cause := 0x0C, addr := a.va, info := 0 } s)) ∧
    (limit = 0 ∨ s.now < since + limit ∨ (s.module (slotModule k)).boot = .frozen →
      exec (.reservationTimeout w) s = .next s)) ∧
  (∀ (s : State) (c k : Nat) (rest : List Nat), (s.core c).normQueue = k :: rest →
    (s.now < (s.slot k).slowUntil → exec (.normaliserServiceEnd c) s = .next s) ∧
    ((s.slot k).slowUntil ≤ s.now → ∃ t, exec (.normaliserServiceEnd c) s = .next t ∧ (t.core c).normQueue = rest ∧
      SameMemory s t ∧ ∀ n r, rest = n :: r → (t.slot n).slowUntil = s.now + 64)))

/-- AMADD_COMBINE: two AMADDs of one word, width and half, of cores whose die-local numbers differ first in bit j, meet at a switch
of stage 11 − j and become one request that carries the sum; a switch whose eight records are in use passes both on, the upper
first. AMADD_REPLY_SPLIT: of the old value o that comes back, the upper input's request receives o and the lower's o plus the
upper's addend, modulo the width, and the record is free again (R105). -/
def Obligations.AddsCombine : Prop :=
  (∀ (s : State) (m n k u k' u' : Nat) (a b : Req) (w : Width) (x y : Word) (g g' : Option Nat),
    tabFind s.net m = some (.req a) → tabFind s.net n = some (.req b) → m ≠ n → a.op = .amadd w x g →
    b.op = .amadd w y g' → a.pa = b.pa → a.src = .slot k u → b.src = .slot k' u' → slotCore k ≠ slotCore k' →
    a.combined = [] → b.combined = [] → a.joins = [] → b.joins = [] → regionOf (a.pa % 2 ^ 48) = some .global →
    a.pa / 2 ^ 48 = slotModule k → a.pa / 2 ^ 48 = slotModule k' →
    a.owns (s.wordQ (a.pa / 8)) = false → b.owns (s.wordQ (a.pa / 8)) = false →
    ∀ j ≤ 10, (slotCore k).testBit j = false → (slotCore k').testBit j = true →
    (∀ i < j, (slotCore k).testBit i = (slotCore k').testBit i) →
    ∃ key, meetAt a b = some key ∧ key / 2 ^ 12 % 16 = 11 - j ∧
      (8 ≤ tabGet s.switches key 0 → exec (.amaddCombine m n) s = .next (arriveReq b (arriveReq a ((s.drop m).drop n)))) ∧
      (tabGet s.switches key 0 < 8 → ∃ t c, exec (.amaddCombine m n) s = .next t ∧ SameMemory s t ∧
        tabFind t.net s.nextId = some (.req c) ∧ c.pa = a.pa ∧ c.op = .amadd w (x + y) none ∧
        c.combined = [(a.inst, a.src, 0#64), (b.inst, b.src, x)] ∧ c.joins = [key] ∧
        tabGet t.switches key 0 = tabGet s.switches key 0 + 1)) ∧
  (∀ (s : State) (m : Nat) (r : Req) (w : Width) (z o hi : Word) (g : Option Nat) (e : Bool),
    tabFind s.net m = some (.combined r (.value o hi e)) → r.op = .amadd w z g →
    ∃ t, exec (.amaddReplySplit m) s = .next t ∧ SameMemory s t ∧
      (∀ key, r.joins = [key] → Rising s.switches → tabGet t.switches key 0 = tabGet s.switches key 0 - 1) ∧
      ∀ i inst src d, r.combined[i]? = some (inst, src, d) →
        tabFind t.net (s.nextId + i) = some (.reply src inst 0 r.pa (.value (match w with
          | .w64 => o + d
          | .w32 => ((o + d).setWidth 32).setWidth 64) 0#64 false)))

/-- MEMORY_REPLY_ARRIVAL: what each answer does at the access that asked (R65, R99, R100, R102, R103, R106, R109, R113,
R321, R326, R327, R329). The tokens of a reply to an instance that has completed are discarded (R181). A target that performs no
RADD answers UNSUP: the requester reserves the word there and remembers the module (R169). -/
def Obligations.RepliesArrive : Prop :=
  ∀ (s : State) (m k id inst part pa : Nat) (a : Answer), tabFind s.net m = some (.reply (.slot k id) inst part pa a) →
    (∀ (v : Word), s.acc? k id = none → a = .grant v → ∃ t, exec (.memoryReplyArrival m) s = .next t ∧
      tabFind t.net s.nextId = some (.release { src := .slot k id, inst := inst, op := .reln .w64, pa := pa })) ∧
    (∀ (x : Acc), s.acc? k id = some x → x.st = .sent → x.parts = 1 → tears x.pa x.op.size = false → x.forwarded = [] →
      x.remote = none →
      ∃ t, exec (.memoryReplyArrival m) s = .next t ∧
        (match a with
          | .value v hi _ => (∀ w d g, x.op = .amadd w d (some g) → g ≠ 0 → ((s.slot k).reg g).pending = true →
                (t.slot k).reg g = { val := v } ∧ ∀ b ∈ (t.slot k).accs, b.id ≠ id) ∧
              ∀ (j : Inst) (y : Node), InstIs s k j → j.nodes[x.node]? = some y → x.kind = .inBlock →
                (∀ w d g, x.op ≠ .amadd w d g) → (∀ n b, x.op = .load n b → (0 < n ∧ n ≤ 8) ∨ n = 16) →
                (y.form.pair = true → ∃ b, x.op = .load 16 b) →
                (j.complete = false → Replied (s.drop m) t k j x y.form .done v hi) ∧
                (j.complete = true → (t.slot k).inst = some (stand j x.node .fired) ∧ SameMemory s t)
          | .grant v => ∀ (j : Inst) (y : Node), InstIs s k j → j.nodes[x.node]? = some y → x.kind = .holding →
                y.form.pair = false → x.byHold = none → j.complete = false →
                Replied (s.drop m) t k j { x with phys := pa } y.form .granted v x.gotHi
          | .ack => (∀ b ∈ (t.slot k).accs, b.id ≠ id) ∧ (∀ b ∈ (s.slot k).accs, b.id ≠ id → b ∈ (t.slot k).accs) ∧
              (t.slot k).members = (match x.op with
                | .barj => (s.slot k).members ++ [{ addr := x.pa }]
                | .barx => (s.slot k).members.filter fun e => e.addr != x.pa
                | .bara => (s.slot k).members.map fun e => if e.addr = x.pa then { e with gen := none } else e
                | _ => (s.slot k).members)
          | .gen g => x.op = .bara → (∀ b ∈ (t.slot k).accs, b.id ≠ id) ∧
              (t.slot k).members = (s.slot k).members.map fun e => if e.addr = x.pa then { e with gen := some g } else e
          | .notReady => ∃ b ∈ (t.slot k).accs, b.id = id ∧ b.st = .unready ∧ b.tries = x.tries + 1
          | .nack => (t.core (slotCore k)).nacks = (s.core (slotCore k)).nacks + 1 ∧
              ∃ b ∈ (t.slot k).accs, b.id = id ∧ b.st = .refused ∧
                if part = 0 then b.nacks = x.nacks + 1 ∧ b.notBefore = s.now + min (64 * 2 ^ x.nacks) 4096
                else b.nacksHi = x.nacksHi + 1 ∧ b.notBeforeHi = s.now + min (64 * 2 ^ x.nacksHi) 4096
          | .full => t = raise k { cause := 0x11, addr := x.va, info := 0, replay := true } (s.drop m)
          | .poisoned src second =>
              let word := x.va / 8 * 8 + (if second = true ∨ part = 1 then 8 else 0)
              if x.committed = true then (∀ b ∈ (t.slot k).accs, b.id ≠ id) ∧
                { cause := 0x07, addr := word, info := src * 16 + 256, origin := 1, own := some x.blk } ∈ (t.slot k).pending
              else t = raise k { cause := 0x07, addr := word, info := src * 16 } (s.drop m)
          | .fault e => if x.committed = true then { e with origin := 1, replay := false, own := some x.blk } ∈ (t.slot k).pending
              else t = raise k e (s.drop m)
          | .unsup => t = s.drop m)) ∧
    (∀ (x : Acc) (target : Nat) (w : Width) (v : Word) (g : Option Nat), s.acc? k id = some x → a = .unsup → x.st = .sent →
      x.remote = some target → x.op = .amadd w v g →
      ∃ t, exec (.memoryReplyArrival m) s = .next t ∧ (∃ n, tabFind t.net s.nextId = some (.remote (slotCore k) n k target
          { src := .slot k id, inst := x.inst, op := .rsv w, pa := x.pa })) ∧
        (∃ l, (t.core (slotCore k)).unsup = target :: l) ∧
        ∃ b ∈ (t.slot k).accs, b.id = id ∧ b.st = .sent ∧ b.byHold = some (w, v))

/-! ## Barriers and phases -/

/-- BARRIER_OP_ARRIVAL: a barrier operation on an object with no held word performs as `barrierRule` says, is answered, BARA
with the generation it joined, and changes no byte outside the object; a poisoned object answers with the error (R59, R111,
R113, R114, R150, R329). At a held object it joins the hold queue, or is answered NACK (R99, R100). PHASE_TREE_ARRIVAL records a member's arrival at a context that is not broken, and the last live
member's sends the release; PHASE_RELEASE lets every member that arrived go on, and the next phase begins with none (R121).
At a broken context the member takes BARRIER BROKEN (R122). -/
def Obligations.BarriersAndPhases : Prop :=
  (∀ (s : State) (m : Nat) (r : Req) (recorded : Option Nat), MemInv s → tabFind s.net m = some (.barrier r recorded) →
    blockedAt s r = none → r.combined = [] → r.persists = false →
    (r.op = .barj ∨ r.op = .bara ∨ r.op = .barx ∨ ∃ n, r.op = .arm n) →
    ∃ t, exec (.barrierOpArrival m) s = .next t ∧
      (objectPoisoned s r.pa = true → SameMemory s t ∧
        Answered s t r (.poisoned (errorSource r.pa) (!s.wordPoisoned r.pa))) ∧
      (objectPoisoned s r.pa = false → MemoryBut s t r.pa 16 ∧ t.empties = s.empties ∧ t.poison = s.poison ∧
        barrierRule r.op recorded (readBar s r.pa) (readBar t r.pa) ∧
        Answered s t r (if r.op = .bara then .gen (readBar s r.pa).gen else .ack))) ∧
  (∀ (s : State) (m w : Nat) (r : Req) (recorded : Option Nat), tabFind s.net m = some (.barrier r recorded) →
    blockedAt s r = some w → r.combined = [] → r.persists = false →
    ∃ t, exec (.barrierOpArrival m) s = .next t ∧ SameMemory s t ∧
      (entryFree s r.pa = true → (t.wordQ w).queue = (s.wordQ w).queue ++ [{ r with recorded := recorded }]) ∧
      (entryFree s r.pa = false → Answered s t r .nack)) ∧
  ((∀ (s : State) (m level k ctx : Nat) (c : PhaseCtx), tabFind s.net m = some (.phaseArrive level k) →
    s.phaseOf k level = some (ctx, c) →
    ∃ t, exec (.phaseTreeArrival m) s = .next t ∧ SameMemory s t ∧
      (c.broken = false → tabFind t.phases ctx = some { c with arrived := c.arrived ++ [k] } ∧
        (c.members ≠ [] → (∀ x ∈ c.members, x = k ∨ x ∈ c.arrived) →
          (∀ p ∈ s.net, p.2 ≠ .phaseRelease ctx) → tabFind t.net s.nextId = some (.phaseRelease ctx))) ∧
      (c.broken = true → ∃ e ∈ (t.slot k).pending, e.cause = 0x10 ∧ e.origin = 1 ∧ e.info = level)) ∧
  (∀ (s : State) (m ctx : Nat) (c : PhaseCtx), tabFind s.net m = some (.phaseRelease ctx) →
    tabFind s.phases ctx = some c →
    ∃ t, exec (.phaseRelease m) s = .next t ∧ SameMemory s t ∧ tabFind t.phases ctx = some { c with arrived := [] } ∧
      ∀ k ∈ c.arrived, ∀ a ∈ (t.slot k).accs, a.committed = true → a.op = .phase c.level → a.st ≠ .sent))

/-! ## Blocks -/

/-- BLOCK_FETCH at a boundary where a slot may start its next block: a block whose words are read whole and pass the checks
of R277 starts as an instance that has the slot's registers as they stand and in which nothing has fired; a block that fails
a check raises ILLEGAL at its first failure; an address fault on the first word raises that fault (R175, R176, R180, R276 to
R278). No register and no byte of memory changes. -/
def Obligations.BlocksStart : Prop :=
  ∀ (s : State) (k w0 w1 : Nat) (body : List Nat), (s.slot k).mayFetch = true →
    (systemSlot k = true ∨ (s.module (slotModule k)).boot ≠ .frozen) → CacheAgrees s (slotCore k) →
    let blk := (s.slot k).next
    (∀ f, checkAddr s { core := slotCore k, sys := systemSlot k, va := blk, size := 4, use := .fetch } = .fault f →
      exec (.blockFetch k) s = .next (raise k f (s.modSlot k fun x => { x with blk := blk }))) ∧
    (Idle s → body.length = headerNI w0 → (∀ i w, (w0 :: w1 :: body)[i]? = some w → BlockWord s k (blk + 4 * i) w) →
      ∃ t, exec (.blockFetch k) s = .next t ∧ SameMemory s t ∧ SameRegs (s.slot k) (t.slot k) ∧ (t.slot k).blk = blk ∧
        (∀ h, validateBlock (s.slotFile k) w0 w1 body = .ok h → (t.slot k).life = .run ∧
          ∃ i, InstIs t k i ∧ i.blk = blk ∧ i.nodes = body.map (fun w => { word := w }) ∧ i.num = (s.slot k).count + 1 ∧
            i.regs0 = (s.slot k).regs ∧ i.fpc0 = (s.slot k).fpc ∧ i.smask = w1 ∧ i.exit = none ∧ i.puts = [] ∧
            i.lsids = [] ∧ i.actions = []) ∧
        ∀ e n, validateBlock (s.slotFile k) w0 w1 body = .error (e, n) → (t.slot k).inst = none ∧
          (t.slot k).pending = [{ cause := 0x01
                                  addr := if n < 0x20 then blk + 8 + 4 * n else if n = 0xFF then blk + 4 else blk
                                  info := e.number * 256 + n * 65536 }])

/-- An uncorrectable error in a word of a block being fetched raises POISON: the block never starts, and TRAP.ADDR holds the
block address (R62). Whichever word of the block it is, the words before it having been read. -/
def Obligations.PoisonedBlockNeverStarts : Prop :=
  ∀ (s : State) (k w0 w1 n : Nat) (body : List Nat), (s.slot k).mayFetch = true →
    (systemSlot k = true ∨ (s.module (slotModule k)).boot ≠ .frozen) → CacheAgrees s (slotCore k) →
    let blk := (s.slot k).next
    body.length = headerNI w0 → n < headerNI w0 + 2 →
    (∀ i w, i < n → (w0 :: w1 :: body)[i]? = some w → BlockWord s k (blk + 4 * i) w) → PoisonedWord s k (blk + 4 * n) →
    ∃ t f, exec (.blockFetch k) s = .next t ∧ (t.slot k).inst = none ∧ (t.slot k).count = (s.slot k).count ∧
      (t.slot k).pending = [f] ∧ f.cause = 0x07 ∧ f.addr = blk ∧ f.replay = false ∧ SameMemory s t ∧
      SameRegs (s.slot k) (t.slot k)

/-- COMMIT of an instance that has completed and whose accesses have performed (R181, R183, R227, R243, R275, R300, R323,
R325, R327, R380): every PUT writes its register, CALL the link register, and no other register changes; a register that an
AMADD answers is pending; flags enter FPC, and control registers their values; staged bytes enter the pool and no other byte
of memory changes; commit-time accesses may leave, and a hold leaves as its release: an atomic's of the part of the word that it
names, a full/empty hold's as it is, and a reservation that its instance does not release unchanged (R103, R326). Pops and pushes
are queued together, then the deferred actions in the order of their instructions (R333, R340); and the exit is taken. -/
def Obligations.CommitApplies : Prop :=
  ∀ (s : State) (k : Nat) (j : Inst) (e : Exit) (n : Nat), InstIs s k j → j.exit = some (e, n) →
    (commitReady (s.slot k) = false → exec (.commit k) s = .next s) ∧
    (commitReady (s.slot k) = true → j.scaleError = none → ∃ t, exec (.commit k) s = .next t ∧ (t.slot k).inst = none ∧
      (t.slot k).exn = n ∧ exitDone j e (s.slot k) (t.slot k) ∧
      (∀ r v p, r ≠ 0 → (r, v, p) ∈ j.puts → (∀ v' p', (r, v', p') ∈ j.puts → v' = v ∧ p' = p) → r ∉ j.pends →
        ¬(r = 63 ∧ isCall j) → (t.slot k).reg r = { val := v, poison := p }) ∧
      (∀ r, (∀ v p, (r, v, p) ∉ j.puts) → r ∉ j.pends → ¬(r = 63 ∧ isCall j) → (t.slot k).reg r = (s.slot k).reg r) ∧
      (∀ r ∈ j.pends, r ≠ 0 → ¬(r = 63 ∧ isCall j) → ((t.slot k).reg r).pending = true) ∧
      (isCall j → (t.slot k).reg 63 = { val := BitVec.ofNat 64 ((j.blk + 4 * (j.nodes.length + 2)) % 2 ^ 64) }) ∧
      (j.ctl = [] → (t.slot k).fpc = (s.slot k).fpc ||| j.flags) ∧
      (∀ i m v, j.ctl = [{ index := i, val := v }] → (i, m) ∈ writableBits → v &&& ~~~m = 0#64 → i ≠ 0x04 → i ≠ 0x2C →
        readControl t k i = some v) ∧
      (∀ v, j.ctl = [{ index := 0x04, val := v }] → (t.slot k).fpc = v ||| j.flags) ∧
      (∀ v, j.ctl = [{ index := 0x2C, val := v }] →
        (t.core (slotCore k)).tlerr = (s.core (slotCore k)).tlerr &&& ~~~v) ∧
      (MemInv s → Rising j.staged.bytes → ∀ a, t.byte a = (match tabFind j.staged.bytes a with
        | some (b, _) => b
        | none => s.byte a)) ∧ t.empties = s.empties ∧ (j.staged.bytes = [] → t.poison = s.poison) ∧
      (∀ a ∈ (s.slot k).accs, a.committed = false → a.kind = .commitTime → (∀ w v, a.op ≠ .rel w v) →
        (∀ w, a.op ≠ .reln w) → ∃ b ∈ (t.slot k).accs, b.id = a.id ∧ b.op = a.op ∧ b.committed = true ∧ b.st = .ready) ∧
      (∀ a ∈ (s.slot k).accs, a.committed = false → a.kind = .holding → a.st = .granted →
        ((∃ w, a.op = .rsv w) → ∀ b ∈ (s.slot k).accs, b.committed = false → (∀ w v, b.op ≠ .rel w v) ∧ ∀ w, b.op ≠ .reln w) →
        ∃ b ∈ (t.slot k).accs, b.id = a.id ∧ b.committed = true ∧ b.st = .ready ∧ (match a.op with
          | .rsv _ => b.op = .reln .w64
          | .cas w _ _ | .swap w _ | .amin w _ _ | .amax w _ _ =>
            b.op = .rel w (tokenOf a.op a.pa (releaseValue a.op a.pa a.got))
          | .ldsync | .stsync _ _ => b.op = a.op
          | _ => True)) ∧
      (∀ a ∈ (s.slot k).accs, a.committed = false → a.kind = .commitTime → ((∃ w v, a.op = .rel w v) ∨ ∃ w, a.op = .reln w) →
        (∃ b ∈ (s.slot k).accs, b.committed = false ∧ b.inst = a.inst ∧ b.st = .granted ∧ b.remote = a.remote ∧
          b.pa / 8 = a.pa / 8) →
        ∃ b ∈ (t.slot k).accs, b.id = a.id ∧ b.op = a.op ∧ b.committed = true ∧ b.st = .ready) ∧
      let ofQueue (p : Nat × Action) : Bool := match p.2 with
        | .popped _ _ _ | .push _ _ => true
        | _ => false
      (t.slot k).post = (s.slot k).post ++
        ((j.actions.filter ofQueue) ++ j.actions.filter fun p => !ofQueue p).map fun p => (j.num, p.2))

/-! ## Translation -/

/-- PAGE_WALK_START takes a listed miss that the walker may take, once: 32 misses of a cluster are listed, a walker runs 128
walks, no two of one page, and takes them round-robin over the clusters, the oldest of a cluster first; it reads the level-4
entry, where XLAT.BASE names tier-2 memory (R24, R28, R29). PAGE_WALK_COMPLETE reads the entry of one level further down, each by
a read of its own, until an entry ends the walk as `WalkEnded` says (R24, R29, R30). The leaf is then installed in the cache of
every cluster whose miss has joined the walk, unless a TLBI has made it stale there; a fault installs nothing; memory keeps every
byte (R26, R28, R30, R37). What waits for the walk is resumed: an access that the leaf permits is ready at the leaf's address,
and one that it does not permit, or whose walk faulted, discards its instance with that fault; of several permissions that fail,
W is reported before U (R24, R25, R27, R31; the order is the model's reading, log 26). TLBI_COMPLETE ends the wait of the slot
that issued the TLBI, once no walk that it made stale, no copy from before it and no request by global name translated before it
is left (R37; log 29). -/
def Obligations.TranslationsChange : Prop :=
  (∀ (s : State) (m : Nat) (w : Walk), tabFind s.walks m = some w → w.started = false → w.read = none →
    let listed := (s.walks.filter fun p => p.2.cluster == w.cluster && decide (p.1 < m)).length
    let running := (s.walks.filter fun p => p.2.started && p.2.cluster / 128 == w.cluster / 128).length
    let same (v : Walk) : Prop := v.cluster / 128 = w.cluster / 128 ∧ v.asid = w.asid ∧ v.va = w.va
    let after (c : Nat) : Nat := (c + 128 - (s.die (w.cluster / 128)).walkTurn % 128) % 128
    (32 ≤ listed ∨ 128 ≤ running ∨ (∃ p ∈ s.walks, p.2.started = true ∧ p.2.stale = false ∧ same p.2) →
      exec (.pageWalkStart m) s = .next s) ∧
    (listed < 32 → running < 128 → (∀ p ∈ s.walks, p.2.started = true → p.2.stale = false → ¬same p.2) →
      (∀ p ∈ s.walks, p.1 ≠ m → p.2.started = false → p.2.cluster / 128 = w.cluster / 128 →
        (p.2.cluster = w.cluster ∧ m < p.1) ∨ after w.cluster < after p.2.cluster) →
      let base := w.base / 4096 % 2 ^ 36 * 4096
      let a := w.cluster / 512 * 2 ^ 48 + (base + w.va / 2 ^ 39 % 512 * 8)
      ∃ t, exec (.pageWalkStart m) s = .next t ∧ SameMemory s t ∧ t.slots = s.slots ∧ t.clusters = s.clusters ∧
        (t.die (w.cluster / 128)).walkTurn = (w.cluster + 1) % 128 ∧
        (sectorRow base ≠ 2 → tabFind t.walks m = some { w with started := true, stale := false, level := 5 }) ∧
        (sectorRow base = 2 → Idle s → tabFind t.walks m = some
          { w with started := true, stale := false, level := 4, read := some (s.word a, s.wordPoisoned a) }))) ∧
  ((∀ (s : State) (m table : Nat) (w : Walk) (v : Word), tabFind s.walks m = some w → w.started = true → Idle s →
    sectorRow (w.base / 4096 % 2 ^ 36 * 4096) = 2 → w.read = some (v, false) → 1 ≤ w.level → w.level ≤ 4 →
    NamesTable w.level v.toNat table →
    let a := w.cluster / 512 * 2 ^ 48 + (table + walkIndex w.va (w.level - 1) * 8)
    ∃ t, exec (.pageWalkComplete m) s = .next t ∧ SameMemory s t ∧ t.slots = s.slots ∧ t.clusters = s.clusters ∧
      tabFind t.walks m = some { w with level := w.level - 1, read := some (s.word a, s.wordPoisoned a) }) ∧
  (∀ (s : State) (m : Nat) (w : Walk) (e : WalkEnd), Rising s.walks → tabFind s.walks m = some w → w.started = true → Idle s →
    1 ≤ w.level → w.level ≤ 5 → WalkEnded s w e →
    let page := w.va / 65536
    let joins (p : Nat × Walk) : Prop := p.1 = m ∨ p.2.started = false ∧ w.stale = false ∧
      w.cluster / 128 = p.2.cluster / 128 ∧ w.asid = p.2.asid ∧ w.va = p.2.va
    (∀ k, (s.slot k).fetchMiss = none) →
    ((∀ k, ∀ a ∈ (s.slot k).accs, a.st ≠ .walking) →
      ∃ t, exec (.pageWalkComplete m) s = .next t ∧ SameMemory s t ∧ t.slots = s.slots ∧
        (∀ p, p ∈ t.walks ↔ p ∈ s.walks ∧ ¬joins p) ∧
        (∀ level v, e = .leaf level v → w.stale = false → ∀ p ∈ s.walks, joins p → p.2.stale = false →
          tlbOf w.asid level v w.va ∈ (t.cluster p.2.cluster).tlb) ∧
        ((∃ c r l, e = .fault c r l) ∨ w.stale = true → t.clusters = s.clusters)) ∧
    (∀ (k : Nat) (a : Acc) (j : Inst), coreCluster (slotCore k) = w.cluster → InstIs s k j → a ∈ (s.slot k).accs →
      a.st = .walking → a.asid = w.asid → a.va / 65536 = page → (∀ p ∈ s.walks, joins p → p.1 = m) →
      (∀ k', ∀ b ∈ (s.slot k').accs, b.st = .walking → k' = k ∧ b = a) → (∀ b ∈ (s.slot k).accs, b.id = a.id → b = a) →
      let want : Want := { core := slotCore k, sys := systemSlot k, va := a.va, size := a.op.size, use := a.op.use }
      let rest : State := { s with walks := s.walks.filter fun p => p.1 != m }
      (∀ c r l, e = .fault c r l → exec (.pageWalkComplete m) s = .next (raise k (addrFault want c r l) rest)) ∧
      (∀ level v pa, e = .leaf level v → pa = slotModule k * 2 ^ 48 +
          (v / 256 % 2 ^ 40 * 256 / 2 ^ pageBits level * 2 ^ pageBits level + a.va % 2 ^ pageBits level) →
        ∃ t, exec (.pageWalkComplete m) s = .next t ∧
          ((w.stale = false → tlbOf w.asid level v w.va ∈ (t.cluster w.cluster).tlb) ∧
          (a.op.use.writes = true → v.testBit 2 = false →
            ∃ u, t = raise k (addrFault want 0x06 3 level) u ∧ u.slots = s.slots ∧ SameMemory s u) ∧
          ((a.op.use.writes = true → v.testBit 2 = true) → v.testBit 4 = false → systemSlot k = false →
            ∃ u, t = raise k (addrFault want 0x06 5 level) u ∧ u.slots = s.slots ∧ SameMemory s u) ∧
          ((a.op.use.writes = true → v.testBit 2 = true) → (systemSlot k = true ∨ v.testBit 4 = true) →
            locationCheck (s.slot k) j { a with pa := pa } = none →
            ∃ b ∈ (t.slot k).accs, b.id = a.id ∧ b.st = .ready ∧ b.pa = pa ∧ b.op = a.op))))) ∧
  (∀ (s : State) (m k kind va asid : Nat) (sc : Scope), tabFind s.net m = some (.tlbi k kind va asid sc) →
    ((∃ p ∈ s.walks, p.2.stale = true ∧ tlbiCoversWalk k sc p.2 = true) → exec (.tlbiComplete m) s = .next s) ∧
    ((∃ p ∈ s.copies, p.1 < m ∧ p.2.accepted = true ∧ tlbiCoversDie k sc (coreDie (slotCore p.2.slot)) = true ∧
        (kind ≠ 1 ∨ (s.core (slotCore p.2.slot)).xlatAsid.toNat = asid)) → exec (.tlbiComplete m) s = .next s) ∧
    (sc ∈ [.die, .mod, .tier] → (∃ p ∈ s.words, ∃ r ∈ p.2.queue ++ p.2.waiters, ∃ a v n, r.trans = some (a, v, n) ∧ n < m ∧
        r.pa / 2 ^ 48 = slotModule k ∧ (kind = 2 ∨ (kind = 1 ∧ a = asid) ∨ (kind = 0 ∧ v / 2 ^ 30 = va / 2 ^ 30))) →
      exec (.tlbiComplete m) s = .next s) ∧
    ((∀ p ∈ s.walks, p.2.stale = true → tlbiCoversWalk k sc p.2 = false) →
      (∀ p ∈ s.copies, p.1 < m → p.2.accepted = false) → (∀ p ∈ s.words, ∀ r ∈ p.2.queue ++ p.2.waiters, r.trans = none) →
      ∃ t, exec (.tlbiComplete m) s = .next t ∧ t.slot k = { s.slot k with
        post := (s.slot k).post.filter fun p => p.2 != .tlbiWait m } ∧ SameMemory s t))) ∧
  (∀ (s : State) (k id asid page : Nat) (e : WalkEnd) (a : Acc) (j : Inst),
    (s.slot k).accs.find? (fun b => b.id == id) = some a → a.st = .walking → a.asid = asid → a.va / 65536 = page →
    InstIs s k j →
    let w : Want := { core := slotCore k, sys := systemSlot k, va := a.va, size := a.op.size, use := a.op.use }
    (∀ c r l, e = .fault c r l → resumeAcc k asid page e id s = raise k (addrFault w c r l) s) ∧
    (∀ level v pa, e = .leaf level v → pa = slotModule k * 2 ^ 48 + (v / 256 % 2 ^ 40 * 256 / 2 ^ pageBits level * 2 ^ pageBits level +
        a.va % 2 ^ pageBits level) →
      (a.op.use.writes = true → v.testBit 2 = false → resumeAcc k asid page e id s = raise k (addrFault w 0x06 3 level) s) ∧
      ((a.op.use.writes = true → v.testBit 2 = true) → v.testBit 4 = false → systemSlot k = false →
        resumeAcc k asid page e id s = raise k (addrFault w 0x06 5 level) s) ∧
      ((a.op.use.writes = true → v.testBit 2 = true) → (systemSlot k = true ∨ v.testBit 4 = true) →
        locationCheck (s.slot k) j { a with pa := pa } = none →
        ∃ b ∈ ((resumeAcc k asid page e id s).slot k).accs, b.id = id ∧ b.st = .ready ∧ b.pa = pa)))

/-! ## Control registers -/

/-- MFC sends the register that it names: what `plainReads` lists reads as it stands; an index that R193 does not list
raises ILLEGAL, and a program-level access to 0x80 to 0xFF PROTECTION with REASON 0x5 (R193, R194, R379). MTC keeps its
value for commit; a set bit outside the writable ones, a read-only register or an unlisted one raises ILLEGAL, a
program-level access to 0x80 to 0xFF PROTECTION, and a second write of a register TOKEN COLLISION (R193, R380; its TRAP.INFO,
of a control write's slot code, is the model's reading, log 15). DEADL keeps
a DEADLINE for commit and sends 0; bits of left above 15, or of right outside [47:2], raise ILLEGAL (R352). -/
def Obligations.ControlRegisters : Prop :=
  (∀ (s : State) (p : Pred) (t u : Tgt) (i : BitVec 8) (o : Fired) (j : Inst), FiresClean s (.mfc p t u i) o →
    InstIs s o.slot j →
    (systemSlot o.slot = false → 0x80 ≤ i.toNat →
      exec (.mfc p t u i) s = .next (raise o.slot { cause := 0x06, addr := 0, info := 5 } s)) ∧
    (systemSlot o.slot = true ∨ i.toNat < 0x80 →
      (∀ v, (i.toNat, v) ∈ plainReads s o.slot →
        exec (.mfc p t u i) s = .next (finish (.mfc p t u i) o (.data v false) s)) ∧
      (i.toNat ∈ readOnly ∨ i.toNat ∈ writableBits.map (·.1) →
        ∃ v, exec (.mfc p t u i) s = .next (finish (.mfc p t u i) o (.data v false) s)) ∧
      (i.toNat ∉ readOnly → i.toNat ∉ writableBits.map (·.1) →
        exec (.mfc p t u i) s = .next (raise o.slot { cause := 0x01, addr := 0, info := o.node * 65536 } s)))) ∧
  ((∀ (s : State) (p : Pred) (i : BitVec 8) (o : Fired) (j : Inst), FiresClean s (.mtc p i) o → InstIs s o.slot j →
    (systemSlot o.slot = false → 0x80 ≤ i.toNat →
      exec (.mtc p i) s = .next (raise o.slot { cause := 0x06, addr := 0, info := 5 } s)) ∧
    (systemSlot o.slot = true ∨ i.toNat < 0x80 →
      (i.toNat ∉ writableBits.map (·.1) →
        exec (.mtc p i) s = .next (raise o.slot { cause := 0x01, addr := 0, info := o.node * 65536 } s)) ∧
      ∀ m, (i.toNat, m) ∈ writableBits →
        (o.l &&& ~~~m ≠ 0#64 →
          exec (.mtc p i) s = .next (raise o.slot { cause := 0x01, addr := 0, info := o.node * 65536 } s)) ∧
        (o.l &&& ~~~m = 0#64 → i.toNat ∈ [0x04, 0x05, 0x08, 0x0A, 0x18, 0x19, 0x2C, 0x51, 0x53, 0x55, 0x57, 0x80, 0x81, 0x82, 0x8C] →
          ((∀ x ∈ j.ctl, x.index ≠ i.toNat) → ∃ t, exec (.mtc p i) s = .next t ∧ OnlySlot o.slot s t ∧
            t.slot o.slot = { s.slot o.slot with
              inst := some { stand j o.node .fired with ctl := j.ctl ++ [{ index := i.toNat, val := o.l }] } }) ∧
          ((∃ x ∈ j.ctl, x.index = i.toNat) → ∃ t, exec (.mtc p i) s = .next t ∧ (t.slot o.slot).inst = none ∧
            ∃ x ∈ (t.slot o.slot).pending, x.cause = 0x02 ∧ x.info = o.node * 65536 + 16384))) ∧
    (systemSlot o.slot = true ∨ i.toNat < 0x80 →
      (∀ w, controlCheck s o.slot o.node i.toNat o.l = .ok w → (∀ x ∈ j.ctl, x.index ≠ i.toNat) →
        ∃ t, exec (.mtc p i) s = .next t ∧ OnlySlot o.slot s t ∧ t.slot o.slot = { s.slot o.slot with
          inst := some { stand j o.node .fired with ctl := j.ctl ++ [w] } }) ∧
      (∀ n : BitVec 3, i.toNat = 0x10 + n.toNat → o.l.toNat < 2 ^ 24 →
        (ownsUnit s o.slot .tcfg n.toNat = true →
          controlCheck s o.slot o.node i.toNat o.l = .ok { index := i.toNat, val := o.l }) ∧
        (ownsUnit s o.slot .tcfg n.toNat = false →
          exec (.mtc p i) s = .next (raise o.slot { cause := 0x0B, addr := 0, info := 64 + n.toNat } s))) ∧
      (i.toNat ∈ [0x50, 0x52, 0x54, 0x56, 0x88, 0x89, 0x8A, 0x8B] → (∀ m, (i.toNat, m) ∈ writableBits → o.l &&& ~~~m = 0#64) →
        o.l.getLsbD 63 = false → o.l.getLsbD 0 = false →
        controlCheck s o.slot o.node i.toNat o.l = .ok { index := i.toNat, val := o.l }))) ∧
  (∀ (s : State) (p : Pred) (t u : Tgt) (keep : Bool) (o : Fired) (j : Inst), FiresClean s (.deadl p t u keep) o →
    InstIs s o.slot j → (∀ x ∈ j.ctl, x.index ≠ 8) →
    (o.l.toNat < 65536 → (keep = true ∨ (o.r.toNat % 4 = 0 ∧ o.r.toNat < 2 ^ 48)) →
      exec (.deadl p t u keep) s = .next (finish (.deadl p t u keep) o (.data 0#64 false)
        (s.modInst o.slot fun x => { x with ctl := x.ctl ++
          [{ index := 8, val := o.l <<< 48 ||| (if keep then 0#64 else o.r), keep := keep }] }))) ∧
    (65536 ≤ o.l.toNat ∨ (keep = false ∧ (o.r.toNat % 4 ≠ 0 ∨ 2 ^ 48 ≤ o.r.toNat)) →
      exec (.deadl p t u keep) s = .next (raise o.slot { cause := 0x01, addr := 0, info := o.node * 65536 } s))))

/-! ## Copies -/

/-- CPY, CPYX, CPYT, CPYS and LZSEND queue their request and resolve their LSID; a parameter-block address with bits above
47 raises PROTECTION with REASON 6, one that is not a multiple of 64 MISALIGNED, a program slot's in control space PROTECTION with
REASON 5, and one in any other region that holds no block PROTECTION with REASON 7; the remote-pail window that names the issuing
core is its own pail (R10, R13, R15, R32, R33, R124, R150). TLRD sends an issue or a timeline counter (R336); TLWAIT sends the
timeline counter once it is at least left, and waits until then (R141). MBXR takes the oldest full mailbox and sends its
state word and number, or waits; MBXW names a mailbox that the instance has taken and an engine that is open to it, and sends 0,
any other value raising ILLEGAL; in a program slot both raise PROTECTION (R283, R337, R338, R417). -/
def Obligations.CopiesQueue : Prop :=
  (∀ (s : State) (i : Instr) (o : Fired) (j : Inst) (form : Nat) (land : Bool) (ctx : Nat) (reuse : Bool) (l : BitVec 5),
    FiresClean s i o → InstIs s o.slot j → copyRule i = some (form, land, ctx, reuse, l) →
    let a := o.l.toNat
    let window := 2 ^ 32 + slotCore o.slot % 8192 * 2 ^ 17
    let ownPail : Prop := a < 0x18000 ∨ window ≤ a ∧ a < window + 0x18000
    (2 ^ 48 ≤ a → exec i s = .next (raise o.slot { cause := 0x06, addr := a, info := 6 } s)) ∧
    (a < 2 ^ 48 → a % 64 ≠ 0 → exec i s = .next (raise o.slot { cause := 0x04, addr := a, info := 0xC } s)) ∧
    (a % 64 = 0 → a / 2 ^ 40 = 0xF → systemSlot o.slot = false →
      exec i s = .next (raise o.slot { cause := 0x06, addr := a, info := 5 } s)) ∧
    (a < 2 ^ 48 → a % 64 = 0 → (a < 2 ^ 40 ∧ ¬ownPail ∨ 0xC ≤ a / 2 ^ 40 ∧ (a / 2 ^ 40 = 0xF → systemSlot o.slot = true)) →
      exec i s = .next (raise o.slot { cause := 0x06, addr := a, info := 7 } s)) ∧
    (a % 64 = 0 → (ownPail ∨ 2 ^ 40 ≤ a ∧ a / 2 ^ 40 ≤ 0xB) → ∃ t, exec i s = .next t ∧ OnlySlot o.slot s t ∧
      t.slot o.slot = { s.slot o.slot with inst := some { stand j o.node .fired with
        lsids := tabPut j.lsids l.toNat .fired
        copies := j.copies ++ [{ inst := j.num, lsid := l.toNat, form := form, land := land, ctx := ctx, reuse := reuse
                                 pba := a }] } })) ∧
  ((∀ (s : State) (p : Pred) (t u : Tgt) (issue : Bool) (c : BitVec 3) (o : Fired), FiresClean s (.tlrd p t u issue c) o →
    exec (.tlrd p t u issue c) s = .next (finish (.tlrd p t u issue c) o (.data (BitVec.ofNat 64
      (if issue then tabGet (s.core (slotCore o.slot)).issue c.toNat 0
        else tabGet (s.core (slotCore o.slot)).timeline c.toNat 0)) false) s)) ∧
  (∀ (s : State) (p : Pred) (t u : Tgt) (c : BitVec 3) (o : Fired) (j : Inst) (n : Nat), FiresClean s (.tlwait p t u c) o →
    InstIs s o.slot j → n = tabGet (s.core (slotCore o.slot)).timeline c.toNat 0 →
    (o.l.toNat ≤ n →
      exec (.tlwait p t u c) s = .next (finish (.tlwait p t u c) o (.data (BitVec.ofNat 64 n) false) s)) ∧
    (n < o.l.toNat → ∃ v, exec (.tlwait p t u c) s = .next v ∧ OnlySlot o.slot s v ∧
      v.slot o.slot = { s.slot o.slot with inst := some (stand j o.node .waiting) })) ∧
  (∀ (s : State) (p : Pred) (t u : Tgt) (o : Fired) (j : Inst), FiresClean s (.mbxr p t u) o → InstIs s o.slot j →
    (systemSlot o.slot = false → exec (.mbxr p t u) s = .next (raise o.slot { cause := 0x06, addr := 0, info := 5 } s)) ∧
    (systemSlot o.slot = true →
      ((∀ q ∈ (s.core (slotCore o.slot)).mailboxes, q.2.full = false ∨ q.2.taken = true) →
        ∃ v, exec (.mbxr p t u) s = .next v ∧ OnlySlot o.slot s v ∧
          v.slot o.slot = { s.slot o.slot with inst := some (stand j o.node .waiting) }) ∧
      ∀ m b, OldestBox (s.core (slotCore o.slot)) m b → ∃ v, exec (.mbxr p t u) s = .next (sendTokens o.slot
          [(t, .data ((s.core (slotCore o.slot)).mbWord m) false), (u, .data (BitVec.ofNat 64 m) false)] v) ∧
        SameMemory s v ∧ (v.slot o.slot).inst = some ((stand j o.node .fired).putAction o.node (.mbxTaken m)) ∧
        tabFind (v.core (slotCore o.slot)).mailboxes m = some { b with taken := true })) ∧
  (∀ (s : State) (p : Pred) (t u : Tgt) (o : Fired) (j : Inst), FiresClean s (.mbxw p t u) o → InstIs s o.slot j →
    (systemSlot o.slot = false → exec (.mbxw p t u) s = .next (raise o.slot { cause := 0x06, addr := 0, info := 5 } s)) ∧
    (systemSlot o.slot = true → o.l.toNat ≤ 3 → EngineOpen s (slotCore o.slot) o.r.toNat → (∃ n, (n, Action.mbxTaken o.l.toNat) ∈ j.actions) →
      exec (.mbxw p t u) s = .next (finish (.mbxw p t u) o (.data 0#64 false)
        (s.modInst o.slot fun x => x.putAction o.node (.mbxw o.l.toNat o.r.toNat)))) ∧
    (systemSlot o.slot = true → (3 < o.l.toNat ∨ ¬EngineOpen s (slotCore o.slot) o.r.toNat ∨ ∀ n, (n, Action.mbxTaken o.l.toNat) ∉ j.actions) →
      exec (.mbxw p t u) s = .next (raise o.slot { cause := 0x01, addr := 0, info := o.node * 65536 } s))))

/-- MAILBOX_HANDOFF puts the first request of a slot into the next mailbox, numbers it on its context, and goes on to the
mailbox after it (R125, R127); while that mailbox is full nothing happens. COPY_SUBMIT reads the parameter block of the
oldest request and empties its mailbox: a malformed block ends it with CODE 3 and ILLEGAL, an empty extent with CODE 0, whatever
the range scoreboard holds; any other waits there until enough of its entries are free, and the engine takes it, if it holds fewer
than 16 (R128, R130 to R132, R137). COPY_ROW_TRANSFER moves one row of an
untagged copy: the destination's bytes become the source's as they stood, no other byte changes, and the row counts; when
all rows have been moved the copy ends with CODE 0 (R133). COPY_RETIRE, once the numbers before the FENCE at ENG that the copy
follows have retired (R82), and where its thread does not stand saved, takes the copy out of its core's tables, writes its
status word, counts its number on the timeline once every lower one has retired, and sets its context's TLERR bit where CODE
is not 0 (R127, R138, R140). -/
def Obligations.CopiesMove : Prop :=
  ((∀ (s : State) (k : Nat) (r : CopyReq) (rest : List CopyReq), (s.slot k).copies = r :: rest →
    let co := s.core (slotCore k)
    ((tabGet co.mailboxes co.nextMbx {}).full = true → exec (.mailboxHandoff k) s = .next s) ∧
    ((tabGet co.mailboxes co.nextMbx {}).full = false → handoffWaits (s.slot k) r = false →
      ∃ t, exec (.mailboxHandoff k) s = .next t ∧ SameMemory s t ∧ (t.slot k).copies = rest ∧
        (t.slot k).unretired = (s.slot k).unretired ++ [s.nextId] ∧
        tabGet (t.core (slotCore k)).issue r.ctx 0 = tabGet co.issue r.ctx 0 + 1 ∧
        (t.core (slotCore k)).nextMbx = (co.nextMbx + 1) % 4 ∧
        tabFind (t.core (slotCore k)).mailboxes co.nextMbx = some
          { full := true, req := some r, slot := k % 16, number := tabGet co.issue r.ctx 0 + 1, order := s.nextId } ∧
        ∃ c, tabFind t.copies s.nextId = some c ∧ c.slot = k ∧ c.req = r ∧ c.number = tabGet co.issue r.ctx 0 + 1 ∧
          c.accepted = false ∧ c.code = none)) ∧
  (∀ (s : State) (core m : Nat) (b : Mailbox) (c : Copy) (ws : List Word), OldestBox (s.core core) m b →
    tabFind s.copies b.order = some c → slotCore c.slot = core → c.req.reuse = false → Idle s →
    readBlock s b.order { c with engine := core % 2048 / 64 } 8 = .ok ws → ws.getD 5 0#64 = 0#64 → c.req.form ≠ 2 → c.bar = 0 → c.tagged = false → c.code = none →
    let e := core % 2048 / 64
    let d : Copy := { c with block := ws, engine := e }
    let room := (s.core core).scoreboard.length + (copyRanges b.order d).length
    (d.malformed = false → d.zeroExtent = false → 16 < room → exec (.copySubmit core) s = .next s) ∧
    (room ≤ 16 ∨ d.malformed = true ∨ (d.zeroExtent = true ∧ d.req.land = false) →
    ∃ t, exec (.copySubmit core) s = .next t ∧ SameMemory s t ∧
      (tabGet (t.core core).mailboxes m {}).full = false ∧
      (d.malformed = true → ∃ x, tabFind t.copies b.order = some x ∧ x.code = some 3 ∧ ∃ f, x.trap = some f ∧ f.cause = 0x01 ∧
        f.addr = c.req.pba ∧ f.origin = 2) ∧
      (d.malformed = false → d.zeroExtent = true → d.req.land = false →
        ∃ x, tabFind t.copies b.order = some x ∧ x.code = some 0 ∧ x.trap = none) ∧
      (d.malformed = false → d.zeroExtent = false ∨ d.req.land = true →
        (s.engine (core / 2048) e).queue.length < 16 → tabFind t.copies b.order = some { d with accepted := true } ∧
          b.order ∈ (t.engine (core / 2048) e).queue))) ∧
  (∀ (s : State) (id : Nat) (c : Copy), tabFind s.copies id = some c → c.accepted = false → c.code = none → c.block ≠ [] →
    c.notBefore ≤ s.now → (s.engine (slotCore c.slot / 2048) c.engine).queue.length < 16 →
    ∃ t, exec (.engineRefusalResubmit (slotCore c.slot) id) s = .next t ∧ SameMemory s t ∧
      tabFind t.copies id = some { c with accepted := true } ∧ id ∈ (t.engine (slotCore c.slot / 2048) c.engine).queue)) ∧
  ((∀ (s : State) (id : Nat) (c : Copy) (src dst ps pd : Nat), MemInv s → tabFind s.copies id = some c →
    copyMayMove s id c = true → c.req.land = false → c.tagged = false → c.row < c.rows →
    c.place s id = .at src dst → checkUnits s c .copyRead (unitAddrs src c.rowBytes) = .ok (unitsAt src ps c.rowBytes) →
    rowTarget s c dst = .ok (unitsAt dst pd c.rowBytes) → Idle s →
    ∃ t, exec (.copyRowTransfer id) s = .next t ∧ tabFind t.copies id = some { c with row := c.row + 1 } ∧
      (∀ i < c.rowBytes, t.byte (pd + i) = s.byte (ps + i)) ∧ MemoryBut s t pd c.rowBytes ∧ t.empties = s.empties) ∧
  (∀ (s : State) (id : Nat) (c : Copy), tabFind s.copies id = some c → copyMayMove s id c = true → c.req.land = false →
    c.rows ≤ c.row → ∃ t, exec (.copyRowTransfer id) s = .next t ∧ SameMemory s t ∧
      tabFind t.copies id = some { c with code := some 0, trap := none }) ∧
  (∀ (s : State) (id code : Nat) (c : Copy), MemInv s → Rising s.copies → tabFind s.copies id = some c → c.code = some code →
    (tabGet (s.core (slotCore c.slot)).timeline c.req.ctx 0 < c.after → exec (.copyRetire id) s = .next s) ∧
    (c.after ≤ tabGet (s.core (slotCore c.slot)).timeline c.req.ctx 0 → c.bar = 0 → c.trap = none → c.req.land = false → Idle s →
    (∀ q ∈ s.clusters, ∀ x ∈ q.2.contexts, id ∉ x.2.unretired) → ∃ t, exec (.copyRetire id) s = .next t ∧ tabFind t.copies id = none ∧
      (c.w 7 = 0 → SameMemory s t ∧
        (code ≠ 0 → (t.core (slotCore c.slot)).tlerr = (s.core (slotCore c.slot)).tlerr ||| BitVec.ofNat 64 (2 ^ c.req.ctx)) ∧
        (code = 0 → (t.core (slotCore c.slot)).tlerr = (s.core (slotCore c.slot)).tlerr)) ∧
      (c.w 7 ≠ 0 → c.w 7 % 8 = 0 → c.block ≠ [] → ∀ pa, c.check s (c.want (c.w 7) 8 .copyWrite) = .at pa →
        t.word pa = BitVec.ofNat 64 (code * 2 ^ 60 + c.row) ∧ MemoryBut s t pa 8) ∧
      (c.number = tabGet (s.core (slotCore c.slot)).timeline c.req.ctx 0 + 1 →
        c.number ≤ tabGet (t.core (slotCore c.slot)).timeline c.req.ctx 0))))

/-! ## Landing zones -/

/-- LZRSV asks the service slot that its zone name names; LZARM is queued as an addition to PENDING of the zone's arrival
barrier, LZFREE as the release of a zone slot; each resolves its LSID. A payload above 65,535 bytes, a zone without barrier
or not enabled, more bytes than PENDING holds, or a slot beyond the zone's raise ILLEGAL, and a zone name with bits above 27
PROTECTION (R150, R151). LZ_RESERVATION: a member of the core's launch is granted the lowest-numbered FREE slot of an
enabled zone, RESERVED in its name for its payload, with the next sequence number; else it is told that none is free (1),
that the zone is disabled (2), that its counter has stopped (3) or that the payload is too long (4) (R147, R149, R152).
LZFREE_PERFORM frees a LANDED or POISONED slot and clears its stamp; of any other it counts a misuse (R149, R150). -/
def Obligations.ZonesGrant : Prop :=
  ((∀ (s : State) (p : Pred) (t : Tgt) (l : BitVec 5) (o : Fired) (j : Inst), FiresClean s (.lzrsv p t l) o →
    InstIs s o.slot j →
    (0xFFFF < o.r.toNat →
      exec (.lzrsv p t l) s = .next (raise o.slot { cause := 0x01, addr := 0, info := o.node * 65536 } s)) ∧
    (o.r.toNat ≤ 0xFFFF → 2 ^ 28 ≤ o.l.toNat →
      exec (.lzrsv p t l) s = .next (raise o.slot { cause := 0x06, addr := o.l.toNat, info := 6 } s)) ∧
    (o.r.toNat ≤ 0xFFFF → o.l.toNat < 2 ^ 28 → FreshId s o.slot → ∃ v, exec (.lzrsv p t l) s = .next v ∧
      Entered s v o j { id := s.nextId, inst := j.num, lsid := l.toNat, node := o.node, kind := .inBlock, ordered := false
                        op := .zrsv o.r.toNat, va := o.l.toNat, pa := 2 ^ 62 + 8 * s.nextId
                        remote := some (o.l.toNat % 2 ^ 13), asid := (s.core (slotCore o.slot)).xlatAsid.toNat
                        blk := (s.slot o.slot).blk })) ∧
  (∀ (s : State) (p : Pred) (l : BitVec 5) (z : BitVec 2) (o : Fired) (j : Inst) (d : Nat), FiresClean s (.lzarm p l z) o →
    InstIs s o.slot j → d = (tabGet (s.core (slotCore o.slot)).zdesc z.toNat 0#64).toNat →
    (d.testBit 0 = false ∨ d.testBit 39 = false ∨ 0xFFFFFF < o.l.toNat →
      exec (.lzarm p l z) s = .next (raise o.slot { cause := 0x01, addr := 0, info := o.node * 65536 } s)) ∧
    (d.testBit 0 = true → d.testBit 39 = true → o.l.toNat ≤ 0xFFFFFF → FreshId s o.slot → ∃ v a,
      exec (.lzarm p l z) s = .next v ∧ a = 0x10000000000 + d / 2 ^ 40 % 2 ^ 24 * 16 ∧
      Entered s v o j { id := s.nextId, inst := j.num, lsid := l.toNat, node := o.node, kind := .commitTime, ordered := true
                        op := .arm o.l.toNat, va := a, pa := slotModule o.slot * 2 ^ 48 + a
                        asid := (s.core (slotCore o.slot)).xlatAsid.toNat, blk := (s.slot o.slot).blk })) ∧
  (∀ (s : State) (p : Pred) (l : BitVec 5) (z : BitVec 2) (n : BitVec 4) (o : Fired) (j : Inst) (d : Nat),
    FiresClean s (.lzfree p l z n) o → InstIs s o.slot j → d = (tabGet (s.core (slotCore o.slot)).zdesc z.toNat 0#64).toNat →
    (d.testBit 0 = false ∨ d / 2 ^ 12 % 16 + 1 ≤ n.toNat →
      exec (.lzfree p l z n) s = .next (raise o.slot { cause := 0x01, addr := 0, info := o.node * 65536 } s)) ∧
    (d.testBit 0 = true → n.toNat ≤ d / 2 ^ 12 % 16 → FreshId s o.slot → ∃ v, exec (.lzfree p l z n) s = .next v ∧
      Entered s v o j { id := s.nextId, inst := j.num, lsid := l.toNat, node := o.node, kind := .commitTime, ordered := true
                        op := .zfree z.toNat n.toNat, va := 0, pa := 2 ^ 62 + 8 * s.nextId
                        asid := (s.core (slotCore o.slot)).xlatAsid.toNat, blk := (s.slot o.slot).blk }))) ∧
  ((∀ (s : State) (m k acc name bytes : Nat), tabFind s.net m = some (.reserveZone k acc name bytes) →
    arrives s m (zoneModule name) = true →
    sameLaunch s (s.core (slotCore k)).launch (s.core (zoneCore name)).launch = true →
    let core := name % 2 ^ 13 * 8192 + name / 2 ^ 13 % 2 ^ 13
    let z := name / 2 ^ 26 % 4
    let d := (tabGet (s.core core).zdesc z 0#64).toNat
    let seq := tabGet (s.core core).zseq z 1
    let room := d / 2 ^ 6 % 64 * 1024 / (d / 2 ^ 12 % 16 + 1) / 16 * 16 - 8
    let tells (t : State) (status slot q : Nat) : Prop := ∃ inst, tabFind t.net s.nextId = some (.reply (.slot k acc) inst 0 0
      (.value (BitVec.ofNat 64 (status * 2 ^ 61 + z * 2 ^ 52 + slot * 2 ^ 48 + q)) 0#64 false))
    ∃ t, exec (.lzReservation m) s = .next t ∧ SameMemory s t ∧
      (d % 2 = 0 → tells t 2 0 0) ∧ (d % 2 = 1 → 2 ^ 48 ≤ seq → tells t 3 0 0) ∧
      (d % 2 = 1 → seq < 2 ^ 48 → room < bytes → tells t 4 0 0) ∧
      (d % 2 = 1 → seq < 2 ^ 48 → bytes ≤ room → (∀ n < d / 2 ^ 12 % 16 + 1, (s.zoneSlot core z n).st ≠ .free) → tells t 1 0 0) ∧
      (d % 2 = 1 → seq < 2 ^ 48 → bytes ≤ room → ∀ n < d / 2 ^ 12 % 16 + 1, (s.zoneSlot core z n).st = .free →
        (∀ i < n, (s.zoneSlot core z i).st ≠ .free) → tells t 0 n seq ∧ tabGet (t.core core).zseq z 1 = seq + 1 ∧
          ∃ x, t.zoneSlot core z n = x ∧ x.st = .reserved ∧ x.sender = k ∧ x.seq = seq ∧ x.bytes = bytes ∧ x.landed = 0)) ∧
  (∀ (s : State) (m k acc z n : Nat), MemInv s → tabFind s.net m = some (.lzfree k acc z n) →
    let x := s.zoneSlot (slotCore k) z n
    Idle s →
    ∃ t, exec (.lzfreePerform m) s = .next t ∧
      (x.st = .landed ∨ x.st = .poisoned → (t.zoneSlot (slotCore k) z n).st = .free ∧ t.word x.stamp = 0#64 ∧
        MemoryBut s t x.stamp 8) ∧
      (x.st ≠ .landed → x.st ≠ .poisoned → SameMemory s t ∧
        (t.module (slotModule k)).zoneMisuse = (s.module (slotModule k)).zoneMisuse + 1)))

/-- LANDING_PACKET writes the units of a packet that matches its reservation, and no other byte; a packet that matches none
is refused and writes nothing. SLOT_LANDED stamps a slot that has all its bytes with its sequence number and tells the
sender; ZONE_SLOT_TIMEOUT and SENDER_ABORT poison a slot that is RESERVED or FILLING, with a stamp of all ones (R149, R154,
R155). Said of zones without arrival barrier and sends that tag no object. LANDING_SEND_RETIRE ends a landing send with CODE 0 at the acknowledgement of
its stamp, and with LANDING FAILURE, REASON 7, at a refusal; LANDING_ACK_TIMEOUT ends it with LANDING FAILURE, REASON 0xD,
FAB.TMO after its last packet. Its number retires on TL7's timeline and no memory changes (R127, R139, R140, R154, R391).
Said of sends without status word and barrier. -/
def Obligations.ZonesFill : Prop :=
  ((∀ (s : State) (m copy sender name grant total off : Nat) (bytes : List (Byte × Bool)), MemInv s →
    tabFind s.net m = some (.landing copy sender name grant total off bytes) →
    arrives s m (zoneModule name) = true → Idle s → (∀ c, tabFind s.copies copy = some c → c.tagged = false) →
    let x := s.zoneSlot (zoneCore name) (zoneNum name) (grant / 2 ^ 48 % 16)
    let mine : Prop := x.fits sender name grant total = true ∧ (x.st = .reserved ∨ x.st = .filling ∧ x.send = copy)
    ∃ t, exec (.landingPacket m) s = .next t ∧
      (¬mine → SameMemory s t ∧ tabFind t.net s.nextId = some (.landAck copy false)) ∧
      (mine → total ≠ 0 → x.bar = 0 → t.zoneSlot (zoneCore name) (zoneNum name) (grant / 2 ^ 48 % 16) =
          { x with st := .filling, send := copy, landed := x.landed + bytes.length
                   timer := zoneTimer s (tabGet (s.core (zoneCore name)).zdesc (zoneNum name) 0#64).toNat } ∧
        MemoryBut s t (x.base + off) bytes.length ∧
        ∀ i b, bytes[i]? = some b → t.byte (x.base + off + i) = b.1)) ∧
  (∀ (s : State) (core z n : Nat), MemInv s → z < 4 →
    let x := s.zoneSlot core z n
    Idle s → x.st = .filling → x.landed = x.bytes →
    ∃ t, exec (.slotLanded (4 * core + z) n) s = .next t ∧ (t.zoneSlot core z n).st = .landed ∧
      t.word x.stamp = BitVec.ofNat 64 x.seq ∧ MemoryBut s t x.stamp 8 ∧
      ∃ id, s.nextId ≤ id ∧ tabFind t.net id = some (.landAck x.send true)) ∧
  (∀ (s : State) (core z n : Nat), MemInv s → z < 4 →
    let x := s.zoneSlot core z n
    Idle s → x.st = .reserved ∨ x.st = .filling → x.bar = 0 →
    ((∃ e, x.timer = some e ∧ e ≤ s.now) ∨ slotModule x.sender ∈ (s.module (coreModule core)).lostModules ∨
      (tabGet (s.core core).zdesc z 0#64).toNat % 2 = 0) →
    ∃ t, exec (.zoneSlotTimeout (4 * core + z) n) s = .next t ∧ (t.zoneSlot core z n).st = .poisoned ∧
      t.word x.stamp = BitVec.allOnes 64 ∧ MemoryBut s t x.stamp 8 ∧
      (x.send ≠ 0 → ∃ id, s.nextId ≤ id ∧ tabFind t.net id = some (.landAck x.send false))) ∧
  (∀ (s : State) (m copy sender name grant : Nat), MemInv s → tabFind s.net m = some (.abort copy sender name grant) →
    arrives s m (zoneModule name) = true →
    let x := s.zoneSlot (zoneCore name) (zoneNum name) (grant / 2 ^ 48 % 16)
    Idle s → x.fits sender name grant x.bytes = true → x.st = .reserved ∨ x.st = .filling → x.bar = 0 →
    ∃ t, exec (.senderAbort m) s = .next t ∧
      (t.zoneSlot (zoneCore name) (zoneNum name) (grant / 2 ^ 48 % 16)).st = .poisoned ∧
      t.word x.stamp = BitVec.allOnes 64 ∧ MemoryBut s t x.stamp 8)) ∧
  (∀ (s : State) (id : Nat) (c : Copy) (k : Nat) (sl : Slot), Rising s.copies → Rising s.slots → tabFind s.copies id = some c →
    c.req.land = true → c.code = none → c.accepted = true → c.bar = 0 → c.w 7 = 0 → (k, sl) ∈ s.slots →
    id ∈ sl.unretired → (∀ q ∈ s.slots, id ∈ q.2.unretired → q = (k, sl)) → Idle s →
    (∀ q ∈ s.clusters, ∀ x ∈ q.2.contexts, id ∉ x.2.unretired) →
    c.after ≤ tabGet (s.core (slotCore c.slot)).timeline c.req.ctx 0 →
    let failed (t : State) (reason : Nat) : Prop := SameMemory s t ∧ tabFind t.copies id = none ∧
      (t.core (slotCore c.slot)).tlerr = (s.core (slotCore c.slot)).tlerr ||| BitVec.ofNat 64 (2 ^ c.req.ctx) ∧
      ∃ f, (t.slot k).pending = sl.pending ++ [f] ∧ f.cause = 0x0F ∧ f.origin = 2 ∧ f.addr = c.w 1 ∧ f.seq = c.number ∧
        f.info = reason + 1024 + c.w 1 % 2 ^ 13 * 65536
    (∀ m, tabFind s.net m = some (.landAck id true) → ∃ t, exec (.landingSendRetire m) s = .next t ∧ SameMemory s t ∧
      tabFind t.copies id = none ∧ (t.slot k).pending = sl.pending ∧
      (c.number = tabGet (s.core (slotCore c.slot)).timeline c.req.ctx 0 + 1 →
        c.number ≤ tabGet (t.core (slotCore c.slot)).timeline c.req.ctx 0)) ∧
    (∀ m, tabFind s.net m = some (.landAck id false) → ∃ t, exec (.landingSendRetire m) s = .next t ∧ failed t 7) ∧
    (∀ e, c.sentAt = some e → e + max 1 ((s.core (slotCore c.slot)).fabTmo.toNat % 65536) * 4000000 ≤ s.now →
      ∃ t, exec (.landingAckTimeout id) s = .next t ∧ failed t 0xD))

/-! ## Work queues -/

/-- QPOP sends the oldest item that the instance has not taken and 1, or NULL and 0 of a queue that is spent, and waits
while a refill is under way; QPUSH sends 1 and keeps its item for commit where there is room for it, beside earlier items of
the instance and a refill's, and else sends 0 (R340). At commit HEAD passes the items, and pushed items are written at TAIL and
TAIL advances, all of an instance together: none while a word of one of them is held; no other byte changes. A descriptor outside the pail raises PROTECTION, REASON 8, a misaligned one
MISALIGNED, a poisoned one POISON and a bad one ILLEGAL. REFILL_START of a queue that has run low sets REFILLING and claims
BATCH items of its pool by an AMADD on NEXT; REFILL_COMPLETE writes the items that it claimed at TAIL and after, advances
TAIL by their number, clears REFILLING, and sets EXHAUSTED where LIMIT has been reached, or keeps it (R341, R342). -/
def Obligations.WorkQueues : Prop :=
  ((∀ (s : State) (p : Pred) (t u : Tgt) (o : Fired) (j : Inst), FiresClean s (.qpop p t u) o → InstIs s o.slot j →
    Quiet s o.slot → qcheck s o.slot o.node o.l = none → tabFind j.actions o.node = none →
    let c := slotCore o.slot
    let q := readQueue s c o.l.toNat
    let n := (j.actions.filter fun x => match x.2 with
      | .popped d _ _ => d == o.l.toNat
      | _ => false).length
    let pa := poolBase c + (q.off + 8 * ((q.head + n) % q.cap))
    (n < q.count → s.wordPoisoned pa = false → exec (.qpop p t u) s = .next (sendTokens o.slot
      [(t, .data (s.word pa) false), (u, .data 1#64 false)]
      (s.modInst o.slot fun i => (stand i o.node .fired).putAction o.node (.popped o.l.toNat n 1)))) ∧
    (n < q.count → s.wordPoisoned pa = true → exec (.qpop p t u) s = .next (raise o.slot
      { cause := 0x07, addr := q.off + 8 * ((q.head + n) % q.cap), info := 16 } s)) ∧
    (q.count ≤ n → q.refilling = true ∨ q.refillDue = true → ∃ v, exec (.qpop p t u) s = .next v ∧ OnlySlot o.slot s v ∧
      v.slot o.slot = { s.slot o.slot with inst := some ((stand j o.node .waiting).putAction o.node (.popped o.l.toNat n 0)) }) ∧
    (q.count ≤ n → q.refilling = false → q.refillDue = false → exec (.qpop p t u) s = .next (sendTokens o.slot
      [(t, .null), (u, .data 0#64 false)]
      (s.modInst o.slot fun i => (stand i o.node .fired).putAction o.node (.popped o.l.toNat n 0))))) ∧
  (∀ (s : State) (p : Pred) (t u : Tgt) (o : Fired) (j : Inst), FiresClean s (.qpush p t u) o → InstIs s o.slot j →
    Quiet s o.slot → qcheck s o.slot o.node o.l = none →
    let q := readQueue s (slotCore o.slot) o.l.toNat
    let n := (j.actions.filter fun x => match x.2 with
      | .push d _ => d == o.l.toNat
      | _ => false).length
    let used := q.count + n + (if q.refilling then q.batch else 0)
    (used < q.cap → exec (.qpush p t u) s = .next (finish (.qpush p t u) o (.data 1#64 false)
      (s.modInst o.slot fun i => i.putAction o.node (.push o.l.toNat o.r)))) ∧
    (q.cap ≤ used → exec (.qpush p t u) s = .next (finish (.qpush p t u) o (.data 0#64 false) s))) ∧
  (∀ (s : State) (i : Instr) (o : Fired) (p : Pred) (t u : Tgt), i = .qpop p t u ∨ i = .qpush p t u → FiresClean s i o →
    (s.slot o.slot).inst.isSome = true →
    let a := o.l.toNat
    let pail := zoneBase (s.partition (slotCore o.slot))
    (pail < a + 32 → exec i s = .next (raise o.slot { cause := 0x06, addr := a, info := 8 } s)) ∧
    (a + 32 ≤ pail → a % 32 ≠ 0 → exec i s = .next (raise o.slot { cause := 0x04, addr := a, info := 0xC } s)) ∧
    (a + 32 ≤ pail → a % 32 = 0 → Quiet s o.slot → ∀ n < 4, s.wordPoisoned (poolBase (slotCore o.slot) + a + 8 * n) = true →
      (∀ i < n, s.wordPoisoned (poolBase (slotCore o.slot) + a + 8 * i) = false) →
      exec i s = .next (raise o.slot { cause := 0x07, addr := a + 8 * n, info := 16 } s)) ∧
    (a + 32 ≤ pail → a % 32 = 0 → Quiet s o.slot → (∀ n < 4, s.wordPoisoned (poolBase (slotCore o.slot) + a + 8 * n) = false) →
      (readQueue s (slotCore o.slot) a).bad (slotNum o.slot) pail = true →
      exec i s = .next (raise o.slot { cause := 0x01, addr := 0, info := o.node * 65536 } s))) ∧
  (∀ (s : State) (k num : Nat) (a : Action), (∃ d b n, a = .popped d b n) ∨ (∃ d v, a = .push d v) →
    let acts := queueActs (s.slot k) num
    (queueBusy s k acts ≠ none → actOne k num a s = none) ∧
    (queueBusy s k acts = none → actOne k num a s =
      some (queueCommit k acts (s.modSlot k fun x => { x with post := x.post.drop acts.length })))) ∧
  (∀ (s : State) (k desc n : Nat) (item : Word), MemInv s →
    let c := slotCore k
    let q := readQueue s c desc
    (readQueue (popCommit k desc n s) c desc = { q with state := (q.head + n) % 2 ^ 32 * 2 ^ 32 + q.tail }) ∧
    MemoryBut s (popCommit k desc n s) (poolBase c + desc + 8) 8 ∧
    (q.off + 8 * q.cap ≤ desc ∨ desc + 32 ≤ q.off →
      readQueue (pushCommit k desc item s) c desc = { q with state := q.head * 2 ^ 32 + (q.tail + 1) % 2 ^ 32 } ∧
      (pushCommit k desc item s).word (poolBase c + q.item q.tail) = item))) ∧
  ((∀ (s : State) (k desc pa : Nat), MemInv s →
    let c := slotCore k
    let q := readQueue s c desc
    q.bad (slotNum k) (zoneBase (s.partition c)) = false → desc % 32 = 0 → desc + 32 ≤ zoneBase (s.partition c) →
    q.refillDue = true → Idle s → refillAddr s (refillWant c k q.pool 8 .add) = .at pa →
    ∃ t, exec (.refillStart k desc) s = .next t ∧
      readQueue t c desc = { q with poolw := q.poolw % 2 ^ 62 + 2 ^ 63 } ∧ MemoryBut s t (poolBase c + desc + 16) 8 ∧
      { slot := k, issuer := k, desc := desc, pool := q.pool, batch := q.batch : Refill } ∈ (t.core c).refills ∧
      ∃ id, s.nextId ≤ id ∧ tabFind t.net id = some (.req
        { src := .refill c desc, inst := desc, op := .amadd .w64 (BitVec.ofNat 64 q.batch) none, pa := pa })) ∧
  (∀ (s : State) (c desc o limit : Nat) (r : Refill) (ws : List Word), MemInv s → desc < 2 ^ 17 →
    refillOf s c desc = some r → r.old = some o → r.failed = none →
    agentRead s (.refill c desc) (refillWant c r.slot (r.pool + 8) 8 .load) = .data limit →
    loadItems s c r o (min r.batch (limit - o)) = .ok ws → Idle s →
    let q := readQueue s c desc
    q.off + 8 * q.cap ≤ desc ∨ desc + 32 ≤ q.off → ws.length ≤ q.cap →
    ∃ t, exec (.refillComplete (c * 2 ^ 17 + desc)) s = .next t ∧
      readQueue t c desc = { q with
        state := q.head * 2 ^ 32 + (q.tail + ws.length) % 2 ^ 32
        poolw := q.poolw % 2 ^ 62 + (if q.exhausted = true ∨ limit ≤ o + r.batch then 2 ^ 62 else 0) } ∧
      (∀ i w, ws[i]? = some w → t.word (poolBase c + (q.off + 8 * ((q.tail + i) % q.cap))) = w) ∧
      ∀ x ∈ (t.core c).refills, x.desc ≠ desc))

/-! ## Tasks -/

/-- POST and POSTC reserve the lowest-numbered free entry of the list that their left operand names and send its reference;
the entry holds the count, and waits for commit; a full list answers NACK, which is counted, and is asked again after the back-off;
an element outside the launch's graph raises ILLEGAL (R100, R207, R343, R345). JOIN sends 0 where no child runs, and else waits (R190, R347). ELEM, NBRN and NBR
read the launch's graph: an element's home core, its place there, its task's reference, its stall word, its number of
neighbours, and its n-th neighbour or all ones; a stall word of another module is asked for by an access (log 139); an element outside the graph raises ILLEGAL (R201, R349). COLOUR cur sends
the colour of the phase, or all ones where the launch does not dispatch by colour; COLOUR set keeps its byte for commit
(R351). -/
def Obligations.TasksAndGraph : Prop :=
  (∀ (s : State) (i : Instr) (o : Fired) (j : Inst) (p : Pred) (t u : Tgt) (count prio : Nat), FiresClean s i o →
    InstIs s o.slot j →
    (∃ y : BitVec 2, i = .post p t u y ∧ count = 0 ∧ prio = y.toNat) ∨
      (∃ c : BitVec 8, i = .postc p t u c ∧ count = c.toNat ∧ prio = 0) →
    let e := o.l.toNat % 2 ^ 32
    let la := s.launch (s.slot o.slot).launch
    ((s.slot o.slot).launch = 0 ∨ e ≠ 2 ^ 32 - 1 ∧ (la.desc = [] ∨ (la.desc.getD 0 0#64).toNat % 2 ^ 32 ≤ e) →
      exec i s = .next (raise o.slot { cause := 0x01, addr := 0, info := o.node * 65536 } s)) ∧
    ∀ list, postList s o.slot e = some list →
      ((∀ n < listCap s list, entryIsFree s list n = false) →
        (backingOff s (.node o.slot o.node) = true → exec i s = .next s) ∧
        (backingOff s (.node o.slot o.node) = false → ∃ v, exec i s = .next v ∧ SameMemory s v ∧ v.slots = s.slots ∧
          (v.core (slotCore o.slot)).nacks = (s.core (slotCore o.slot)).nacks + 1 ∧
          ∃ m, 1 ≤ m ∧ (.node o.slot o.node, m, s.now + min (64 * 2 ^ (m - 1)) 4096) ∈ v.waits)) ∧
      (Idle s → ∀ n < listCap s list, entryIsFree s list n = true → (∀ m < n, entryIsFree s list m = false) →
        ∃ v, exec i s = .next (finish i o (.data (BitVec.ofNat 64 (refOf list n)) false) v) ∧
          (v.slot o.slot).inst = some (j.putAction o.node (.post list n e
            (((la.record.getD 1 0#64).toNat + 4 * ((o.l >>> 32).setWidth 32 : BitVec 32).toInt) % 2 ^ 64).toNat o.r prio)) ∧
          (MemInv s → (readEntry v list n).count = count ∧ (readEntry v list n).st = 0) ∧
          (list < 2 ^ 80 → MemInv s → MemoryBut s v (list + 32 * n) 24) ∧ (2 ^ 80 ≤ list → SameMemory s v))) ∧
  ((∀ (s : State) (p : Pred) (t u : Tgt) (o : Fired) (j : Inst), FiresClean s (.join p t u) o → InstIs s o.slot j →
    ((s.slot o.slot).join = 0 → exec (.join p t u) s = .next (finish (.join p t u) o (.data 0#64 false) s)) ∧
    ((s.slot o.slot).join ≠ 0 → ∃ v, exec (.join p t u) s = .next v ∧ OnlySlot o.slot s v ∧
      v.slot o.slot = { s.slot o.slot with inst := some (stand j o.node .waiting) })) ∧
  (∀ (s : State) (i : Instr) (o : Fired) (p : Pred) (t u : Tgt) (m : ElemMode),
    i = .elem p t u m ∨ i = .nbr p t u ∨ i = .nbrn p t u ∨ i = .colourSet p t u → FiresClean s i o →
    graphOf s o.slot o.l.toNat = none →
    exec i s = .next (raise o.slot { cause := 0x01, addr := 0, info := o.node * 65536 } s)) ∧
  (∀ (s : State) (p : Pred) (t u : Tgt) (m : ElemMode) (o : Fired) (la : Launch) (c : Nat), FiresClean s (.elem p t u m) o →
    graphOf s o.slot o.l.toNat = some la → la.homes[o.l.toNat / epc la.desc]? = some c → Idle s →
    let sends (v : Nat) : Prop :=
      exec (.elem p t u m) s = .next (finish (.elem p t u m) o (.data (BitVec.ofNat 64 v) false) s)
    let n := o.l.toNat % epc la.desc
    (m = .home → sends c) ∧ (m = .local → sends n) ∧
      (m = .handle → sends (refOf (coreList la.desc c) n)) ∧
      (∀ pa, m = .stall → pa = poolBase c + swOff la.desc + 8 * n →
        (pa / 2 ^ 48 = slotModule o.slot → Quiet s o.slot → pa % 8 = 0 → s.wordPoisoned pa = false → sends (s.word pa).toNat) ∧
        (pa / 2 ^ 48 ≠ slotModule o.slot → FreshId s o.slot → ∃ v, exec (.elem p t u m) s = .next v ∧ SameMemory s v ∧
          (∀ j, InstIs s o.slot j → InstIs v o.slot (stand j o.node .waiting)) ∧ ∃ a ∈ (v.slot o.slot).accs, a.id = s.nextId ∧
            a.node = o.node ∧ a.op = .load 8 false ∧ a.pa = pa % 2 ^ 48 ∧ a.remote = some (pa / 2 ^ 48) ∧ a.st = .ready)) ∧
      (m = .colour → colours la.desc ≠ 0 → ∀ v, graphRead s o.slot o.node (colours la.desc + o.l.toNat) 1 = .data v → sends v)) ∧
  (∀ (s : State) (p : Pred) (t u : Tgt) (o : Fired) (la : Launch) (lo hi : Nat), FiresClean s (.nbrn p t u) o →
    graphOf s o.slot o.l.toNat = some la → Idle s → graphRead s o.slot o.node (rowPtr la.desc + 4 * o.l.toNat) 4 = .data lo →
    graphRead s o.slot o.node (rowPtr la.desc + 4 * o.l.toNat + 4) 4 = .data hi → lo ≤ hi →
    exec (.nbrn p t u) s = .next (finish (.nbrn p t u) o (.data (BitVec.ofNat 64 (hi - lo)) false) s)) ∧
  (∀ (s : State) (p : Pred) (t u : Tgt) (o : Fired) (la : Launch) (lo hi : Nat), FiresClean s (.nbr p t u) o →
    graphOf s o.slot o.l.toNat = some la → Idle s → graphRead s o.slot o.node (rowPtr la.desc + 4 * o.l.toNat) 4 = .data lo →
    graphRead s o.slot o.node (rowPtr la.desc + 4 * o.l.toNat + 4) 4 = .data hi → lo ≤ hi →
    (hi - lo ≤ o.r.toNat → exec (.nbr p t u) s = .next (finish (.nbr p t u) o (.data (BitVec.allOnes 64) false) s)) ∧
    (o.r.toNat < hi - lo → ∀ v, graphRead s o.slot o.node (colIdx la.desc + 4 * (lo + o.r.toNat)) 4 = .data v →
      v ≠ o.l.toNat → v < nelem la.desc →
      exec (.nbr p t u) s = .next (finish (.nbr p t u) o (.data (BitVec.ofNat 64 v) false) s))) ∧
  (∀ (s : State) (p : Pred) (t u : Tgt) (o : Fired), FiresClean s (.colourCur p t u) o →
    let k := (s.slot o.slot).launch
    let la := s.launch k
    exec (.colourCur p t u) s = .next (finish (.colourCur p t u) o (.data
      (if k ≠ 0 ∧ (la.record.getD 0 0#64).getLsbD 24 = true then
        BitVec.ofNat 64 ((s.launch (k / 2 ^ 61 * 2 ^ 61 + la.origin * 2 ^ 48 + k % 2 ^ 48)).colour - 1) else BitVec.allOnes 64) false) s)) ∧
  (∀ (s : State) (p : Pred) (t u : Tgt) (o : Fired) (la : Launch) (pa : Nat), FiresClean s (.colourSet p t u) o →
    graphOf s o.slot o.l.toNat = some la → colours la.desc ≠ 0 → o.r.toNat ≤ 255 →
    checkWalk s { core := slotCore o.slot, sys := systemSlot o.slot, va := colours la.desc + o.l.toNat, size := 1, use := .store } =
      .at pa →
    exec (.colourSet p t u) s = .next (finish (.colourSet p t u) o (.data 0#64 false) (s.modInst o.slot fun x =>
      x.putAction o.node (.colour (colours la.desc + o.l.toNat) pa o.r.toNat)))))

/-! ## Deferred actions -/

/-- DEC, TRETRY, TDROP, PRIO, SPAWN, MIGR, INJ, RCVP free, SWAPS, PARK, WAKE, HALTS, the TLBIs, PWRQ, CSYNC and KREG seal
register their action under their place in the instance and send 0; ERET registers its own and sends nothing. A task
reference that names no entry of the launch raises ILLEGAL or PROTECTION, a slot reference that names no program slot
ILLEGAL (R333, R343, R344, R378, R381). A system-level opcode that fires in a program slot raises PROTECTION with REASON 0x5
(R283, R391): MBXW, MBXR, ERET, SWAPS, the TLBIs, PARK, WAKE, HALTS, TRQPOP and KREG. A poisoned operand of any of these, or of
any other instruction that acts on more than its tokens, raises POISON and nothing else happens (R292, R320, R334). -/
def Obligations.ActionsDeferred : Prop :=
  ((∀ (s : State) (i : Instr) (o : Fired) (D : State → Fired → Action → Prop) (a : Action), FiresClean s i o →
    deferRule i = some D → D s o a → (systemOnly i = true → systemSlot o.slot = true) →
    exec i s = .next (finish i o (.data 0#64 false) (s.modInst o.slot fun x => x.putAction o.node a))) ∧
  (∀ (s : State) (i : Instr) (o : Fired), FiresClean s i o → takesRef i = true → ¬RefOk s o.slot o.l →
    ∃ f, exec i s = .next (raise o.slot f s) ∧ (f.cause = 0x01 ∨ f.cause = 0x06)) ∧
  (∀ (s : State) (i : Instr) (o : Fired), FiresClean s i o → takesSlot i = true → systemSlot o.slot = true →
    2 ^ 17 ≤ o.l.toNat ∨ 13 < o.l.toNat % 16 →
    exec i s = .next (raise o.slot { cause := 0x01, addr := 0, info := o.node * 65536 } s)) ∧
  (∀ (s : State) (p : Pred) (r : Bool) (o : Fired) (j : Inst) (k : Nat), FiresClean s (.eret p r) o → InstIs s o.slot j →
    systemSlot o.slot = true → SlotNamed o.slot o.l k →
    ∃ v, exec (.eret p r) s = .next v ∧ OnlySlot o.slot s v ∧ v.slot o.slot = { s.slot o.slot with
      inst := some (stand (j.putAction o.node (.eret k (if r then some o.r.toNat else none))) o.node .fired) })) ∧
  (∀ (s : State) (i : Instr) (o : Fired), Fires s i o → systemOnly i = true → systemSlot o.slot = false →
    exec i s = .next (raise o.slot { cause := 0x06, addr := 0, info := 5 } s)) ∧
  (∀ (s : State) (i : Instr) (o : Fired), Fires s i o → actsBeyond i = true → o.poison = true →
    (systemOnly i = true → systemSlot o.slot = true) → exec i s = .next (raise o.slot poisonedOperand s))

/-! ## The matrix unit -/

/-- Rows between the pail and the matrix unit: TLD, ACCLD and SCLD stage the pail's bytes and nothing else, TST and SCST
store what they read by relaxed stores that perform after commit, of overlapping rows the highest, and TZERO and ACCZ stage
zeros (R243, R363, R365, R366, R373). -/
def Obligations.PailTransfers : Prop :=
  (∀ (s : State) (p : Pred) (t : Tgt) (d : BitVec 3) (o : Fired) (j : Inst),
    MayStart s (.tld p t d) o j [(.tile, d.toNat)] [d.toNat] [] → strideOk o.r.toNat = true →
    let c := tileOf j d.toNat
    let base := tileAddr s (slotCore o.slot) d.toNat
    let pail := poolBase (slotCore o.slot) + o.l.toNat
    pailCheck s o.slot o.l.toNat (pailRows o.l.toNat o.r.toNat c.rows c.rb) false = none →
    ∃ v i, exec (.tld p t d) s = .next v ∧ Started s v o j i [] 0#64 false ∧ i.scaleError = j.scaleError ∧
      (∀ r < c.rows, ∀ n < c.rb, qByte s i (base + 64 * r + n) = s.byte (pail + r * o.r.toNat + n)) ∧
      (c.rb % 8 = 0 → ∀ r < c.rows, ∀ n < c.rb,
        qPoison s i 8 (base + 64 * r + n) = s.wordPoisoned (pail + r * o.r.toNat + n)) ∧
      ∀ a, (∀ r < c.rows, a < base + 64 * r ∨ base + 64 * r + c.rb ≤ a) → qByte s i a = qByte s j a) ∧
  (∀ (s : State) (p : Pred) (t : Tgt) (d : BitVec 3) (pair : Bool) (o : Fired) (j : Inst),
    MayStart s (.accld p t d pair) o j (accUnits d.toNat pair) [] (accsOf d.toNat pair) → strideOk o.r.toNat = true →
    let w := if pair then 256 else 128
    let base := accAddr s (slotCore o.slot) d.toNat
    let pail := poolBase (slotCore o.slot) + o.l.toNat
    pailCheck s o.slot o.l.toNat (pailRows o.l.toNat o.r.toNat 32 w) false = none →
    ∃ v i, exec (.accld p t d pair) s = .next v ∧ Started s v o j i [] 0#64 false ∧ i.scaleError = j.scaleError ∧
      (∀ r < 32, ∀ n < w, qByte s i (base + w * r + n) = s.byte (pail + r * o.r.toNat + n)) ∧
      ∀ a, a < base ∨ base + 32 * w ≤ a → qByte s i a = qByte s j a) ∧
  (∀ (s : State) (p : Pred) (t : Tgt) (o : Fired) (j : Inst) (n off : Nat), MayStart s (.scld p t) o j [] [] [] →
    scaleSpan o.r.toNat = some (n, off) → pailCheck s o.slot o.l.toNat [(o.l.toNat, n)] false = none →
    (j.staged.bytes.filter fun x => decide (scaleBase (slotCore o.slot) ≤ x.1)).length + n ≤ 1024 →
    let base := scaleBase (slotCore o.slot) + off
    let pail := poolBase (slotCore o.slot) + o.l.toNat
    ∃ v i, exec (.scld p t) s = .next v ∧ Started s v o j i [] 0#64 false ∧ i.scaleError = j.scaleError ∧
      (∀ k < n, qByte s i (base + k) = s.byte (pail + k) ∧ qPoison s i 8 (base + k) = s.wordPoisoned (pail + k)) ∧
      ∀ a, a < base ∨ base + n ≤ a → qByte s i a = qByte s j a) ∧
  (∀ (s : State) (p : Pred) (t : Tgt) (a : BitVec 3) (o : Fired) (j : Inst),
    MayStart s (.tst p t a) o j [(.tile, a.toNat)] [] [] → strideOk o.r.toNat = true →
    let c := tileOf j a.toNat
    let base := tileAddr s (slotCore o.slot) a.toNat
    let pail := poolBase (slotCore o.slot) + o.l.toNat
    c.bad = false → pailCheck s o.slot o.l.toNat (pailRows o.l.toNat o.r.toNat c.rows c.rb) true = none →
    ∃ v i accs, exec (.tst p t a) s = .next v ∧ Started s v o j i accs 0#64 false ∧ i.staged = j.staged ∧ Relaxed j accs ∧
      (∀ r < c.rows, ∀ n < c.rb, (∀ q, r < q → q < c.rows → r * o.r.toNat + n < q * o.r.toNat ∨
          q * o.r.toNat + c.rb ≤ r * o.r.toNat + n) →
        ∃ x ∈ accs, Gives x (pail + r * o.r.toNat + n) (qByte s j (base + 64 * r + n))) ∧
      ∀ x ∈ accs, ∀ m b, Gives x m b → ∃ r < c.rows, pail + r * o.r.toNat ≤ m ∧ m < pail + r * o.r.toNat + c.rb) ∧
  (∀ (s : State) (p : Pred) (t : Tgt) (o : Fired) (j : Inst) (n off : Nat), MayStart s (.scst p t) o j [] [] [] →
    scaleSpan o.r.toNat = some (n, off) → pailCheck s o.slot o.l.toNat [(o.l.toNat, n)] true = none →
    let pail := poolBase (slotCore o.slot) + o.l.toNat
    ∃ v i accs, exec (.scst p t) s = .next v ∧ Started s v o j i accs 0#64 false ∧ i.staged = j.staged ∧ Relaxed j accs ∧
      (∀ k < n, ∃ x ∈ accs, Gives x (pail + k) (qByte s j (scaleBase (slotCore o.slot) + off + k))) ∧
      ∀ x ∈ accs, ∀ m b, Gives x m b → pail ≤ m ∧ m < pail + n) ∧
  (∀ (s : State) (p : Pred) (t : Tgt) (d : BitVec 3) (o : Fired) (j : Inst),
    MayStart s (.tzero p t d) o j [(.tile, d.toNat)] [d.toNat] [] →
    let base := tileAddr s (slotCore o.slot) d.toNat
    ∃ v i, exec (.tzero p t d) s = .next v ∧ Started s v o j i [] 0#64 false ∧ i.scaleError = j.scaleError ∧
      ∀ a, if base ≤ a ∧ a < base + 2048 then qByte s i a = 0#8 ∧ qPoison s i 8 a = false else qByte s i a = qByte s j a) ∧
  ∀ (s : State) (p : Pred) (t : Tgt) (d : BitVec 3) (pair : Bool) (o : Fired) (j : Inst),
    MayStart s (.accz p t d pair) o j (accUnits d.toNat pair) [] (accsOf d.toNat pair) →
    let base := accAddr s (slotCore o.slot) d.toNat
    let n := if pair then 8192 else 4096
    ∃ v i, exec (.accz p t d pair) s = .next v ∧ Started s v o j i [] 0#64 false ∧ i.scaleError = j.scaleError ∧
      ∀ a, if base ≤ a ∧ a < base + n then qByte s i a = 0#8 ∧ qPoison s i 4 a = false else qByte s i a = qByte s j a

/-- Tiles written element by element: TTRN transposes, ACCRD converts accumulator elements, TDEQ the values of elements with
their scales, each rounded once; an integer result saturates (R229, R367, R369, R370). A reserved format of the destination of
TTRN raises UNSUPPORTED FORMAT, as one of its source does (R221, R279, R288). -/
def Obligations.TileConversions : Prop :=
  (∀ (s : State) (p : Pred) (t : Tgt) (d a : BitVec 3) (o : Fired) (j : Inst),
    MayStart s (.ttrn p t d a) o j [(.tile, d.toNat), (.tile, a.toNat)] [d.toNat] [] →
    let c := slotCore o.slot
    let ta := tileOf j a.toNat
    let td := tileOf j d.toNat
    let w := elemBits ta.fmt
    (ta.bad = true ∨ scaled ta.fmt = true → ∃ v, exec (.ttrn p t d a) s = .next v ∧ Trapped s v o.slot (formatFault ta)) ∧
    (ta.bad = false → scaled ta.fmt = false → elemBits td.fmt = 0 →
      ∃ v, exec (.ttrn p t d a) s = .next v ∧ Trapped s v o.slot (formatFault td)) ∧
    (ta.bad = false → scaled ta.fmt = false → td.fmt = ta.fmt → td.rows = ta.k → td.rb * 8 = ta.rows * w →
      ¬(w = 4 ∧ ta.rows % 2 = 1) → ∃ v i, exec (.ttrn p t d a) s = .next v ∧ Started s v o j i [] 0#64 false ∧
        i.scaleError = j.scaleError ∧
        (∀ k < ta.k, ∀ r < ta.rows, (tileElem s i c td k r).1 = (tileElem s j c ta r k).1) ∧
        ∀ x, (∀ k < ta.k, x < tileAddr s c d.toNat + 64 * k ∨ tileAddr s c d.toNat + 64 * k + td.rb ≤ x) →
          qByte s i x = qByte s j x)) ∧
  (∀ (s : State) (p : Pred) (t : Tgt) (d a : BitVec 3) (b : AccKind) (m : MatMode) (o : Fired) (j : Inst),
    MayStart s (.accrd p t d a b m) o j ((.tile, d.toNat) :: accUnits a.toNat (b == .pair)) [d.toNat] [] →
    let c := slotCore o.slot
    let td := tileOf j d.toNat
    (td.bad = true ∨ 0x11 ≤ td.fmt → ∃ v, exec (.accrd p t d a b m) s = .next v ∧ Trapped s v o.slot (formatFault td)) ∧
    (td.bad = false → td.fmt < 0x11 → td.k ≤ 32 → ∃ v i, exec (.accrd p t d a b m) s = .next v ∧
      Started s v o j i [] 0#64 false ∧ i.scaleError = j.scaleError ∧
      ∀ r < td.rows, ∀ n < td.k, (tileElem s i c td r n).1 = elemEncode td.fmt (match m with
          | .rneDefault _ => .rne
          | .enabled mode => mode)
        (accrdValue b (readAcc s j c a.toNat (b == .pair) r n).1) % 2 ^ elemBits td.fmt)) ∧
  ∀ (s : State) (p : Pred) (t : Tgt) (d a b : BitVec 3) (m : BitVec 6) (o : Fired) (j : Inst),
    MayStart s (.tdeq p t d a b m) o j [(.tile, d.toNat), (.tile, a.toNat)] [d.toNat] [] →
    let c := slotCore o.slot
    let ta := tileOf j a.toNat
    let td := tileOf j d.toNat
    ta.bad = false → td.bad = false → td.fmt ≤ 0x0A → ta.rows = td.rows → 16 * b.toNat + td.k ≤ ta.k →
    ∃ v i, exec (.tdeq p t d a b m) s = .next v ∧ Started s v o j i [] 0#64 false ∧
      ∀ r < td.rows, ∀ n < td.k, (tileElem s i c td r n).1 = elemEncode td.fmt (modMode m)
        (scaledElem s j c ta (modCoff m) r (16 * b.toNat + n)) % 2 ^ elemBits td.fmt

/-- MMA, MMAS and MMAK: every covered element of D becomes the old one, or 0, plus the row products of A and B, by chunks of
L rounded once each for floating formats and modulo 2^32 for integers; an operand that is poisoned poisons the element;
elements that are not covered stay; a pair of formats that R368 does not admit raises UNSUPPORTED FORMAT, and an accumulator
of the pair that is not the thread's UNOWNED TILE, before any other check (R235 to R237, R240, R362, R368). TOPK writes the indices of each row's k best elements, and 0xFFFF where the row has fewer; TRED reduces each
row into one column of D: an exact sum rounded once, or the greatest or least value, NaN where one is NaN; integers modulo
2^32 (R371, R372). A reserved format of TOPK's destination raises UNSUPPORTED FORMAT (R221, R279, R288). -/
def Obligations.MatrixProducts : Prop :=
  (∀ (s : State) (i : Instr) (mixed zero : Bool) (d a b : Nat) (m : BitVec 6) (o : Fired) (j : Inst),
    mmaRule i = some (mixed, zero, d, a, b, m) →
    let c := slotCore o.slot
    let ta := tileOf j a
    let tb := tileOf j b
    let pair := ta.fmt == 0x01
    let f := if pair then fmtE11M52 else fmtE8M23
    MayStart s i o j [(.acc, d), (.tile, a), (.tile, b)] [] (accsOf d pair) →
    let both := pair = true → d % 2 = 0 → ownsUnit s o.slot .acc (d + 1) = true
    (pair = true → d % 2 = 0 → ownsUnit s o.slot .acc (d + 1) = false →
      ∃ v, exec i s = .next v ∧ Trapped s v o.slot (unownedFault .acc (d + 1))) ∧
    (both → ta.bad = false → tb.bad = false → pairOk mixed ta.fmt tb.fmt = false →
      ∃ v, exec i s = .next v ∧ Trapped s v o.slot (formatFault ta)) ∧
    (both → mmaCheck mixed o.node d ta tb m = none →
      ∃ v n, exec i s = .next v ∧ Started s v o j n [] 0#64 false ∧
        (∀ r < ta.rows, ∀ q < tb.rows,
          let old := if zero then (0, false) else readAcc s j c d pair r q
          ((elemInt ta.fmt).isSome = true → IntegerSum s j c ta tb r q old.1 (readAcc s n c d pair r q).1) ∧
          ((elemInt ta.fmt).isSome = false → ∃ x, (readAcc s n c d pair r q).1 = x % (if pair then 2 ^ 64 else 2 ^ 32) ∧
            ChunkedSum f (modMode m) (chunkLen ta.fmt tb.fmt) ta.k (productAt s j c ta tb (modCoff m) r q) old.1 x) ∧
          (readAcc s n c d pair r q).2 = (old.2 || rowPoisoned s j c ta (modCoff m) r || rowPoisoned s j c tb (modCoff m) q)) ∧
        ∀ r < 32, ∀ q < 32, ta.rows ≤ r ∨ tb.rows ≤ q → readAcc s n c d pair r q = readAcc s j c d pair r q)) ∧
  ((∀ (s : State) (p : Pred) (t : Tgt) (d a : BitVec 3) (mag : Bool) (co : BitVec 3) (o : Fired) (j : Inst),
    MayStart s (.topk p t d a mag co) o j [(.tile, d.toNat), (.tile, a.toNat)] [d.toNat] [] →
    let c := slotCore o.slot
    let ta := tileOf j a.toNat
    let td := tileOf j d.toNat
    let k := o.l.toNat
    (ta.bad = false → elemBits td.fmt = 0 →
      ∃ v, exec (.topk p t d a mag co) s = .next v ∧ Trapped s v o.slot (formatFault td)) ∧
    (ta.bad = false → k ≠ 0 → k ≤ 32 → td.fmt = 0x0C → ta.rows ≤ td.rows → 2 * k ≤ td.rb →
    ∃ v i, exec (.topk p t d a mag co) s = .next v ∧ Started s v o j i [] 0#64 false ∧
      (∀ r < ta.rows, ∃ at_ : Nat → Nat,
        RankedBy ((List.range ta.k).map fun n =>
          let x := scaledElem s j c ta co.toNat r n
          if mag then x.abs else x) at_ ∧
        ∀ n < k, (tileElem s i c td r n).1 = if n < ta.k then at_ n else 0xFFFF) ∧
      ∀ x, (∀ r < ta.rows, x < tileAddr s c d.toNat + 64 * r ∨ tileAddr s c d.toNat + 64 * r + 2 * k ≤ x) →
        qByte s i x = qByte s j x)) ∧
  ∀ (s : State) (p : Pred) (t : Tgt) (d a : BitVec 3) (op : RedOp) (acc : Bool) (co : BitVec 3) (o : Fired) (j : Inst),
    MayStart s (.tred p t d a op acc co) o j [(.acc, d.toNat), (.tile, a.toNat)] [] [d.toNat] →
    let c := slotCore o.slot
    let ta := tileOf j a.toNat
    (ta.bad = false → 32 ≤ o.l.toNat → ∃ v, exec (.tred p t d a op acc co) s = .next v ∧
      Trapped s v o.slot { cause := 0x01, addr := 0, info := o.node * 65536 }) ∧
    (ta.bad = false → o.l.toNat < 32 → ∃ v i, exec (.tred p t d a op acc co) s = .next v ∧
      Started s v o j i [] 0#64 false ∧
      (∀ r < ta.rows,
        let old := (readAcc s j c d.toNat false r o.l.toNat).1
        let new := (readAcc s i c d.toNat false r o.l.toNat).1
        let vs := (if acc then [valueOf fmtE8M23 old] else []) ++ (List.range ta.k).map (scaledElem s j c ta co.toNat r)
        let ns := (List.range ta.k).map fun n => elemInteger ta.fmt (tileElem s j c ta r n).1
        (elemInt ta.fmt = none → ∃ y, new = (roundTo fmtE8M23 .rne y).bits % 2 ^ 32 ∧ match op with
          | .sum => y = (sumVals .rne vs).1
          | .max => Extreme true vs y
          | .min => Extreme false vs y) ∧
        ∀ sg, elemInt ta.fmt = some sg →
          let o32 : Int := if sg then signedOf 32 old else old
          let all := (if acc then [o32] else []) ++ ns
          ∃ x : Int, new = (x % 2 ^ 32).toNat ∧ match op with
            | .sum => x = all.sum
            | .max => x ∈ all ∧ ∀ z ∈ all, z ≤ x
            | .min => x ∈ all ∧ ∀ z ∈ all, x ≤ z) ∧
      ∀ r < 32, ∀ q < 32, ta.rows ≤ r ∨ q ≠ o.l.toNat → readAcc s i c d.toNat false r q = readAcc s j c d.toNat false r q))

/-- A Q operation whose unit another slot claims waits in line, its slot not runnable; one whose power is not granted waits
and raises REQ; one that names a unit that is not its slot's raises UNOWNED TILE; and MATRIX_OP_COMPLETE sends the token and
lets the slot run again (R242, R243, R362, R415). A pail address at or above 0x18000 raises PROTECTION with REASON 7, a span
outside the pail REASON 8, and an address that is not a multiple of 8 MISALIGNED (R363); that the window stands before the
class and the class before the alignment, and that WRITE is 0 in their INFO, is the model's reading (log 38). -/
def Obligations.MatrixUnitShared : Prop :=
  (∀ (s : State) (p : Pred) (t : Tgt) (d : BitVec 3) (o : Fired) (j : Inst) (h since : Nat), FiresClean s (.tzero p t d) o →
    InstIs s o.slot j → qTurn j o.node = true → ownsUnit s o.slot .tile d.toNat = true →
    (s.core (slotCore o.slot)).claim = some (h, since) → h ≠ o.slot →
    ∃ v, exec (.tzero p t d) s = .next v ∧ SameMemory s v ∧
      v.slot o.slot = { s.slot o.slot with matrix := true, inst := some (stand j o.node .waiting) } ∧
      v.core (slotCore o.slot) = { s.core (slotCore o.slot) with
        claimWait := (s.core (slotCore o.slot)).claimWait ++ [o.slot] }) ∧
  (∀ (s : State) (p : Pred) (t : Tgt) (d : BitVec 3) (o : Fired) (j : Inst), FiresClean s (.tzero p t d) o →
    InstIs s o.slot j → qTurn j o.node = true →
    let co := s.core (slotCore o.slot)
    (ownsUnit s o.slot .tile d.toNat = false → exec (.tzero p t d) s = .next (raise o.slot (unownedFault .tile d.toNat) s)) ∧
    (ownsUnit s o.slot .tile d.toNat = true → co.claim = none → co.claimWait = [] → co.pwrGrant < 24 →
      ∃ v, exec (.tzero p t d) s = .next v ∧ SameMemory s v ∧
        v.slot o.slot = { s.slot o.slot with matrix := true, inst := some (stand j o.node .waiting) } ∧
        v.core (slotCore o.slot) = { co with
          claim := some (o.slot, s.now), claimWait := []
          pwrNext := if co.pwrReq < 24 then max co.pwrNext 24 else co.pwrNext })) ∧
  (∀ (s : State) (core k n : Nat) (tok : Word) (p : Bool) (j : Inst) (x : Node),
    (s.core core).qbusy = some (k, n, tok, p) → InstIs s k j → j.nodes[n]? = some x →
    OpenFor (stand j n .fired) (.data tok p) x.form.t →
    ∃ v, exec (.matrixOpComplete core) s = .next v ∧ SameMemory s v ∧ (v.core core).qbusy = none ∧
      v.slot k = { s.slot k with
        matrix := false, inst := some (putToken (stand j n .fired) (.data tok p) x.form.t) }) ∧
  ∀ (s : State) (k left : Nat) (spans : List (Nat × Nat)) (write : Bool),
    let outside : Prop := ∃ x ∈ spans, x.2 ≠ 0 ∧ zoneBase (s.partition (slotCore k)) < x.1 + x.2
    (0x18000 ≤ left → pailCheck s k left spans write = some { cause := 0x06, addr := left, info := 7 }) ∧
    (left < 0x18000 → outside → pailCheck s k left spans write = some { cause := 0x06, addr := left, info := 8 }) ∧
    (left < 0x18000 → ¬outside → write = false → left % 8 ≠ 0 →
      pailCheck s k left spans write = some { cause := 0x04, addr := left, info := 0xC }) ∧
    (left < 0x18000 → ¬outside → write = false → left % 8 = 0 → pailCheck s k left spans write = none)

/-! ## The Separator -/

/-- Records and s-registers: GLD loads the current or the previous message; GST stores an s-register as the current message,
the current one becoming the previous; GSHIFT copies the current message to the previous; both advance STEP; GZERO clears an
s-register. No other byte of the record changes (R247 to R249, R375). GACC adds two blocks of one dimension, and GDAMP mixes
a block with the previous message by β, each element rounded once; unequal dimensions raise ILLEGAL (R249, R252). GCHK sends
the greatest change of η, rounded up, NaN where one is NaN (R377). -/
def Obligations.RecordsAndBlocks : Prop :=
  ((∀ (s : State) (p : Pred) (t : Tgt) (d : BitVec 2) (prev : Bool) (o : Fired) (j : Inst) (pa n : Nat),
    MayStart s (.gld p t d prev) o j [(.sreg, d.toNat)] [] [] → RecordAt s o false pa n →
    let at_ := if prev then 0x6C else 0
    ∃ v i, exec (.gld p t d prev) s = .next v ∧ Started s v o j i [] 0#64 false ∧
      InfoIs (readSreg s i (slotCore o.slot) d.toNat) n (fun r q => recElem s pa (at_ + triOffset r q))
        (fun r => recElem s pa (at_ + 0x54 + 4 * r))) ∧
  (∀ (s : State) (p : Pred) (t : Tgt) (a : BitVec 2) (o : Fired) (j : Inst) (pa n : Nat),
    MayStart s (.gst p t a) o j [(.sreg, a.toNat)] [] [] → RecordAt s o true pa n →
    let x := readSreg s j (slotCore o.slot) a.toNat
    x.d ≤ 6 →
    ∃ v i accs, exec (.gst p t a) s = .next v ∧ Started s v o j i accs 0#64 false ∧ i.staged = j.staged ∧ Relaxed j accs ∧
      (∀ q < 6, ∀ r ≤ q, GivesNumber accs (pa + triOffset r q) 4 (if q < x.d then (x.l r q).1 else 0)) ∧
      (∀ r < 6, GivesNumber accs (pa + 0x54 + 4 * r) 4 (if r < x.d then (x.h r).1 else 0)) ∧
      GivesNumber accs (pa + 0x6C) 0x6C (s.readN pa 0x6C) ∧
      GivesNumber accs (pa + 0xDC) 4 (headerAfter (s.readN (pa + 0xDC) 4) x.d) ∧
      ∀ y ∈ accs, ∀ m b, Gives y m b → pa ≤ m ∧ m < pa + 0xE0 ∧ ¬(pa + 0xD8 ≤ m ∧ m < pa + 0xDC)) ∧
  (∀ (s : State) (p : Pred) (t : Tgt) (o : Fired) (j : Inst) (pa n : Nat),
    MayStart s (.gshift p t) o j [] [] [] → RecordAt s o true pa n →
    ∃ v i accs, exec (.gshift p t) s = .next v ∧ Started s v o j i accs 0#64 false ∧ i.staged = j.staged ∧ Relaxed j accs ∧
      GivesNumber accs (pa + 0x6C) 0x6C (s.readN pa 0x6C) ∧
      GivesNumber accs (pa + 0xDC) 4 (headerAfter (s.readN (pa + 0xDC) 4) n) ∧
      ∀ y ∈ accs, ∀ m b, Gives y m b → pa + 0x6C ≤ m ∧ m < pa + 0xE0 ∧ ¬(pa + 0xD8 ≤ m ∧ m < pa + 0xDC)) ∧
  ∀ (s : State) (p : Pred) (t : Tgt) (d : BitVec 2) (m : BitVec 3) (o : Fired) (j : Inst),
    MayStart s (.gzero p t d m) o j [(.sreg, d.toNat)] [] [] →
    ∃ v i, exec (.gzero p t d m) s = .next v ∧ Started s v o j i [] 0#64 false ∧
      InfoIs (readSreg s i (slotCore o.slot) d.toNat) m.toNat (fun _ _ => (0, false)) (fun _ => (0, false))) ∧
  ((∀ (s : State) (p : Pred) (t : Tgt) (d a : BitVec 2) (o : Fired) (j : Inst),
    MayStart s (.gacc p t d a) o j [(.sreg, d.toNat), (.sreg, a.toNat)] [] [] →
    let c := slotCore o.slot
    let x := readSreg s j c d.toNat
    let y := readSreg s j c a.toNat
    let add (e g : Nat × Bool) : Nat × Bool := ((roundTo fmtE8M23 .rne
      (sumVals .rne [valueOf fmtE8M23 e.1, valueOf fmtE8M23 g.1]).1).bits, e.2 || g.2)
    (x.d ≠ y.d → ∃ v, exec (.gacc p t d a) s = .next v ∧
      Trapped s v o.slot { cause := 0x01, addr := 0, info := o.node * 65536 }) ∧
    (x.d = y.d → ∃ v i, exec (.gacc p t d a) s = .next v ∧ Started s v o j i [] 0#64 false ∧
      InfoIs (readSreg s i c d.toNat) x.d (fun r q => add (x.l r q) (y.l r q)) (fun r => add (x.h r) (y.h r)))) ∧
  (∀ (s : State) (p : Pred) (t : Tgt) (d : BitVec 2) (fromReg : Bool) (o : Fired) (j : Inst) (pa n : Nat) (beta : Val),
    MayStart s (.gdamp p t d fromReg) o j [(.sreg, d.toNat)] [] [] → RecordAt s o false pa n →
    let c := slotCore o.slot
    let x := readSreg s j c d.toNat
    let b : Nat × Bool := if fromReg then ((s.slot o.slot).sepBeta.toNat % 2 ^ 32, false) else recElem s pa 0xD8
    let one : Val := .fin false 1 0
    let bv := valueOf fmtE8M23 b.1
    (bv = .nan → beta = .fin false 0 0) → (bv ≠ .nan → bv.neg? = true → beta = .fin false 0 0) →
    (bv ≠ .nan → bv.neg? = false → bv.order one = .gt → beta = one) →
    (bv ≠ .nan → bv.neg? = false → bv.order one ≠ .gt → beta = bv) →
    let mix (e g : Nat × Bool) : Nat × Bool := ((roundTo fmtE8M23 .rne (sumVals .rne
      [(Val.mul (sumVals .rne [one, beta.negate]).1 (valueOf fmtE8M23 e.1)).1,
        (Val.mul beta (valueOf fmtE8M23 g.1)).1]).1).bits, e.2 || g.2 || b.2)
    (x.d ≠ n → ∃ v, exec (.gdamp p t d fromReg) s = .next v ∧
      Trapped s v o.slot { cause := 0x01, addr := 0, info := o.node * 65536 }) ∧
    (x.d = n → ∃ v i, exec (.gdamp p t d fromReg) s = .next v ∧ Started s v o j i [] 0#64 false ∧
      InfoIs (readSreg s i c d.toNat) n (fun r q => mix (x.l r q) (recElem s pa (0x6C + triOffset r q)))
        (fun r => mix (x.h r) (recElem s pa (0xC0 + 4 * r))))) ∧
  ∀ (s : State) (p : Pred) (t : Tgt) (o : Fired) (j : Inst) (pa n : Nat),
    MayStart s (.gchk p t) o j [] [] [] → RecordAt s o false pa n →
    let change (r : Nat) : Val := (sumVals .rne [valueOf fmtE8M23 (recElem s pa (0x54 + 4 * r)).1,
      (valueOf fmtE8M23 (recElem s pa (0xC0 + 4 * r)).1).negate]).1.abs
    ∃ v i y, exec (.gchk p t) s = .next v ∧
      Started s v o j i [] (BitVec.ofNat 64 (roundTo fmtE8M23 .ru y).bits)
        ((List.range n).any fun r => (recElem s pa (0x54 + 4 * r)).2 || (recElem s pa (0xC0 + 4 * r)).2) ∧
      i.staged = j.staged ∧ ((∃ r < n, change r = .nan) → y = .nan) ∧
      ((∀ r < n, change r ≠ .nan) → (y = .fin false 0 0 ∨ ∃ r < n, y = change r) ∧ ∀ r < n, (change r).order y ≠ .gt))

/-- One elimination is that of R250. GELIM eliminates the variables from the last down to m, and GSOLVE those down to 0 and
then substitutes back in rising order, each unknown rounded once; a pivot that is not finite or not above SEP.EPS raises
SINGULAR with the pivot, its index and the s-register (R249 to R251, R376). -/
def Obligations.Elimination : Prop :=
  (∀ (x : Info) (k : Nat), k < 6 → ElimRule x (elimStep x k) k) ∧
  (∀ (eps : Val) (p : Nat × Bool), pivotBad eps p = true ↔ p.2 = false ∧
    (∀ n m e, valueOf fmtE8M23 p.1 = .fin n m e → (Val.fin n m e).order eps ≠ .gt)) ∧
  (∀ (s : State) (p : Pred) (t : Tgt) (d : BitVec 2) (m : BitVec 3) (o : Fired) (j : Inst) (f : Nat → Info),
    MayStart s (.gelim p t d m) o j [(.sreg, d.toNat)] [] [] →
    let c := slotCore o.slot
    let x := readSreg s j c d.toNat
    let bad (k : Nat) : Bool := pivotBad (slotEps s o.slot) ((f (k + 1)).l k k)
    x.d ≤ 6 →
    (m.toNat = 0 ∨ x.d ≤ m.toNat → ∃ v, exec (.gelim p t d m) s = .next v ∧
      Trapped s v o.slot { cause := 0x01, addr := 0, info := o.node * 65536 }) ∧
    (m.toNat ≠ 0 → m.toNat < x.d → ElimChain x m.toNat f →
      ((∀ k, m.toNat ≤ k → k < x.d → bad k = false) → ∃ v i, exec (.gelim p t d m) s = .next v ∧
        Started s v o j i [] 0#64 false ∧
        InfoIs (readSreg s i c d.toNat) m.toNat (fun r q => (f m.toNat).l r q) (fun r => (f m.toNat).h r)) ∧
      ∀ k, m.toNat ≤ k → k < x.d → bad k = true → (∀ n, k < n → n < x.d → bad n = false) →
        ∃ v, exec (.gelim p t d m) s = .next v ∧ Trapped s v o.slot
          { cause := 0x08, addr := 0, info := ((f (k + 1)).l k k).1 * 2 ^ 32 + k * 8 + d.toNat })) ∧
  ∀ (s : State) (p : Pred) (t : Tgt) (d : BitVec 2) (o : Fired) (j : Inst) (f : Nat → Info) (xs : Nat → Nat × Bool),
    MayStart s (.gsolve p t d) o j [(.sreg, d.toNat)] [] [] →
    let c := slotCore o.slot
    let x := readSreg s j c d.toNat
    let bad (k : Nat) : Bool := pivotBad (slotEps s o.slot) ((f (k + 1)).l k k)
    x.d ≤ 6 → ElimChain x 0 f → (∀ k < x.d, bad k = false) →
    (∀ r < x.d,
      let e := f (r + 1)
      xs r = ((roundTo fmtE8M23 .rne (Val.div (sumVals .rne (valueOf fmtE8M23 (e.h r).1 :: (List.range r).map fun q =>
          (Val.mul (valueOf fmtE8M23 (e.l r q).1) (valueOf fmtE8M23 (xs q).1)).1.negate)).1
          (valueOf fmtE8M23 (e.l r r).1))).bits,
        (e.h r).2 || (e.l r r).2 || (List.range r).any fun q => (e.l r q).2 || (xs q).2)) →
    ∃ v i, exec (.gsolve p t d) s = .next v ∧ Started s v o j i [] 0#64 false ∧
      (readSreg s i c d.toNat).d = x.d ∧
      ∀ r < x.d, (readSreg s i c d.toNat).h r = ((xs r).1 % 2 ^ 32, (xs r).2)

/-! ## Actions after commit -/

/-- What the system actions do when they act. PARK stops a running thread between its blocks and WAKE lets a parked one go
on; HALTS kills; ERET continues a thread that a trap has stopped, at the address given if there is one; anything else counts
as a misuse (R378, R381, R384, R385). PWRQ asks for power, CSYNC empties the block cache, and a TLBI removes the
translations that it names from every covered cluster and keeps the others (R37, R383, R386, R387). KREG seal reads the entry, and
its checksum leaves as a store of its own, for whose acknowledgement the slot waits; a poisoned word of the entry pends POISON
(R389). What the actions on tasks do to the entry that they name: a POST makes its entry READY, or WAITING where
its count is not 0; DEC takes 1 from COUNT, and a WAITING entry whose COUNT reaches 0 becomes READY; PRIO replaces PRIO;
TRETRY of a task that has failed makes it READY, and TDROP frees it, and its element leaves quarantine; anything else counts
as a misuse and changes no entry (R189, R211, R215, R345, R346, R353). -/
def Obligations.ActionsAct : Prop :=
  ((∀ (s : State) (k num m : Nat) (x : Slot), Due s k num (.park m) → m ≠ k → s.slot m = x →
    (x.life ≠ .free → x.life ≠ .killed → x.halt = .none → x.parkAtBoundary = false → x.inst = none →
      ∃ t, actOne k num (.park m) s = some t ∧ ActedOn s t k m fun y => { y with halt := .parked }) ∧
    (x.life = .free ∨ x.life = .killed ∨ x.halt ≠ .none ∨ x.parkAtBoundary = true →
      ∃ t, actOne k num (.park m) s = some t ∧ Misused s t k)) ∧
  (∀ (s : State) (k num m : Nat) (x : Slot), Due s k num (.wake m) → m ≠ k → s.slot m = x →
    (x.life ≠ .free → x.life ≠ .killed → (x.halt = .parked ∨ ∃ d, x.halt = .replay d) →
      ∃ t, actOne k num (.wake m) s = some t ∧ ActedOn s t k m fun y => { y with halt := .none }) ∧
    (x.life = .free ∨ x.life = .killed ∨ x.halt = .fatal ∨ x.halt = .software ∨
        x.halt = .none ∧ x.parkAtBoundary = false →
      ∃ t, actOne k num (.wake m) s = some t ∧ Misused s t k)) ∧
  (∀ (s : State) (k num m : Nat), Due s k num (.halts m) → m ≠ k → (s.slot m).life ≠ .free → (s.slot m).life ≠ .killed →
    ∃ t, actOne k num (.halts m) s = some t ∧ (t.slot m).life = .killed ∧ (t.slot m).inst = none ∧
      (t.slot m).members = [] ∧ (t.slot m).copies = (s.slot m).copies) ∧
  (∀ (s : State) (k num m : Nat) (back : Option Nat) (x : Slot), Due s k num (.eret m back) → m ≠ k → s.slot m = x →
    (x.life ≠ .free → x.record = none → x.halt = .fatal ∨ x.halt = .software →
      ∃ t, actOne k num (.eret m back) s = some t ∧ ActedOn s t k m fun y => match back with
        | some a => { y with halt := .none, life := .fetch, next := a }
        | none => { y with halt := .none }) ∧
    (x.life = .free ∨ x.record ≠ none ∨ (x.halt ≠ .fatal ∧ x.halt ≠ .software) →
      ∃ t, actOne k num (.eret m back) s = some t ∧ Misused s t k)) ∧
  (∀ (s : State) (k num n : Nat), Due s k num (.pwrq n) → ∃ t, actOne k num (.pwrq n) s = some t ∧ SameMemory s t ∧
    t.core (slotCore k) = { s.core (slotCore k) with pwrNext := n }) ∧
  (∀ (s : State) (k num : Nat), Due s k num .csync → ∃ t, actOne k num .csync s = some t ∧ SameMemory s t ∧
    t.core (slotCore k) = { s.core (slotCore k) with blockCache := [] }) ∧
  (∀ (s : State) (k num va asid : Nat) (kind : Nat) (sc : Scope), Due s k num (.tlbi kind va asid sc) →
    sc ∈ [.clus, .die, .mod] →
    ∃ t, actOne k num (.tlbi kind va asid sc) s = some t ∧ SameMemory s t ∧ ∀ p ∈ s.clusters,
      ∃ q ∈ t.clusters, q.1 = p.1 ∧
        let covered : Prop := match sc with
          | .mod => p.1 / 512 = slotModule k
          | .die => p.1 / 128 = coreDie (slotCore k)
          | _ => p.1 = slotCore k / 16
        let hit (e : TlbEntry) : Prop := match kind with
          | 0 => e.vpn = va / 2 ^ pageBits e.level ∧ (e.g = true ∨ e.asid = asid)
          | 1 => e.g = false ∧ e.asid = asid
          | _ => True
        ∀ e, e ∈ q.2.tlb ↔ e ∈ p.2.tlb ∧ ¬(covered ∧ hit e)) ∧
  (∀ (s : State) (k num va pa : Nat), Due s k num (.seal va pa) → pa % 64 = 0 → Idle s →
    ((∀ n < 7, s.wordPoisoned (pa + 8 * n) = false) →
      ∃ t, actOne k num (.seal va pa) s = some t ∧ SameMemory s t ∧
        (t.slot k).post = (num, .sealed s.nextId) :: (s.slot k).post.drop 1 ∧
        ∃ a ∈ (t.slot k).accs, a.id = s.nextId ∧ a.op = .store 8 (crcOf (s.bytesAt pa 56)) 0#64 false ∧ a.pa = pa + 56 ∧
          a.committed = true) ∧
    (∀ n < 7, s.wordPoisoned (pa + 8 * n) = true → (∀ i < n, s.wordPoisoned (pa + 8 * i) = false) →
      ∃ t, actOne k num (.seal va pa) s = some t ∧ SameMemory s t ∧ (t.slot k).post = (s.slot k).post.drop 1 ∧
        (t.slot k).accs = [] ∧ ∃ f ∈ (t.slot k).pending, f.cause = 0x07 ∧ f.addr = va + 8 * n ∧ f.origin = 1 ∧ f.replay = false)) ∧
  ∀ (s : State) (k num acc : Nat) (rest : List (Nat × Action)), (s.slot k).post = (num, .sealed acc) :: rest →
    (s.acc? k acc = none → ∃ t, actOne k num (.sealed acc) s = some t ∧ SameMemory s t ∧
      t.slot k = { s.slot k with post := rest }) ∧
    (s.acc? k acc ≠ none → actOne k num (.sealed acc) s = none)) ∧
  ((∀ (s : State) (k num list n element start prio : Nat) (arg : Word), Due s k num (.post list n element start arg prio) →
    MemInv s → element < 2 ^ 32 → start < 2 ^ 48 → prio < 4 →
    ∃ t, actOne k num (.post list n element start arg prio) s = some t ∧
      let x := readEntry t list n
      x.count = (readEntry s list n).count ∧ x.st = (if (readEntry s list n).count = 0 then 2 else 1) ∧ x.prio = prio ∧
        x.element = element ∧ x.start = start ∧ x.w2 = arg ∧ x.age = ageNow s (slotModule k)) ∧
  (∀ (s : State) (k num list n : Nat) (ref : Word) (e : ListEntry), Due s k num (.dec ref) → EntryAt s k ref list n e →
    (e.count ≠ 0 → ∃ t, actOne k num (.dec ref) s = some t ∧
      EntryBecomes t list n e (if e.st = 1 ∧ e.count = 1 then 2 else e.st) e.prio (e.count - 1)) ∧
    (e.count = 0 → ∃ t, actOne k num (.dec ref) s = some t ∧ Misused s t k)) ∧
  (∀ (s : State) (k num list n prio : Nat) (ref : Word) (e : ListEntry), Due s k num (.prio ref prio) →
    EntryAt s k ref list n e → prio < 4 →
    ∃ t, actOne k num (.prio ref prio) s = some t ∧ EntryBecomes t list n e e.st prio e.count) ∧
  (∀ (s : State) (k num list n : Nat) (a : Action) (ref : Word) (e : ListEntry), Due s k num a →
    a = .tretry ref ∨ a = .tdrop ref → EntryAt s k ref list n e →
    (e.st ≠ 4 → e.st ≠ 5 → ∃ t, actOne k num a s = some t ∧ Misused s t k) ∧
    (e.st = 4 ∨ e.st = 5 → ∃ t, actOne k num a s = some t ∧
      (a = .tretry ref → EntryBecomes t list n e 2 e.prio e.count) ∧ (a = .tdrop ref → (readEntry t list n).st = 0) ∧
      ∀ pa, stallAddr (s.launch (s.slot k).launch) e.element = some pa → e.element ≠ 2 ^ 32 - 1 →
        (2 ^ 80 ≤ list ∨ pa + 8 ≤ list + 32 * n ∨ list + 32 * n + 24 ≤ pa) →
        let w := (s.word pa).toNat
        (w / 2 ^ 62 ≠ 3 → t.word pa = s.word pa) ∧
        (w / 2 ^ 62 = 3 → (t.word pa).toNat =
          (if 0 < w / 2 ^ 48 % 2 ^ 14 then 2 ^ 62 else 0) + w / 2 ^ 48 % 2 ^ 14 * 2 ^ 48))) ∧
  ∀ (s : State) (m la e pa w : Nat), MemInv s → tabFind s.net m = some (.quarantine la e) →
    stallAddr (s.launch la) e = some pa → arrives s m (pa / 2 ^ 48) = true → w = (s.word pa).toNat →
    ∃ t, exec (.quarantineMessage m) s = .next t ∧ MemoryBut s t pa 8 ∧
      (w / 2 ^ 63 = 0 → (t.word pa).toNat = 3 * 2 ^ 62 + w / 2 ^ 48 % 2 ^ 14 * 2 ^ 48 + (2 ^ 32 - 1)) ∧
      (w / 2 ^ 63 = 1 → t.word pa = s.word pa))

/-! ## The fabric -/

/-- A remote request that arrives is checked at its target and performs there as a local one would; an address that fails
its checks answers with the fault, marked as raised at the target; a control-space address goes on to the registers of the
module (R15, R20, R33, R35, R80, R162); a module that performs no RADD answers UNSUP (R169). Nothing happens while the packet cannot be delivered or an earlier request of the
slot to the word is on its way. -/
def Obligations.RemoteRequestsServed : Prop :=
  ∀ (s : State) (msg core seq k m : Nat) (r : Req), MemInv s → tabFind s.net msg = some (.remote core seq k m r) →
    (arrives s msg m = false ∨ remoteBefore s k m seq r = true → exec (.remoteRequestArrival msg) s = .next s) ∧
    (∀ w v g, arrives s msg m = true → remoteBefore s k m seq r = false → r.op = .amadd w v g →
      (s.module m).addRemote = false →
      ∃ t, exec (.remoteRequestArrival msg) s = .next t ∧ SameMemory s t ∧ Answered s t r .unsup) ∧
    (arrives s msg m = true → remoteBefore s k m seq r = false → (∀ w v, r.op ≠ .rel w v) → (∀ w, r.op ≠ .reln w) →
      r.persists = false → ((∃ w v g, r.op = .amadd w v g) → (s.module m).addRemote = true) →
      (∀ f, checkRemote s k m r.op r.pa = .fault f → ∃ t e, exec (.remoteRequestArrival msg) s = .next t ∧ SameMemory s t ∧
        Answered s t r (.fault e) ∧ e.cause = f.cause ∧ e.addr = m * 2 ^ 48 + r.pa ∧
        (f.cause ≠ 0x07 → e.info = f.info + 1024 + m * 65536)) ∧
      ∀ pa, checkRemote s k m r.op r.pa = .at pa →
        (regionOf (pa % 2 ^ 48) ≠ some .control → blockedAt s { r with pa := pa } = none →
          ∃ t tr, exec (.remoteRequestArrival msg) s = .next t ∧ Performed { r with pa := pa, trans := tr } s t) ∧
        (regionOf (pa % 2 ^ 48) = some .control → ∃ t, exec (.remoteRequestArrival msg) s = .next t ∧ SameMemory s t ∧
          tabFind t.net s.nextId = some (.req { r with pa := pa })))

/-- INJ_SEND reads the injection entry of the oldest INJ and sends its header and its LEN payload words; a poisoned entry
raises POISON, reserved header bits ILLEGAL, with the INFO of an address fault at the module it names. MESSAGE_ARRIVAL writes the message into the next receive entry, with its sender
in the header and 0 above LEN; a full queue answers NACK and the message comes again after the back-off; a core of another
launch, or without queues, gives the sender PROTECTION (R356 to R358). RCVP take sends the index of the oldest full entry
that nothing has claimed, or waits; at commit the entry is taken, and RCVP free empties it. -/
def Obligations.MessagesPass : Prop :=
  (∀ (s : State) (k num e node : Nat) (rest : List (Nat × Action)) (h : Word), (s.slot k).post = (num, .inj e node) :: rest →
    (s.slot k).accs = [] → Idle s →
    let a := poolBase (slotCore k) + queueBase (s.partition (slotCore k)) + 64 * e
    let len := h.toNat / 2 ^ 26 % 8
    h = s.word a →
    ((∀ n ≤ len, s.wordPoisoned (a + 8 * n) = false) → h.toNat / 2 ^ 29 % 8 = 0 →
      ∃ t, exec (.injSend k) s = .next t ∧ SameMemory s t ∧ t.slot k = { s.slot k with post := rest } ∧
        tabFind t.net s.nextId = some (.packet k (h.toNat % 2 ^ 13 * 8192 + h.toNat / 2 ^ 13 % 2 ^ 13) e
          (s.slot k).blk s.now 0 0 h
          ((List.range len).map fun n => s.word (a + 8 * (n + 1))))) ∧
    ((∀ n ≤ len, s.wordPoisoned (a + 8 * n) = false) → h.toNat / 2 ^ 29 % 8 ≠ 0 →
      ∃ t f, exec (.injSend k) s = .next t ∧ SameMemory s t ∧
        t.slot k = { s.slot k with post := rest, pending := (s.slot k).pending ++ [f] } ∧ f.cause = 0x01 ∧ f.origin = 1 ∧
        f.addr = e ∧ f.info = 1024 + h.toNat % 2 ^ 13 * 65536 ∧ f.own = some (s.slot k).blk) ∧
    ((∃ n ≤ len, s.wordPoisoned (a + 8 * n) = true) →
      ∃ t f, exec (.injSend k) s = .next t ∧ SameMemory s t ∧
        t.slot k = { s.slot k with post := rest, pending := (s.slot k).pending ++ [f] } ∧ f.cause = 0x07 ∧ f.origin = 1)) ∧
  (∀ (s : State) (msg k c e blk sentAt nacks nb : Nat) (h : Word) (ws : List Word), MemInv s →
    tabFind s.net msg = some (.packet k c e blk sentAt nacks nb h ws) → arrives s msg (c / 8192) = true →
    packetBefore s msg k c = false → nb ≤ s.now →
    let ours := sameLaunch s (s.core (slotCore k)).launch (s.core c).launch
    let next := (s.core c).rcvNext
    let refused (t : State) (reason : Nat) : Prop := SameMemory s t ∧ ∃ f, (t.slot k).pending = (s.slot k).pending ++ [f] ∧
      f.cause = 0x06 ∧ f.addr = e ∧ f.info = reason + 1024 + c / 8192 * 65536 ∧ f.origin = 1 ∧ f.own = some blk
    let again := s.now + min (64 * 2 ^ nacks) 4096
    (ours = false → ∃ t, exec (.messageArrival msg) s = .next t ∧ refused t 9) ∧
    (ours = true → hasQueues s c = false → ∃ t, exec (.messageArrival msg) s = .next t ∧ refused t 8) ∧
    (ours = true → hasQueues s c = true → tabGet (s.core c).rcv next .empty ≠ .empty →
      ∃ t, exec (.messageArrival msg) s = .next t ∧ SameMemory s t ∧
        (t.core (slotCore k)).nacks = (s.core (slotCore k)).nacks + 1 ∧
        tabFind t.net msg = some (.packet k c e blk again (nacks + 1) again h ws)) ∧
    (ours = true → hasQueues s c = true → tabGet (s.core c).rcv next .empty = .empty →
      ∃ t, exec (.messageArrival msg) s = .next t ∧ tabGet (t.core c).rcv next .empty = .full ∧
        (t.core c).rcvNext = (next + 1) % 32 ∧ (t.core c).rcvOrder = (s.core c).rcvOrder ++ [next] ∧
        t.word (receiveAt s c) = BitVec.ofNat 64 (h.toNat / 2 ^ 26 * 2 ^ 26 + slotCore k % 8192 * 2 ^ 13 + slotModule k) ∧
        (∀ n < 7, t.word (receiveAt s c + 8 * (n + 1)) = ws.getD n 0#64) ∧ MemoryBut s t (receiveAt s c) 64)) ∧
  (∀ (s : State) (p : Pred) (t u : Tgt) (o : Fired) (j : Inst), FiresClean s (.rcvpTake p t u) o → InstIs s o.slot j →
    let co := s.core (slotCore o.slot)
    ((∀ e ∈ co.rcvOrder, e ∈ co.rcvClaimed) → ∃ v, exec (.rcvpTake p t u) s = .next v ∧ OnlySlot o.slot s v ∧
      v.slot o.slot = { s.slot o.slot with inst := some (stand j o.node .waiting) }) ∧
    ∀ e before after, co.rcvOrder = before ++ e :: after → (∀ x ∈ before, x ∈ co.rcvClaimed) → e ∉ co.rcvClaimed →
      ∃ v, exec (.rcvpTake p t u) s = .next (sendTokens o.slot
          [(t, .data (BitVec.ofNat 64 e) false), (u, .data (BitVec.ofNat 64 e) false)] v) ∧ SameMemory s v ∧
        v.slot o.slot = { s.slot o.slot with inst := some ((stand j o.node .fired).putAction o.node (.rcvTaken e)) } ∧
        e ∈ (v.core (slotCore o.slot)).rcvClaimed) ∧
  (∀ (s : State) (k num e : Nat), Due s k num (.rcvTaken e) → ∃ t, actOne k num (.rcvTaken e) s = some t ∧
    SameMemory s t ∧ tabGet (t.core (slotCore k)).rcv e .empty = .taken) ∧
  ∀ (s : State) (k num e : Nat), Due s k num (.rcvFree e) → Rising (s.core (slotCore k)).rcv →
    (tabGet (s.core (slotCore k)).rcv e .empty = .taken → ∃ t, actOne k num (.rcvFree e) s = some t ∧ SameMemory s t ∧
      tabGet (t.core (slotCore k)).rcv e .empty = .empty) ∧
    (tabGet (s.core (slotCore k)).rcv e .empty ≠ .taken → ∃ t, actOne k num (.rcvFree e) s = some t ∧ Misused s t k)

/-- RANK sends the thread's rank among the instances below a level, their number, or its index at the level; on the element
level its element; a level that the launch does not have raises ILLEGAL (R360). LINK_STATE_CHANGE sets the lanes of a port
that exists, 0 to 8 of them, and counts a retraining (log 138); no packet is lost; anything else changes nothing (R165). -/
def Obligations.RanksAndLinks : Prop :=
  (∀ (s : State) (p : Pred) (t u : Tgt) (m : RankMode) (v : BitVec 3) (o : Fired), Fires s (.rank p t u m v) o →
    let sl := s.slot o.slot
    let l := s.launch sl.launch
    let n := v.toNat
    let sends (x : Word) : Prop := exec (.rank p t u m v) s = .next (finish (.rank p t u m v) o (.data x false) s)
    let illegal : Prop := exec (.rank p t u m v) s = .next (raise o.slot { cause := 0x01, addr := 0, info := o.node * 65536 } s)
    (sl.launch = 0 ∨ l.nlevm1 < n → illegal) ∧
    (sl.launch ≠ 0 → n ≤ l.nlevm1 → levelDomain (l.level n) ≠ 7 → match m with
      | .rank => sends (BitVec.ofNat 64 ((levelsBelow l n).foldl (fun r q => r * levelCount (l.level q) + sl.ranks.getD q 0) 0))
      | .size => sends (BitVec.ofNat 64 ((levelsBelow l n).foldl (fun r q => r * levelCount (l.level q)) 1))
      | .index => sends (BitVec.ofNat 64 (sl.ranks.getD n 0))) ∧
    (sl.launch ≠ 0 → n ≤ l.nlevm1 → levelDomain (l.level n) = 7 → match m with
      | .index => (∀ x e, sl.task = some x → x.element = some e → sends (BitVec.ofNat 64 e)) ∧
          ((sl.task = none ∨ ∃ x, sl.task = some x ∧ x.element = none) → sends (BitVec.allOnes 64))
      | _ => illegal)) ∧
  (∀ (s : State) (link lanes : Nat),
    (lanes ≤ 8 → link % 64 ≠ 31 → link % 64 < 48 → ∃ t, exec (.linkStateChange link lanes) s = .next t ∧ SameMemory s t ∧ t.net = s.net ∧
      tabGet (t.module (link / 64)).links (link % 64) {} =
        { lanes := lanes, retrains := (tabGet (s.module (link / 64)).links (link % 64) {}).retrains + 1 } ∧
      ∀ p, p ≠ link % 64 → tabGet (t.module (link / 64)).links p {} = tabGet (s.module (link / 64)).links p {}) ∧
    (8 < lanes ∨ link % 64 = 31 ∨ 48 ≤ link % 64 → exec (.linkStateChange link lanes) s = .next s))

/-- COLL joins the collective of its level at commit, its register pending, and on a level of which the thread is no live
member it raises ILLEGAL (R361). The tree of R170 pairs neighbours and carries an odd last value up: sums of S64 values are
their sum, a minimum is the least of them, and the five values of the spec's example give its result. COLLECTIVE_RESULT
writes the member's register, poisoned on an error, which also pends a record of POISON (its fields are the model's reading,
log 140), and counts the number on TL6 (R127, R140, R390, R393). -/
def Obligations.CollectivesReduce : Prop :=
  (∀ (s : State) (p : Pred) (t : Tgt) (rm : Bool) (y : CollTy) (op : CollOp) (v : BitVec 3) (o : Fired) (j : Inst),
    FiresClean s (.coll p t rm y op v) o → InstIs s o.slot j →
    let mode : Rounding := if rm then fmodeOf j.fpc0 .fpc else .rne
    (s.phaseOf o.slot v.toNat = none →
      exec (.coll p t rm y op v) s = .next (raise o.slot { cause := 0x01, addr := 0, info := o.node * 65536 } s)) ∧
    (s.phaseOf o.slot v.toNat ≠ none → t = .none → ∃ w, exec (.coll p t rm y op v) s = .next w ∧ OnlySlot o.slot s w ∧
      w.slot o.slot = { s.slot o.slot with
        inst := some (stand (j.putAction o.node (.coll v.toNat y op mode o.l 0)) o.node .fired) }) ∧
    ∀ (c : BitVec 5) (x : Node) (q : Pred) (r : BitVec 6), s.phaseOf o.slot v.toNat ≠ none → t = .to .left c →
      o.node ≠ c.toNat → j.nodes[c.toNat]? = some x → x.instr = some (.put q r) → x.left = none → x.st = .idle →
      j.hasReg r.toNat = false → (tabGet j.regs0 r.toNat {}).pending = false →
      ∃ w i, exec (.coll p t rm y op v) s = .next w ∧ OnlySlot o.slot s w ∧ InstIs w o.slot i ∧
        i.pends = j.pends ++ [r.toNat] ∧ i.puts = j.puts ∧
        tabFind i.actions o.node = some (.coll v.toNat y op mode o.l r.toNat) ∧
        ∃ z, i.nodes[c.toNat]? = some z ∧ z.st = .fired) ∧
  (∀ vs : List Word, vs ≠ [] → vs.length ≤ 2 ^ 32 →
    collTree (collStep .s64 .add .rne) 32 vs = vs.sum ∧
    collTree (collStep .s64 .min .rne) 32 vs ∈ vs ∧ ∀ v ∈ vs, (collTree (collStep .s64 .min .rne) 32 vs).sle v = true) ∧
  collTree (collStep .e8m23 .add .rne) 32 [0x3F800000#64, 0x33800000#64, 0x33800000#64, 0x33800000#64, 0x33800000#64] =
    0x3F800002#64 ∧
  ∀ (s : State) (msg id tag k reg : Nat) (x : Collective) (v : Contribution), tabFind s.net msg = some (.collective id tag) →
    tabFind s.collectives id = some x → collHolder s tag = some (k, reg) → k < 2 ^ 64 → reg ≠ 0 →
    ((s.slot k).reg reg).pending = true → v ∈ x.vals → v.tag = tag → (∀ w ∈ x.vals, w.tag = tag → w = v) →
    ∃ t, exec (.collectiveResult msg) s = .next t ∧ SameMemory s t ∧ (t.slot k).reg reg = { val := x.result, poison := x.error } ∧
      (t.slot k).pending = (s.slot k).pending ++ (if x.error then [{ cause := 0x07, addr := reg, info := 6 * 16 + 256 + reg * 2 ^ 16, origin := 2, seq := v.number, block := 6 }] else []) ∧
      (v.number = tabGet (s.core v.core).timeline 6 0 + 1 → v.number ≤ tabGet (t.core v.core).timeline 6 0) ∧
      (t.core v.core).tlerr = if x.error then (s.core v.core).tlerr ||| 64#64 else (s.core v.core).tlerr

/-! ## Traps and the system level -/

/-- TRAP_TAKE: a thread at a block boundary takes one pending trap, in the order of R393. Its trap registers hold the
record, with the place before which it stands; it is parked for a replayable record, and stopped for any other; and the
record goes to the queue of its die. No general register and no memory changes (R390, R392, R393, R399). Elsewhere nothing
happens. TRAP_RECORD_QUEUE: a record that finds room is written at TAIL, TAIL advances, and TRAP.VEC holds its position; a
replayable record is queued only below 1,016 and is else dropped; a fatal one takes any of 1,024 entries, else the fatal
latch, and is else lost; the counters follow (R392, R394 to R397). When the record of a task's fatal trap other than SOFTWARE
is queued, its S hold is released, its element's word becomes QUARANTINED, its entry takes ST 100, and its slot is free (R214,
R399). -/
def Obligations.TrapsTaken : Prop :=
  (∀ (s : State) (k : Nat),
    let sl := s.slot k
    (∀ t, TakenFirst sl t → sl.inst = none → sl.life ≠ .free → sl.life ≠ .killed → sl.halt = .none → sl.record = none →
      let ws := recordOf k sl t
      ∃ v, exec (.trapTake k) s = .next v ∧ SameMemory s v ∧ (∀ n, n ≠ k → v.slot n = s.slot n) ∧
        v.slot k = { sl with
          pending := sl.pending.erase t
          record := some t
          halt := if t.replay then .replay false else if t.cause = 0x09 then .software else .fatal
          trapCause := ws.getD 0 0#64, trapAddr := ws.getD 1 0#64, trapBlock := ws.getD 2 0#64
          trapInfo := ws.getD 3 0#64 } ∧
        tabFind v.net s.nextId = some (.record k (k / 16 / 2048) ws t.replay true)) ∧
    (sl.inst ≠ none ∨ sl.life = .free ∨ sl.life = .killed ∨ sl.halt ≠ .none ∨ sl.record ≠ none ∨ sl.pending = [] →
      exec (.trapTake k) s = .next s)) ∧
  (∀ (s : State) (m k d : Nat) (ws : List Word) (replay : Bool), MemInv s → RecordReady s m k d ws replay → ws.length = 4 →
    ws = [(s.slot k).trapCause, (s.slot k).trapAddr, (s.slot k).trapBlock, (s.slot k).trapInfo] →
    let die := s.die d
    let on : Prop := die.tqBase.toNat % 2 = 1
    let room : Prop := on ∧ die.occupancy < (if replay then 1016 else 1024)
    ∃ t, exec (.trapRecordQueue m) s = .next t ∧ (t.slot k).record = none ∧
      (room → (∀ i < 4, t.word (ringPlace s d die.tqTail + 8 * i) = ws.getD i 0#64) ∧
        MemoryBut s t (ringPlace s d die.tqTail) 32 ∧ (t.die d).tqTail = (die.tqTail + 1) % 2 ^ 32 ∧
        (t.slot k).trapVec = BitVec.ofNat 64 (die.tqTail % 1024)) ∧
      (¬room → SameMemory s t ∧ (t.die d).tqTail = die.tqTail) ∧
      (¬room → replay = true → (t.die d).dropped = min 0xFFFF (die.dropped + 1) ∧
        (t.slot k).trapVec = BitVec.ofNat 64 (2 ^ 62)) ∧
      (¬room → replay = false → die.latched = false → (t.die d).latched = true ∧ (t.die d).mchk = true ∧ (t.die d).latch = ws ∧
        (t.slot k).trapVec = BitVec.ofNat 64 (2 * 2 ^ 62)) ∧
      (¬room → replay = false → die.latched = true → (t.die d).latch = die.latch ∧ (t.die d).lost = min 0xFFFF (die.lost + 1) ∧
        (t.slot k).trapVec = BitVec.ofNat 64 (3 * 2 ^ 62))) ∧
  ∀ (s : State) (m k d v u pv pu : Nat) (ws : List Word) (f : Trap) (x : TaskInfo), MemInv s →
    tabFind s.net m = some (.record k d ws false true) → (s.slot k).record = some f → f.replay = false → f.cause ≠ 0x09 →
    (s.slot k).accs = [] → (s.slot k).post = [] → (s.slot k).members = [] → (s.slot k).handlerFile = none → Idle s →
    (s.slot k).task = some x → x.colour = false → x.element = some v → x.held = [v, u] → u ≠ v → x.list < 2 ^ 80 →
    let l := s.launch (s.slot k).launch
    let ring := ringPlace s d (s.die d).tqTail
    let place := x.list + 32 * x.entry
    stallAddr l v = some pv → stallAddr l u = some pu → pu / 2 ^ 48 = k / 16 / 8192 →
    [(pv, 8), (pu, 8), (place, 24), (ring, 32)].Pairwise (fun a b => a.1 + a.2 ≤ b.1 ∨ b.1 + b.2 ≤ a.1) →
    let word := stallParts (s.word pv).toNat
    let other := stallParts (s.word pu).toNat
    ∃ t, exec (.trapRecordQueue m) s = .next t ∧ (t.slot k).life = .free ∧ (t.slot k).task = none ∧
      (∀ r, (t.slot k).reg r = { (s.slot k).reg r with pending := false }) ∧
      (word.1 = 2 → t.word pv = BitVec.ofNat 64 (stallWord 3 word.2.1 0 word.2.2.2)) ∧
      (other.1 = 1 → 0 < other.2.1 → t.word pu = BitVec.ofNat 64
        (stallWord (if other.2.1 = 1 then 0 else 1) (other.2.1 - 1) other.2.2.1 other.2.2.2)) ∧
      EntryBecomes t x.list x.entry (readEntry s x.list x.entry) 4 (readEntry s x.list x.entry).prio
        (readEntry s x.list x.entry).count

/-- HANDLER_THREAD_START: where TQ.HANDLER.EN is set and records stand in the queue, the service slot of the handler core
starts at ENTRY with g1 the occupancy and every other register 0, its register file that of its core at the start (R398); else
nothing happens. TQ_BASE sets the ring and EN, and one that sets EN wakes the slots whose records were dropped, while the module
runs or is frozen (R395, R396, R408). TRQPOP claims the oldest record that nothing
has claimed, queues its bytes for the pail, and sends the number of records present, or 0; at commit HEAD advances by one
(R388, R395). KREG check sends 1 where the checksum of the entry is right and else 0 (R389). -/
def Obligations.HandlersRun : Prop :=
  (∀ (s : State) (d : Nat),
    let x := s.die d
    let k := (d * 2048 + x.tqHandler.toNat / 2 ^ 53) * 16 + 15
    let starts : Prop := x.tqHandler.toNat % 2 = 1 ∧ x.occupancy ≠ 0 ∧ x.handler = false ∧ (s.module (d / 4)).boot = .running ∧
      (s.slot k).life = .free
    (starts → ∃ t, exec (.handlerThreadStart d) s = .next t ∧ SameMemory s t ∧ (t.die d).handler = true ∧
      (t.slot k).life = .fetch ∧ (t.slot k).next = x.tqHandler.toNat % 2 ^ 48 / 4 * 4 ∧
      (t.slot k).reg 1 = { val := BitVec.ofNat 64 x.occupancy } ∧ (∀ r, r ≠ 1 → (t.slot k).reg r = {}) ∧ (t.slot k).task = none ∧
      (t.slot k).handlerFile = some (s.fileSize (k / 16))) ∧
    (¬starts → exec (.handlerThreadStart d) s = .next s)) ∧
  (∀ (s : State) (d val k : Nat), k / 16 / 2048 = d →
    (answers s (d / 4) = false → exec (.tqBase d val) s = .next s) ∧
    (answers s (d / 4) = true → ∃ t, exec (.tqBase d val) s = .next t ∧ SameMemory s t ∧
      (t.die d).tqBase = BitVec.ofNat 64 val &&& 0xFFFFFFFF8001#64 ∧
      ((∃ sl, (k, sl) ∈ s.slots) → (s.slot k).halt = .replay true →
        (t.slot k).halt = if val % 2 = 1 ∧ (s.die d).occupancy ≤ 512 then .none else .replay true))) ∧
  (∀ (s : State) (p : Pred) (t u : Tgt) (latch : Bool) (o : Fired) (j : Inst), FiresClean s (.trqpop p t u latch) o →
    InstIs s o.slot j → systemSlot o.slot = true → pailCheck s o.slot o.l.toNat [(o.l.toNat, 32)] true = none →
    o.l.toNat % 32 = 0 →
    let d := slotCore o.slot / 2048
    let die := s.die d
    let pail := poolBase (slotCore o.slot) + o.l.toNat
    let sends (n : Nat) (v : State) : Prop := exec (.trqpop p t u latch) s =
      .next (finish (.trqpop p t u latch) o (.data (BitVec.ofNat 64 n) false) v)
    (latch = true → (die.latched = false ∨ die.latchClaim = true) → sends 0 s) ∧
    (latch = true → die.latched = true → die.latchClaim = false → die.latch.length = 4 → ∃ v accs, sends 1 v ∧
      v.slot o.slot = { s.slot o.slot with
        accs := (s.slot o.slot).accs ++ accs, inst := some (j.putAction o.node (.trqpop o.l.toNat d true 0)) } ∧
      Relaxed j accs ∧ (∀ i < 4, GivesNumber accs (pail + 8 * i) 8 (die.latch.getD i 0#64).toNat) ∧
      (v.die d).latchClaim = true ∧ SameMemory s v) ∧
    (latch = false → Idle s → die.claimable = none → sends 0 s) ∧
    (latch = false → Idle s → ∀ pos, die.claimable = some pos → ∃ v accs, sends die.occupancy v ∧
      v.slot o.slot = { s.slot o.slot with
        accs := (s.slot o.slot).accs ++ accs, inst := some (j.putAction o.node (.trqpop o.l.toNat d false pos)) } ∧
      Relaxed j accs ∧ GivesNumber accs pail 32 (s.readN (ringPlace s d pos) 32) ∧ pos ∈ (v.die d).claims ∧ SameMemory s v ∧
      (die.removed = [] → die.claims = [] → die.tqHead < 2 ^ 32 → pos = die.tqHead))) ∧
  (∀ (s : State) (k num a d pos : Nat) (latch : Bool), Due s k num (.trqpop a d latch pos) →
    ∃ t, actOne k num (.trqpop a d latch pos) s = some t ∧ SameMemory s t ∧
      (latch = true → (t.die d).latched = false) ∧
      (latch = false → (t.die d).tqHead = ((s.die d).tqHead + 1) % 2 ^ 32)) ∧
  ∀ (s : State) (p : Pred) (t u : Tgt) (o : Fired) (j : Inst) (pa : Nat), FiresClean s (.kregCheck p t u) o →
    InstIs s o.slot j → systemSlot o.slot = true → Quiet s o.slot →
    checkWalk s { core := slotCore o.slot, sys := true, va := o.l.toNat, size := 64, use := .keyRead } = .at pa →
    ((∀ n < 8, s.wordPoisoned (pa + 8 * n) = false) → exec (.kregCheck p t u) s = .next (finish (.kregCheck p t u) o
      (.data (if s.word (pa + 56) = crcOf (s.bytesAt pa 56) then 1#64 else 0#64) false) s)) ∧
    ((∃ n < 8, s.wordPoisoned (pa + 8 * n) = true) → ∃ f, exec (.kregCheck p t u) s = .next (raise o.slot f s) ∧
      f.cause = 0x07)

/-! ## Power, time, scrubbing, the expert level -/

/-- GRANT_PERIOD: every 10 µs the requests made so far come into force, each cluster has its budget, each
core the smaller of its request and an equal share of it, and the remainder goes to the unmet requests in rising order; no
cluster is granted more than its cap, and the die no more than its own (R412 to R414; how the division rounds is log 118); before
that nothing happens. THERMAL_THROTTLE lowers the cap of a die, or ends the throttling (R416). TIME_BEACON sets a module's fabric
time to the root's (R206). PATROL_SCRUB adds a corrected error to the counter of the structure that it struck: pool, banks, scale
memory or tier-2 (R58, R419; no counter is given for another structure, log 42), and poisons the unit of an uncorrectable one
(R58, R59). EXPERT_LEVEL_ENABLE lists a function for a launch record (R417); function 3 + 8 × (1 + k) pins path entry k for it
(R160; the number is log 137). CONTROL_REGISTER_WRITE: a register of control space that may be written reads as what was written in
its writable bits, a read-only one keeps its value, and an address outside control space or not aligned changes nothing; nor does
one while the module has not booted, as no link is open (R408)
(R15, R160, R195, R395, R402, R404, R413). WATCHDOG_RESTART restarts the count (R404). LQ_DOOR appends a record address to a
queue that has room, else sets OVF; LQ_RING sets the ring and starts COUNT at 0 (R195). RESYNC_GO with GO writes a summary
into its buffer and nowhere else: the header names the module and says BUSY while it is frozen; that the summary is whole in
one step, so that GO reads 0 after it, is log 116 (R418, R419). -/
def Obligations.PowerAndControlSpace : Prop :=
  ((∀ (s : State) (d : Nat),
    let m := s.module (d / 4)
    let due : Prop := (m.boot = .running ∨ m.boot = .frozen) ∧ ((s.die d).periods + 1) * 40000 ≤ s.now - m.bootAt
    (¬due → exec (.grantPeriod d) s = .next s) ∧
    (due → ∃ t, exec (.grantPeriod d) s = .next t ∧ SameMemory s t ∧ (t.die d).periods = (s.die d).periods + 1 ∧
      (∀ c, c / 2048 = d → (t.core c).pwrReq = (s.core c).pwrNext ∧ (t.core c).pwrGrant ≤ (s.core c).pwrNext) ∧
      (∀ cl, cl / 128 = d → clusterGrant t cl ≤ min 4080 ((s.cluster cl).ccap.toNat % 2 ^ 16)) ∧
      (∃ budget, BudgetsOf s d budget ∧ ∀ i < 128, SharesOut s t (d * 128 + i) (budget (d * 128 + i))) ∧
      dieGrant t d ≤ min 212500 ((s.die d).dcap.toNat % 2 ^ 18) ∧
      (∀ cap, (s.die d).throttle = some cap → dieGrant t d ≤ cap) ∧
      ∀ c, c / 2048 ≠ d → t.core c = s.core c)) ∧
  (∀ (s : State) (d cap : Nat), ∃ t, exec (.thermalThrottle d cap) s = .next t ∧ SameMemory s t ∧
    t.die d = { s.die d with
      throttle := if cap < min 212500 ((s.die d).dcap.toNat % 2 ^ 18) then some cap else none }) ∧
  (∀ (s : State) (m root : Nat), (delivers s root m = false → exec (.timeBeacon m root) s = .next s) ∧
    (delivers s root m = true → ∃ t, exec (.timeBeacon m root) s = .next t ∧ SameMemory s t ∧
      t.module m = { s.module m with fabricTime := (s.module root).fabricTime })) ∧
  (∀ (s : State) (u : Nat), exec (.patrolScrub u 0) s = .next s ∧
    (∃ t, exec (.patrolScrub u 1) s = .next t ∧ SameMemory s t ∧
      (t.module (u * 4 / 2 ^ 48)).ueCount = (s.module (u * 4 / 2 ^ 48)).ueCount ∧
      ∀ n, (t.module (u * 4 / 2 ^ 48)).ceCounts.getD n 0 = (s.module (u * 4 / 2 ^ 48)).ceCounts.getD n 0 +
        (if countedAs (u * 4) n = true ∧ n < (s.module (u * 4 / 2 ^ 48)).ceCounts.length then 1 else 0)) ∧
    (registerAt s (u * 4) = none → s.unitPoisoned (u * 4) = false → ∃ t, exec (.patrolScrub u 2) s = .next t ∧ t.unitPoisoned (u * 4) = true ∧
      t.mem = s.mem ∧ t.empties = s.empties ∧
      (t.module (u * 4 / 2 ^ 48)).ueCount = (s.module (u * 4 / 2 ^ 48)).ueCount + 1)) ∧
  (∀ (s : State) (u k r : Nat), registerAt s (u * 4) = some (k, r) → r ≠ 0 → ((s.slot k).reg r).poison = false →
    ∃ t, exec (.patrolScrub u 2) s = .next t ∧ SameMemory s t ∧ (t.slot k).reg r = { (s.slot k).reg r with poison := true } ∧
      (t.module (u * 4 / 2 ^ 48)).ueCount = (s.module (u * 4 / 2 ^ 48)).ueCount + 1) ∧
  ∀ (s : State) (m la n : Nat), (4 < n → n % 8 ≠ 3 ∨ 40 ≤ n → exec (.expertLevelEnable m la n) s = .next s) ∧
    (n ≤ 4 → ∃ t, exec (.expertLevelEnable m la n) s = .next t ∧ SameMemory s t ∧ (la % 2 ^ 48, n) ∈ (t.module m).expert ∧
      ∀ x ∈ (s.module m).expert, x ∈ (t.module m).expert) ∧
    ∀ e < 4, ∃ t, exec (.expertLevelEnable m la (3 + 8 * (1 + e))) s = .next t ∧ SameMemory s t ∧
      (la % 2 ^ 48, 3) ∈ (t.module m).expert ∧ tabFind (t.module m).pins (la % 2 ^ 48) = some e) ∧
  ((∀ (s : State) (m off val : Nat) (mask : Word), off % 8 = 0 → answers s m = true →
    spaceMask (expertPower s m) off = some mask →
    ∃ t, exec (.controlRegisterWrite (m * 2 ^ 48 + (0xF0000000000 + off)) val) s = .next t ∧ SameMemory s t ∧
      controlRead t m (0xF0000000000 + off) = BitVec.ofNat 64 val &&& mask) ∧
  (∀ (s : State) (m off val : Nat), off % 8 = 0 → spaceFixed off →
    exec (.controlRegisterWrite (m * 2 ^ 48 + (0xF0000000000 + off)) val) s = .next s) ∧
  (∀ (s : State) (m val : Nat),
    exec (.controlRegisterWrite (m * 2 ^ 48 + 0xF0000400000) val) s = exec (.resyncGo m (val % 2 ^ 64)) s) ∧
  (∀ (s : State) (a val : Nat), a % 2 ^ 48 / 2 ^ 40 ≠ 0xF ∨ a % 8 ≠ 0 ∨ answers s (a / 2 ^ 48) = false →
    exec (.controlRegisterWrite a val) s = .next s) ∧
  (∀ (s : State) (m val : Nat), answers s m = true → ∃ t, exec (.watchdogRestart m val) s = .next t ∧ SameMemory s t ∧
    t.module m = { s.module m with watchAt := s.now }) ∧
  (∀ (s : State) (m q a : Nat), (64 ≤ q ∨ answers s m = false → exec (.lqDoor m q a) s = .next s ∧
      exec (.lqRing m q a) s = .next s) ∧
    (q < 64 → answers s m = true →
      let old := tabGet (s.module m).queues q {}
      (a % 128 = 0 → 0x20000000000 ≤ a → a < 0x40000000000 → old.records.length < 256 →
        ∃ t, exec (.lqDoor m q a) s = .next t ∧ SameMemory s t ∧
          tabGet (t.module m).queues q {} = { old with records := old.records ++ [a] }) ∧
      (a % 128 ≠ 0 ∨ a < 0x20000000000 ∨ 0x40000000000 ≤ a ∨ 256 ≤ old.records.length →
        ∃ t, exec (.lqDoor m q a) s = .next t ∧ SameMemory s t ∧ tabGet (t.module m).queues q {} = { old with ovf := true }) ∧
      ∃ t, exec (.lqRing m q a) s = .next t ∧ SameMemory s t ∧ tabGet (t.module m).queues q {} =
        { old with ring := BitVec.ofNat 64 a &&& 0xF000FFFFFFFFFFF0#64, cpos := 0 })) ∧
  ∀ (s : State) (m val : Nat), MemInv s → Idle s → (answers s m = false → exec (.resyncGo m val) s = .next s) ∧
    (answers s m = true →
    let buf := val / 2 ^ 12 % 2 ^ 36 * 2 ^ 12
    let room := val / 2 ^ 48 % 2 ^ 16 * 4096
    let a := m * 2 ^ 48 + buf
    let written : Word := BitVec.ofNat 64 val &&& 0xFFFFFFFFFFFFF000#64
    (val % 2 = 0 ∨ room = 0 → ∃ t, exec (.resyncGo m val) s = .next t ∧ SameMemory s t ∧
      hostRead t m 0xF0000400000 = written) ∧
    (val % 2 = 1 → room ≠ 0 → regionOf buf = some .tier2 ∨ regionOf buf = some .host →
      ∃ t, exec (.resyncGo m val) s = .next t ∧ hostRead t m 0xF0000400000 = written ∧
        MemoryBut s t a room ∧ t.word (a + 8) = BitVec.ofNat 64 m ∧
        t.word (a + 16) = BitVec.ofNat 64 (s.now - (s.module m).bootAt) ∧ t.word (a + 24) = t.word (a + 16) ∧
        ((s.module m).boot = .frozen ↔ (t.word a).toNat / 2 ^ 62 = 2))))

/-! ## Boot, freeze, re-adoption -/

/-- COLD_BOOT of a populated module that does not run: its banks hold 0, full, the image that the boot server gives stands in
tier-2 memory at its LOAD, and where it is verified and not rolled back the module runs, entered at ENTRY; a stage that fails
leaves it failed there, an image that cannot be transferred at stage 4 (when that is so is log 119), one that is not verified at
stage 5, one that is rolled back at stage 6; a module that runs or is not populated is left alone (R48, R408 to R410). A module whose watchdog expires, or whose kernel
reports a crash, freezes: instances that have not completed are discarded (R404, R405). FROZEN_ANNOUNCEMENT and
THAWED_ANNOUNCEMENT tell a peer; WARM_REBOOT verifies the image again, which nothing may have
written to, and enters it; RE_ADOPTION lets the module run again, the timers
that stood still going on where they stood, and kills a launch whose registry entry does not pass (R406, R407, R411).
MODULE_DECLARED_LOST, 2 s after FROZEN, releases the lost module's holds (R168). -/
def Obligations.ModulesBootAndFreeze : Prop :=
  (∀ (s : State) (m : Nat), MemInv s →
    let x := s.module m
    let off : Prop := x.populated = true ∧ x.boot ≠ .running ∧ x.boot ≠ .frozen
    (¬off → exec (.coldBoot m) s = .next s) ∧
    let image := m * 2 ^ 48 + 0x20000000000 + offeredLoad x.bootImage
    let kept (t : State) (n : Nat) : Prop :=
      (∀ a, m * 2 ^ 48 + 0x10000000000 ≤ a → a < m * 2 ^ 48 + 0x10010000000 →
        t.byte a = 0#8 ∧ t.isFull a = true ∧ t.wordPoisoned a = false) ∧
      ∀ a, a < m * 2 ^ 48 + 0x10000000000 ∨ m * 2 ^ 48 + 0x10010000000 ≤ a → a < image ∨ image + n ≤ a → t.byte a = s.byte a
    (off → x.bootFaults = [] → transferred x.bootImage = true → ∃ t, exec (.coldBoot m) s = .next t ∧
      imageAddr t m = image ∧ t.bytesAt image x.bootImage.length = x.bootImage ∧ kept t x.bootImage.length ∧
      (imageVerified t m = true → imageFresh t m = true → (t.module m).boot = .running ∧ (t.module m).bootAt = s.now ∧
        (t.module m).entered = image % 2 ^ 48 + 0x1F0 + (t.word (image + 0x20)).toNat) ∧
      (imageVerified t m = true → imageFresh t m = false → (t.module m).boot = .failed 6) ∧
      (imageVerified t m = false → (t.module m).boot = .failed 5)) ∧
    (off → x.bootFaults = [] → transferred x.bootImage = false →
      ∃ t, exec (.coldBoot m) s = .next t ∧ (t.module m).boot = .failed 4 ∧ kept t 0) ∧
    (off → ∀ n, 1 ≤ n → n ≤ 5 → n ∈ x.bootFaults → (∀ k, k < n → k ∉ x.bootFaults) →
      (n = 5 → transferred x.bootImage = true) →
      ∃ t, exec (.coldBoot m) s = .next t ∧ (t.module m).boot = .failed n)) ∧
  ((∀ (s : State) (m : Nat),
    let x := s.module m
    let limit := max 10 (x.watchdog.toNat % 2 ^ 16) * 4000000
    (x.boot = .running → (x.watchdog.getLsbD 63 = true → x.watchAt + limit ≤ s.now →
        ∃ t, exec (.watchdogExpiry m) s = .next t ∧ Froze s t m) ∧
      ∃ t, exec (.kernelCrashReport m) s = .next t ∧ Froze s t m) ∧
    (x.watchdog.getLsbD 63 = false ∨ s.now < x.watchAt + limit → exec (.watchdogExpiry m) s = .next s) ∧
    (x.boot ≠ .running → exec (.kernelCrashReport m) s = .next s)) ∧
  (∀ (s : State) (m p : Nat), Rising (s.module p).frozenPeers →
    ((s.module m).boot = .frozen → slotsParked s m = true → m ≠ p → delivers s m p = true →
      tabFind (s.module p).frozenPeers m = none → ∃ t, exec (.frozenAnnouncement m p) s = .next t ∧ SameMemory s t ∧
        tabFind (t.module p).frozenPeers m = some s.now) ∧
    ((s.module m).boot ≠ .frozen ∨ slotsParked s m = false → exec (.frozenAnnouncement m p) s = .next s) ∧
    ((s.module m).boot = .running → delivers s m p = true → ∃ t, exec (.thawedAnnouncement m p) s = .next t ∧
      SameMemory s t ∧ tabFind (t.module p).frozenPeers m = none) ∧
    ((s.module m).boot ≠ .running → exec (.thawedAnnouncement m p) s = .next s)) ∧
  (∀ (s : State) (m : Nat),
    let may : Prop := (s.module m).boot = .frozen ∧ slotsParked s m = true
    (may → ∃ t, exec (.warmReboot m) s = .next t ∧ SameMemory s t ∧ (t.module m).boot = .frozen ∧
      let passes : Prop := imageStands s m = true ∧ imageVerified s m = true ∧ imageFresh s m = true
      ((t.module m).rebooted = true ↔ (s.module m).rebooted = true ∨ passes) ∧
      (passes → (t.module m).entered = imageAddr s m % 2 ^ 48 + 0x1F0 + (s.word (imageAddr s m + 0x20)).toNat)) ∧
    (¬may → exec (.warmReboot m) s = .next s)) ∧
  (∀ (s : State) (m : Nat),
    let x := s.module m
    let may : Prop := x.boot = .frozen ∧ x.rebooted = true
    (¬may → exec (.reAdoption m) s = .next s) ∧
    (may → (∀ p ∈ s.launches, p.1 / 2 ^ 48 = m → p.2.running = true → reAdopted s p.1 p.2 = true) →
      ∃ t, exec (.reAdoption m) s = .next t ∧ SameMemory s t ∧ (t.module m).boot = .running ∧ (t.module m).watchAt = s.now ∧
        ∀ k y, k / 16 / 8192 = m → (s.slot k).task = some y →
          (t.slot k).task = some { y with start := y.start + (s.now - x.frozenAt) }) ∧
    (may → ∀ la l, s.launches = [(la, l)] → la / 2 ^ 48 = m → l.running = true → reAdopted s la l = false →
      ∃ t, exec (.reAdoption m) s = .next t ∧ (t.module m).boot = .running ∧ (t.launch la).killed = true ∧
        ∀ k sl, (k, sl) ∈ s.slots → sl.launch = la → k % 16 < 14 → sl.life ≠ .free → sl.life ≠ .killed → Rising s.slots →
          (t.slot k).life = .killed)) ∧
  ∀ (s : State) (m p since : Nat), m < 8192 → Rising s.words → Rising (s.module p).frozenPeers →
    tabFind (s.module p).frozenPeers m = some since →
    (s.now < since + 8000000000 → exec (.moduleDeclaredLost m p) s = .next s) ∧
    (since + 8000000000 ≤ s.now → ∃ t, exec (.moduleDeclaredLost m p) s = .next t ∧ m ∈ (t.module p).lostModules ∧
      tabFind (t.module p).frozenPeers m = none ∧
      ∀ w k i a, (t.wordQ w).held = some (k, i, a) → k / 16 / 8192 ≠ m))

/-! ## Launches -/

/-- LAUNCH_DECISION takes one record of a module that runs: of a class that is not empty, the highest but for every eighth
decision; it refuses the record with its WHY in LSTAT and the completion entry, LSTAT being left alone where the record runs
already; or it takes units and sends START (R41, R185 to R187, R195 to R197, R199). Spread takes units one stride apart, and
pack free units in rising order (R186; where either begins is log 101). The thread of an instance stands in the first slot of
its unit (R188). The order of the checks is log 99. -/
def Obligations.LaunchesDecided : Prop :=
  (∀ (s : State) (m : Nat), (s.module m).boot ≠ .running ∨ (∀ q < 64, (tabGet (s.module m).queues q {}).records = []) →
    exec (.launchDecision m) s = .next s) ∧
  (∀ (s : State) (m c : Nat), (s.module m).decisions % 8 ≠ 7 → c < 4 →
    (∃ q, q / 16 = c ∧ (tabGet (s.module m).queues q {}).records ≠ []) →
    (∀ q, q / 16 < c → (tabGet (s.module m).queues q {}).records = []) →
    ∃ t, exec (.launchDecision m) s = .next t ∧
      ∀ q, q / 16 ≠ c → tabGet (t.module m).queues q {} = tabGet (s.module m).queues q {}) ∧
  (∀ (s : State) (m q addr : Nat) (rest : List Nat), MemInv s → Idle s → m < 8192 → addr < 2 ^ 48 →
    (s.module m).boot = .running → q < 64 → (tabGet (s.module m).queues q {}).records = addr :: rest →
    (∀ p < 64, p ≠ q → (tabGet (s.module m).queues p {}).records = []) →
    let la := m * 2 ^ 48 + addr
    let old := tabGet (s.module m).queues q {}
    let r := (List.range 16).map fun i => s.word (la + 8 * i)
    let runs : Prop := (tabFind s.launches la).isSome = true ∨ (s.word (la + 0x38)).toNat / 2 ^ 60 = 1
    let poisoned : Prop := ∃ i < 16, s.wordPoisoned (la + 8 * i) = true
    let ring := old.ring.toNat / 2 ^ 4 % 2 ^ 44 * 16
    let place := m * 2 ^ 48 + (ring + 16 * (old.cpos % 2 ^ (old.ring.toNat / 2 ^ 60)))
    let refuses (why : Nat) : Prop := ∃ t, exec (.launchDecision m) s = .next t ∧
      (t.module m).decisions = (s.module m).decisions + 1 ∧
      (NoRing s m q → tabGet (t.module m).queues q {} = { old with records := rest } ∧
        (runs → SameMemory s t) ∧
        (¬runs → t.word (la + 0x38) = statusWord 3 why 0 ∧ MemoryBut s t (la + 0x38) 8)) ∧
      (regionOf ring = some .tier2 ∨ regionOf ring = some .host → t.word place = BitVec.ofNat 64 addr ∧
        t.word (place + 8) = statusWord 3 why 0 ∧
        tabGet (t.module m).queues q {} = { old with records := rest, cpos := (old.cpos + 1) % 2 ^ 32 })
    let good : Prop := ¬runs ∧ ¬poisoned ∧ recordWhy s m addr r = 0
    let reads := readLaunch s (.unit (2 ^ 40 + m)) m addr r
    let levels := levelWords r
    let placed := placeAll s m (levels.filter fun e => !levelIsElement e) [placeRoot m (levelDomain (levels.headD 0)) none]
    (runs → refuses 4) ∧ (¬runs → poisoned → refuses 5) ∧
      (¬runs → ¬poisoned → ∀ why, recordWhy s m addr r = why → why ≠ 0 → refuses why) ∧
      (good → ∀ why l, reads = .inr (why, l) → why ≠ 0 → refuses why) ∧
      (good → ∀ l, reads = .inr (0, l) → placed = none → refuses 4) ∧
      ∀ l us why u, good → PlainLevels r → reads = .inr (0, l) → placed = some us →
        ((us.getLast?.getD []).flatMap fun x => spanModules x.lo x.n).foldl setIns [] = [m] →
        let whole : Launch := { l with queue := q, origin := m, parent := 0, modules := [m], awaiting := [m], homes := [] }
        reservePart la (partOf whole levels us m) (addContexts ((contextLevels r).flatMap (contextsOf la whole us)) s) = (why, u) →
        (why ≠ 0 → refuses why) ∧
        (why = 0 → ∃ t, exec (.launchDecision m) s = .next t ∧ SameMemory u t ∧
          tabFind t.net u.nextId = some (.start la m [m] []) ∧ t.cores = u.cores ∧ t.slots = u.slots ∧
          tabGet (t.module m).queues q {} = { old with records := rest })) ∧
  (∀ (s : State) (m addr : Nat) (r : List Word), (RecordMalformed r → recordWhy s m addr r = 5) ∧
    (¬RecordMalformed r → ¬PartitionGood (r.getD 2 0#64).toNat → recordWhy s m addr r = 1)) ∧
  (∀ (units n start : Nat) (free : Nat → Bool) (js : List Nat), 0 < n →
    (pickUnits 1 units n start free = some js → js.length = n ∧
      ∀ k < n, js[k]? = some ((start + k * (units / n)) % units) ∧ free ((start + k * (units / n)) % units) = true) ∧
    (pickUnits 0 units n 0 free = some js → js.length = n ∧ js.Pairwise (fun x y => x < y) ∧
      (∀ j ∈ js, j < units ∧ free j = true) ∧ ∀ j ∈ js, ∀ i < j, free i = true → i ∈ js)) ∧
  (∀ (l : Launch) (ls : List Nat) (placed : List (List Span)) (m : Nat), (∀ u ∈ placed.getLast?.getD [], u.n ≠ 0) →
    let p := partOf l ls placed m
    (∀ k idx, (k, idx) ∈ p.threads ↔ ∃ u ∈ placed.getLast?.getD [], u.lo / 114688 = m ∧ idx = u.index ∧
      k = u.lo / 14 * 16 + u.lo % 14) ∧
    (∀ c, c ∈ p.cores ↔ c / 8192 = m ∧ ∃ u ∈ placed.getLast?.getD [], u.lo / 14 ≤ c ∧ c ≤ (u.lo + u.n - 1) / 14)) ∧
  ∀ (s : State) (la : Nat) (l : Launch) (u : State), MemInv s → reservePart la l s = (0, u) →
    tabFind u.launches la = some l ∧ (∀ c ∈ l.cores, (s.core c).launch = 0 ∧ CoreTaken u la l c) ∧
      (∀ c, c ∉ l.cores → u.core c = s.core c) ∧
      ∀ a, (∀ c ∈ l.cores, (a < poolBase c ∨ poolBase c + 0x18000 ≤ a) ∧ (a < scaleBase c ∨ scaleBase c + 0x2000 ≤ a)) →
        u.byte a = s.byte a

/-- A launch that spans modules: RESERVE writes and checks the copy and answers; an unpopulated module refuses with 7.
RESERVE_ANSWER counts the answer at the origin: after the last, START goes to every module, or, where one has refused,
RELEASE to the others, and LSTAT takes WHY 7. START writes LSTAT first and starts the threads at ENTRY with the ARGS words
in g1 to g8; RELEASE frees the units that the launch has taken there, and no others; ENDED_REPORT adds what a part reports, and
the last ends the launch (R187, R188, R199). -/
def Obligations.LaunchesRun : Prop :=
  (∀ (s : State) (msg la m : Nat) (homes cores : List Nat) (threads : List (Nat × List Nat)) (nest : List (Nat × Nat × Nat))
    (bytes : List Byte), MemInv s → m < 8192 → tabFind s.net msg = some (.reserve la m homes threads cores nest bytes) →
    let mine := partAt la m
    let record := m * 2 ^ 48 + la % 2 ^ 48
    ((s.module m).populated = false → ∀ l, tabFind s.launches la = some l → m ∈ l.awaiting → (∃ x ∈ l.awaiting, x ≠ m) →
      ∃ t, exec (.reserve msg) s = .next t ∧ SameMemory s t ∧ tabFind t.launches la = some { l with
        awaiting := l.awaiting.filter (fun x => x != m), refused := true }) ∧
    ((s.module m).populated = true → arrives s msg m = false ∨ (s.module m).boot ≠ .running →
      exec (.reserve msg) s = .next s) ∧
    (arrives s msg m = true → (s.module m).boot = .running →
      (tabFind s.launches mine ≠ none → ∃ t, exec (.reserve msg) s = .next t ∧ SameMemory s t ∧
        tabFind t.net s.nextId = some (.reserveAnswer la m 4)) ∧
      (tabFind s.launches mine = none → Idle s →
        let u := writeMem (unitWriter m) record bytes s
        let r := (List.range 16).map fun i => u.word (record + 8 * i)
        let reads := readLaunch u (.msg msg) m (la % 2 ^ 48) r
        let answers (v : State) (why : Nat) : Prop := ∃ t, exec (.reserve msg) s = .next t ∧ SameMemory v t ∧ t.cores = v.cores ∧
          t.slots = v.slots ∧ t.launches = v.launches ∧ tabFind t.net v.nextId = some (.reserveAnswer la m why)
        MemoryBut s u record bytes.length ∧ (∀ i b, bytes[i]? = some b → u.byte (record + i) = b) ∧
        (∀ why, recordWhy u m (la % 2 ^ 48) r = why → why ≠ 0 → answers u why) ∧
        (∀ why l, recordWhy u m (la % 2 ^ 48) r = 0 → reads = .inr (why, l) → why ≠ 0 → answers u why) ∧
        ∀ l why v, recordWhy u m (la % 2 ^ 48) r = 0 → reads = .inr (0, l) →
          reservePart mine { l with queue := 64, origin := la / 2 ^ 48 % 2 ^ 13, homes := homes, threads := threads, cores := cores
                                    nest := nest } u = (why, v) → answers v why))) ∧
  (∀ (s : State) (msg la m why : Nat) (l : Launch), MemInv s → Rising s.launches →
    tabFind s.net msg = some (.reserveAnswer la m why) → tabFind s.launches la = some l → m ∈ l.awaiting →
    let origin := la / 2 ^ 48 % 2 ^ 13
    (arrives s msg origin = false → exec (.reserveAnswer msg) s = .next s) ∧
    (arrives s msg origin = true →
      ((∃ x ∈ l.awaiting, x ≠ m) → ∃ t, exec (.reserveAnswer msg) s = .next t ∧ SameMemory s t ∧
        tabFind t.launches la = some { l with
          awaiting := l.awaiting.filter (fun x => x != m), refused := l.refused || decide (why ≠ 0) }) ∧
      ((∀ x ∈ l.awaiting, x = m) → l.refused = false → why = 0 →
        ∃ t, exec (.reserveAnswer msg) s = .next t ∧ SameMemory s t ∧ t.cores = s.cores ∧
          ∀ x ∈ l.modules, ∃ id, tabFind t.net id = some (.start la x l.modules l.homes)) ∧
      ((∀ x ∈ l.awaiting, x = m) → l.refused = true ∨ why ≠ 0 → NoRing s origin l.queue → Idle s →
        ∃ t, exec (.reserveAnswer msg) s = .next t ∧ tabFind t.launches la = none ∧
          t.word (la % 2 ^ 61 + 0x38) = statusWord 3 7 0 ∧ MemoryBut s t (la % 2 ^ 61 + 0x38) 8 ∧
          (∀ c ∈ l.cores, (t.core c).launch = 0) ∧
          ∀ x ∈ l.modules, x ≠ origin → ∃ id, tabFind t.net id = some (.release_ la x)))) ∧
  (∀ (s : State) (msg la m : Nat) (modules homes : List Nat), MemInv s → m < 8192 → Idle s → Rising s.launches →
    tabFind s.net msg = some (.start la m modules homes) →
    let mine := partAt la m
    (arrives s msg m = false ∨ (s.module m).boot ≠ .running ∨ tabFind s.launches mine = none →
      exec (.start msg) s = .next s) ∧
    ∀ l, arrives s msg m = true → (s.module m).boot = .running → tabFind s.launches mine = some l → PlainLevels l.record →
      l.nest = [] → Alone s mine l → l.ended = 0 → l.total = 0 → ∃ t, exec (.start msg) s = .next t ∧
        tabFind t.launches mine = some { l with modules := modules, homes := homes, running := true } ∧
        t.word (mine % 2 ^ 61 + 0x38) = statusWord 1 0 0 ∧ MemoryBut s t (mine % 2 ^ 61 + 0x38) 8 ∧
        ∀ k idx, (k, idx) ∈ l.threads → (∀ q ∈ l.threads, q.1 = k → q = (k, idx)) →
          (t.slot k).life = .fetch ∧ (t.slot k).next = (l.record.getD 1 0#64).toNat ∧ (t.slot k).task = none ∧
          (t.slot k).ranks = idx ∧ (t.slot k).launch = (s.slot k).launch ∧
          (∀ r, 1 ≤ r → r ≤ 8 → r < s.fileSize (slotCore k) - 1 → (t.slot k).reg r = { val := l.args.getD (r - 1) 0#64 }) ∧
          ∀ r, r = 0 ∨ 8 < r ∨ s.fileSize (slotCore k) - 1 ≤ r → (t.slot k).reg r = {}) ∧
  (∀ (s : State) (msg la m : Nat) (l : Launch), m < 8192 → tabFind s.net msg = some (.release_ la m) → Rising s.launches →
    arrives s msg m = true → tabFind s.launches (partAt la m) = some l →
    (l.origin ≠ la / 2 ^ 48 % 2 ^ 13 ∨ l.running = true → exec (.release msg) s = .next (s.drop msg)) ∧
    (l.origin = la / 2 ^ 48 % 2 ^ 13 → l.running = false →
      ∃ t, exec (.release msg) s = .next t ∧ SameMemory s t ∧ tabFind t.launches (partAt la m) = none ∧
        (∀ c ∈ l.cores, (t.core c).launch = 0) ∧ ∀ c, c ∉ l.cores → t.core c = s.core c)) ∧
  ∀ (s : State) (msg la m count : Nat) (killed : Bool) (l : Launch), MemInv s → Rising s.launches → Idle s →
    tabFind s.net msg = some (.ended la m count killed) → arrives s msg (la / 2 ^ 48 % 2 ^ 13) = true →
    tabFind s.launches la = some l → Alone s la l → NoRing s (la / 2 ^ 48 % 2 ^ 13) l.queue → l.ended + l.total + count < 2 ^ 48 →
    let status := la % 2 ^ 61 + 0x38
    ∃ t, exec (.endedReport msg) s = .next t ∧ MemoryBut s t status 8 ∧
      ((∃ x ∈ l.reports, x ≠ m) → t.word status = statusWord 1 0 (l.ended + l.total + count) ∧
        tabFind t.launches la = some { l with total := l.total + count, killed := l.killed || killed
                                              reports := l.reports.filter fun x => x != m }) ∧
      ((∀ x ∈ l.reports, x = m) → t.word status =
          statusWord (if l.killed || killed then 4 else 2) 0 (l.ended + l.total + count) ∧ tabFind t.launches la = none)

/-! ## The Parlour -/

/-- PARLOUR_DISPATCH_ATTEMPT: where a worker slot is free, the agent takes the first bound task in the order of R204 that
has not been refused, forms its ball and sends its first requests; under colour dispatch it starts a task of the phase at
once; with no bound task it starts one of its cluster's list. The tasks of a launch that has been killed are gone (R407). Of two
posts the older is that which lies further behind, ages of more than 16,384 µs being equal. A ball that is too large, or a list that fails, holds the task
and queues QUARANTINED ELEMENT. PARLOUR_RETRY_TIMER makes a refused task available after 1 µs (R204, R205, R207, R208, R210,
R216, R217, R220). -/
def Obligations.ParlourDispatches : Prop :=
  (∀ (s : State) (core : Nat), (s.module (core / 8192)).boot ≠ .running ∨
    ((s.core core).attempt = none ∧ ∀ k, ¬FreeWorker s core k) → exec (.parlourDispatchAttempt core) s = .next s) ∧
  (∀ (s : State) (core k : Nat), MemInv s → Idle s → core < 2 ^ 26 → (s.module (core / 8192)).boot = .running →
    (s.core core).attempt = none → FreeWorker s core k →
    let co := s.core core
    let l := s.launch co.launch
    let now := fabricNow s (core / 8192)
    let mine := coreList co.desc core
    let theirs := 2 ^ 80 + core / 16
    let may (n : Nat) : Prop := if l.byColour then inPhase s co.launch mine n = true else tabFind co.refused n = none
    (co.desc ≠ [] → l.killed = false → ∀ n e, NextTask s now mine n e may →
      (l.byColour = true → ∃ t, exec (.parlourDispatchAttempt core) s = .next t ∧ Dispatched s t k mine n e []) ∧
      (l.byColour = false →
        (∀ ball, ballFrom s core co.desc l.radius [e.element] [e.element] = .ok ball → ∃ t run,
          exec (.parlourDispatchAttempt core) s = .next t ∧ SameMemory s t ∧ t.slots = s.slots ∧ AsksFor t core n run ball ∧
          (t.core core).attempt = some { entry := n, ball := ball, waiting := run, sentAt := s.now } ∧
          tabFind t.net s.nextId = some (.stall core n e.posted (handleOf mine n)
            (run.map fun x => (x, if x = e.element then .takeX else .takeS)))) ∧
        (ballFrom s core co.desc l.radius [e.element] [e.element] = .error .large →
          ∃ t, exec (.parlourDispatchAttempt core) s = .next t ∧ EntryBecomes t mine n e 5 e.prio e.count ∧
            AgentSays t core (handleOf mine n) 0x13 e.element 3) ∧
        ∀ f reason, ballFrom s core co.desc l.radius [e.element] [e.element] = .error (.fails f reason) →
          (∀ pa, stallAddr l f = some pa → pa + 8 ≤ mine + 32 * n ∨ mine + 32 * n + 24 ≤ pa) →
          ∃ t, exec (.parlourDispatchAttempt core) s = .next t ∧ EntryBecomes t mine n e 5 e.prio e.count ∧
            AgentSays t core (handleOf mine n) 0x13 f reason ∧
            ∀ pa, stallAddr l f = some pa → (pa / 2 ^ 48 ≠ core / 8192 → ∃ id, tabFind t.net id = some (.quarantine co.launch f)) ∧
              (pa / 2 ^ 48 = core / 8192 → (t.word pa).toNat =
                let w := (s.word pa).toNat
                if w / 2 ^ 63 = 0 then stallWord 3 (w / 2 ^ 48 % 2 ^ 14) 0 (2 ^ 32 - 1) else w))) ∧
    ((co.desc = [] ∨ l.killed = true ∨ ∀ n < listCap s mine, (readEntry s mine n).st = 2 → ¬may n) →
      (∀ n e, NextTask s now theirs n e (fun m => (readEntry s theirs m).launch = co.launch) →
        ∃ t, exec (.parlourDispatchAttempt core) s = .next t ∧ SameMemory s t ∧ Dispatched s t k theirs n e []) ∧
      ((∀ n < 256, (readEntry s theirs n).st = 2 → (readEntry s theirs n).launch ≠ co.launch) →
        exec (.parlourDispatchAttempt core) s = .next s))) ∧
  (∀ now x y, x ≤ now → y ≤ now → older now (now - x) (now - y) = decide (min y 16384 < min x 16384)) ∧
  (∀ (s : State) (c e : Nat) (d : List Word), ballFrom s c d 0 [e] [e] = .ok [e] ∧
    ∀ r b b', ballFrom s c d r [e] [e] = .ok b → ballFrom s c d (r + 1) [e] [e] = .ok b' →
      b'.Pairwise (fun x y => x < y) ∧ b'.length ≤ 256 ∧
      ∀ x, x ∈ b' ↔ x ∈ b ∨ ∃ y ∈ b, ∃ vs, neighbours s c d y = .ok vs ∧ x ∈ vs) ∧
  ∀ (s : State) (core entry : Nat), (tabFind (s.core core).refused entry = none → exec (.parlourRetryTimer core entry) s = .next s) ∧
    ∀ x, tabFind (s.core core).refused entry = some x →
      (s.now < x → exec (.parlourRetryTimer core entry) s = .next s) ∧
      (x ≤ s.now → Rising (s.core core).refused → ∃ t, exec (.parlourRetryTimer core entry) s = .next t ∧ SameMemory s t ∧
        tabFind (t.core core).refused entry = none)

/-- The table of R211, event by event: an exclusive and a shared request, their releases, a fault of the holder, a
connectivity error, and TRETRY or TDROP. STALL_WORD_REQUEST performs a request at its home agent as R211 says. At the
agent's own module a refusal ends the attempt for 1 µs, a grant sends the next request, and the last one starts the task;
from another module the answer travels back, and HOLD_ANSWER_ARRIVAL does the same with it. HOLD_RELEASE_PARLOUR releases a
task's hold at its end: at once where its home is the own module, else by a message, whose arrival releases a hold that was
granted to that module (R204, R210 to R212). -/
def Obligations.HoldsTaken : Prop :=
  (∀ now age p handle w st count page owner : Nat, w < 2 ^ 64 → stallParts w = (st, count, page, owner) →
    let fits : Prop := page = 0 ∨ older now p age = false
    let kept := if page = age % 65536 then 0 else page
    let noted := if page = 0 ∨ older now age p = true then stallWord st count (age % 65536) owner else w
    (st = 0 → fits → swTakeX now age p handle w = (true, stallWord 2 0 kept handle)) ∧
    (st ≤ 1 → ¬fits → swTakeX now age p handle w = (false, w) ∧ swTakeS now age p w = (false, w)) ∧
    (st = 1 → fits → swTakeX now age p handle w = (false, noted)) ∧
    (st ≤ 1 → fits → count < 16383 → swTakeS now age p w = (true, stallWord 1 (count + 1) kept owner)) ∧
    (st ≤ 1 → fits → count = 16383 → swTakeS now age p w = (false, noted)) ∧
    (st = 2 → swTakeX now age p handle w = (false, noted) ∧ swTakeS now age p w = (false, noted)) ∧
    (st = 3 → swTakeX now age p handle w = (false, w)) ∧
    (st = 3 → count < 16383 → swTakeS now age p w = (true, stallWord 3 (count + 1) page owner)) ∧
    (st = 3 → count = 16383 → swTakeS now age p w = (false, w)) ∧
    (st = 1 ∨ st = 3 → 0 < count →
      swDropS w = stallWord (if st = 1 ∧ count = 1 then 0 else st) (count - 1) page owner) ∧
    (st = 2 → swDropX w = stallWord 0 0 page 0 ∧ swFault w = stallWord 3 count 0 owner ∧ swError w = w) ∧
    (st ≤ 1 → swError w = stallWord 3 count 0 (2 ^ 32 - 1)) ∧ (st = 3 → swError w = w) ∧
    (st = 3 → swRetry w = stallWord (if 0 < count then 1 else 0) count 0 0)) ∧
  ((∀ (s : State) (msg core entry age handle e : Nat) (x : StallOp) (a : Attempt) (pa : Nat) (got : Bool) (w : Nat), MemInv s →
    core < 2 ^ 26 → tabFind s.net msg = some (.stall core entry age handle [(e, x)]) → (s.core core).attempt = some a →
    a.entry = entry → a.waiting = [e] → stallAddr (s.launch (s.core core).launch) e = some pa →
    arrives s msg (pa / 2 ^ 48) = true →
    let word := (s.word pa).toNat
    let p := ageTime s (pa / 2 ^ 48) (pa / 8) (word / 2 ^ 32 % 2 ^ 16)
    (x = .takeX ∧ (got, w) = swTakeX (fabricNow s (pa / 2 ^ 48)) age p handle word ∨
      x = .takeS ∧ (pa / 2 ^ 48 = core / 8192 ∨ (s.core (coreOfPool pa)).lent.length < 256) ∧
        (got, w) = swTakeS (fabricNow s (pa / 2 ^ 48)) age p word) →
    let list := coreList (s.core core).desc core
    let place := list + 32 * entry
    ∃ t, exec (.stallWordRequest msg) s = .next t ∧
      (pa / 2 ^ 48 ≠ core / 8192 → t.word pa = BitVec.ofNat 64 w ∧ MemoryBut s t pa 8 ∧
        ∃ id, tabFind t.net id = some (.stallAnswer core entry (if got then [e] else []) (!got))) ∧
      (pa / 2 ^ 48 = core / 8192 →
        (got = false → a.granted = [] → t.word pa = BitVec.ofNat 64 w ∧ MemoryBut s t pa 8 ∧ (t.core core).attempt = none ∧
          tabFind (t.core core).refused entry = some (s.now + 4000)) ∧
        (got = true → ∀ rest, a.ball = a.granted ++ e :: rest →
          (rest ≠ [] → t.word pa = BitVec.ofNat 64 w ∧ MemoryBut s t pa 8 ∧ ∃ run, AsksFor t core entry run rest ∧
            (t.core core).attempt = some { a with granted := a.granted ++ [e], waiting := run, sentAt := s.now }) ∧
          (rest = [] → (∀ k, ¬FreeWorker s core k) → t.word pa = BitVec.ofNat 64 w ∧ MemoryBut s t pa 8 ∧
            (t.core core).attempt = some { a with granted := a.ball, waiting := [] }) ∧
          (rest = [] → pa + 8 ≤ place ∨ place + 24 ≤ pa → ∀ k, FreeWorker s core k → t.word pa = BitVec.ofNat 64 w ∧
            (t.core core).attempt = none ∧ Dispatched s t k list entry (readEntry s list entry) a.ball)))) ∧
  (∀ (s : State) (msg core entry age handle e : Nat) (x : StallOp) (pa : Nat),
    tabFind s.net msg = some (.stall core entry age handle [(e, x)]) →
    stallAddr (s.launch (s.core core).launch) e = some pa →
    (arrives s msg (pa / 2 ^ 48) = false → exec (.stallWordRequest msg) s = .next s) ∧
    (arrives s msg (pa / 2 ^ 48) = true → (∀ a, (s.core core).attempt = some a → a.entry ≠ entry ∨ a.waiting ≠ [e]) →
      exec (.stallWordRequest msg) s = .next (s.drop msg))) ∧
  (∀ (s : State) (msg core entry : Nat) (g : List Nat) (refused : Bool), MemInv s → core < 2 ^ 26 →
    tabFind s.net msg = some (.stallAnswer core entry g refused) →
    (arrives s msg (core / 8192) = false → exec (.holdAnswerArrival msg) s = .next s) ∧ (arrives s msg (core / 8192) = true →
    ((∀ a, (s.core core).attempt = some a → a.entry ≠ entry) → exec (.holdAnswerArrival msg) s = .next (s.drop msg)) ∧
    ∀ a, (s.core core).attempt = some a → a.entry = entry → ∃ t, exec (.holdAnswerArrival msg) s = .next t ∧
      (refused = true → (t.core core).attempt = none ∧ tabFind (t.core core).refused entry = some (s.now + 4000) ∧
        (a.granted = [] → g = [] → SameMemory s t)) ∧
      (refused = false → ∀ rest, a.ball = a.granted ++ g ++ rest →
        (rest ≠ [] → SameMemory s t ∧ ∃ run, AsksFor t core entry run rest ∧
          (t.core core).attempt = some { a with granted := a.granted ++ g, waiting := run, sentAt := s.now }) ∧
        (rest = [] → ∀ k, FreeWorker s core k → (t.core core).attempt = none ∧
          let list := coreList (s.core core).desc core
          Dispatched s t k list entry (readEntry s list entry) a.ball)))) ∧
  (∀ (s : State) (msg c m pa : Nat), MemInv s → tabFind s.net msg = some (.drops c m [pa]) → arrives s msg m = true →
    ((pa, c / 8192) ∈ (s.core (coreOfPool pa)).lent → ∃ t, exec (.stallWordRequest msg) s = .next t ∧ MemoryBut s t pa 8 ∧
      t.word pa = BitVec.ofNat 64 (swDropS (s.word pa).toNat) ∧
      (t.core (coreOfPool pa)).lent = (s.core (coreOfPool pa)).lent.erase (pa, c / 8192)) ∧
    ((pa, c / 8192) ∉ (s.core (coreOfPool pa)).lent → exec (.stallWordRequest msg) s = .next (s.drop msg))) ∧
  ∀ (s : State) (k : Nat), ((s.slot k).task = none ∨ (∀ r, ¬MayEnd (s.slot k) r) → exec (.holdReleaseParlour k) s = .next s) ∧
    ∀ x r v pa, MemInv s → (s.slot k).task = some x → MayEnd (s.slot k) r → x.held = [v] → v < 2 ^ 32 - 1 →
      stallAddr (s.launch (s.slot k).launch) v = some pa → ∃ t, exec (.holdReleaseParlour k) s = .next t ∧
        (t.slot k).task = some { x with held := [] } ∧
        (pa / 2 ^ 48 = k / 16 / 8192 → MemoryBut s t pa 8 ∧ t.word pa = BitVec.ofNat 64
          (if x.element = some v then swDropX (s.word pa).toNat else swDropS (s.word pa).toNat)) ∧
        (pa / 2 ^ 48 ≠ k / 16 / 8192 → SameMemory s t ∧
          tabFind t.net s.nextId = some (.drops (k / 16) (pa / 2 ^ 48) [pa])))

/-- COLOUR_PHASE_START takes the next colour, in wrapping order, that an eligible task has, and admits its tasks; while a
phase runs nothing happens (R217). DEADLINE_EXPIRY: a task whose LIMIT has passed goes on at its fallback block, LIMIT
cleared, or takes DEADLINE; an instance that has completed commits first, and any other is discarded (R218, R219).
FABRIC_TIMEOUT of what names a silent module, or has found no route: a remote access of a running instance discards it with FABRIC TIMEOUT, one
that has committed is dropped and the trap waits for the boundary, as for a message; an attempt that waits for stall words
is refused, and its agent queues a record. What may still be answered is left alone (R19, R161, R167, R212). -/
def Obligations.ColoursAndTimeouts : Prop :=
  ((∀ (s : State) (la : Nat) (l : Launch), tabFind s.launches la = some l → Idle s →
    (l.origin ≠ la / 2 ^ 48 % 2 ^ 13 ∨ l.running = false ∨ l.byColour = false ∨ l.colourTasks ≠ [] ∨ colouredTasks s la = some [] →
      exec (.colourPhaseStart la) s = .next s) ∧
    ∀ ts i, l.origin = la / 2 ^ 48 % 2 ^ 13 → l.running = true → l.byColour = true → l.colourTasks = [] → colouredTasks s la = some ts →
      i < 256 → (∃ t ∈ ts, t.2 = (l.colour + i) % 256) → (∀ n < i, ∀ t ∈ ts, t.2 ≠ (l.colour + n) % 256) →
      ∃ t, exec (.colourPhaseStart la) s = .next t ∧ SameMemory s t ∧ tabFind t.launches la = some { l with
        colour := (l.colour + i) % 256 + 1
        colourTasks := (ts.filter fun x => x.2 == (l.colour + i) % 256).map fun x => x.1 }) ∧
  ∀ (s : State) (k : Nat),
    let sl := s.slot k
    let limit := sl.deadline.toNat / 2 ^ 48
    let fallback := sl.deadline.toNat / 4 % 2 ^ 46 * 4
    let passed : Prop := limit ≠ 0 ∧ (∃ x, sl.task = some x ∧ x.start + limit * 4000 ≤ s.now) ∧
      (sl.life = .fetch ∨ sl.life = .run) ∧ (s.module (slotModule k)).boot ≠ .frozen
    let expires (t : State) (origin : Nat) : Prop := (t.slot k).inst = none ∧ SameRegs { sl with
        deadline := sl.deadline &&& 0x0000FFFFFFFFFFFF#64 } (t.slot k) ∧
      (fallback ≠ 0 → (t.slot k).life = .fetch ∧ (t.slot k).next = fallback ∧ (t.slot k).pending = sl.pending) ∧
      (fallback = 0 → ∃ f, (t.slot k).pending = sl.pending ++ [f] ∧ f.cause = 0x0E ∧ f.origin = origin ∧ f.replay = false)
    (¬passed → exec (.deadlineExpiry k) s = .next s) ∧
    (passed → sl.inst = none → ∃ t, exec (.deadlineExpiry k) s = .next t ∧ SameMemory s t ∧ expires t 1) ∧
    (passed → ∀ j, sl.inst = some j → j.complete = true → exec (.deadlineExpiry k) s = .next
      (s.modSlot k fun x => { x with expired := true })) ∧
    (passed → ∀ j, sl.inst = some j → j.complete = false → ∃ t, exec (.deadlineExpiry k) s = .next t ∧ expires t 0)) ∧
  ((∀ (s : State) (id k m : Nat) (a : Acc), findAcc s id = some (k, a) → a.remote = some m →
    (a.st ≠ .sent ∨ ¬Silent s (k / 16) m a.sentAt (accStranded s k a.id) → exec (.fabricTimeout id) s = .next s) ∧
    (a.st = .sent → Silent s (k / 16) m a.sentAt (accStranded s k a.id) →
      let f : Trap := { cause := 0x0D, addr := a.va, info := 0xD + (if a.needsW then 256 else 0) + 1024 + m * 65536 }
      (a.committed = false → exec (.fabricTimeout id) s = .next (raise k f s)) ∧
      (a.committed = true → ∃ t, exec (.fabricTimeout id) s = .next t ∧ SameMemory s t ∧
        (t.slot k).pending = (s.slot k).pending ++ [{ f with origin := 1, own := some a.blk }] ∧ ∀ b ∈ (t.slot k).accs, b.id ≠ a.id))) ∧
  (∀ (s : State) (msg k c e blk sentAt nacks nb : Nat) (h : Word) (ws : List Word), findAcc s msg = none →
    tabFind s.net msg = some (.packet k c e blk sentAt nacks nb h ws) →
    (¬Silent s (k / 16) (c / 8192) sentAt (noRoute s msg) → exec (.fabricTimeout msg) s = .next s) ∧
    (Silent s (k / 16) (c / 8192) sentAt (noRoute s msg) → ∃ t, exec (.fabricTimeout msg) s = .next t ∧ SameMemory s t ∧
      t.slot k = { s.slot k with pending := (s.slot k).pending ++
        [{ cause := 0x0D, addr := e, info := 0xD + 1024 + c / 8192 * 65536, origin := 1, own := some blk }] })) ∧
  ∀ (s : State) (msg core entry age handle e pa : Nat) (x : StallOp) (rest : List (Nat × StallOp)) (a : Attempt),
    findAcc s msg = none → tabFind s.net msg = some (.stall core entry age handle ((e, x) :: rest)) →
    stallAddr (s.launch (s.core core).launch) e = some pa → pa / 2 ^ 48 ≠ core / 8192 → (s.core core).attempt = some a →
    (a.entry ≠ entry ∨ ¬Silent s core (pa / 2 ^ 48) a.sentAt (noRoute s msg) → exec (.fabricTimeout msg) s = .next s) ∧
    (a.entry = entry → Silent s core (pa / 2 ^ 48) a.sentAt (noRoute s msg) → ∃ t, exec (.fabricTimeout msg) s = .next t ∧
      (t.core core).attempt = none ∧ tabFind (t.core core).refused entry = some (s.now + 4000) ∧
      (a.granted = [] → SameMemory s t) ∧ AgentSays t core handle 0x0D e (0xD + 1024 + pa / 2 ^ 48 * 65536)))

/-- THREAD_END frees the slot once the end releases, counts the thread in LSTAT, takes its memberships as a BARX would,
frees a task's entry or posts it again with its new argument, and leaves its parent. SPAWN_CHILD_START starts a child with
its argument in g1 in the lowest free slot of the core, and MIGRATION_COMPLETE moves a thread to a free slot of another
core, its trap registers staying behind (R116, R187, R188, R190 to R192, R329, R350). The registers and the exit number of the
slot that a thread has left keep what they hold until another thread starts there (log 77). -/
def Obligations.ThreadsEnd : Prop :=
  (∀ (s : State) (k : Nat), (∀ r, ¬MayEnd (s.slot k) r) ∨ (s.slot k).collPending ≠ [] ∨
    (∃ x, (s.slot k).task = some x ∧ x.held ≠ []) → exec (.threadEnd k) s = .next s) ∧
  (∀ (s : State) (k : Nat) (r : Option Word), MemInv s → MayEnd (s.slot k) r → (s.slot k).collPending = [] →
    Idle s →
    let sl := s.slot k
    let place := sl.launch % 2 ^ 61 + 0x38
    (sl.task = none → sl.members = [] → ∃ t, exec (.threadEnd k) s = .next t ∧ (t.slot k).life = .free ∧
      (∀ r, (t.slot k).reg r = { sl.reg r with pending := false }) ∧ (t.slot k).exn = sl.exn ∧
      (t.slot k).trapCause = sl.trapCause ∧ (t.slot k).trapVec = sl.trapVec ∧
      (∀ p, sl.parent = some p → p < 2 ^ 64 → p ≠ k → (t.slot p).join = (s.slot p).join - 1) ∧
      (sl.parent = none → systemSlot k = true ∨ r ≠ none → SameMemory s t) ∧
      ∀ l, systemSlot k = false → r = none → tabFind s.launches sl.launch = some l → Alone s sl.launch l →
        l.ended + 1 + l.total < 2 ^ 48 →
        tabFind t.launches sl.launch = some { l with ended := l.ended + 1 } ∧
          t.word place = statusWord 1 0 (l.ended + 1 + l.total)) ∧
    (∀ x, sl.task = none → sl.members = [x] → objectPoisoned s x.addr = false → systemSlot k = true →
      ∃ t, exec (.threadEnd k) s = .next t ∧ (t.slot k).life = .free ∧
        (sl.parent = none → MemoryBut s t x.addr 16 ∧ barrierRule .barx x.gen (readBar s x.addr) (readBar t x.addr))) ∧
    ∀ x, sl.task = some x → x.held = [] → sl.members = [] → sl.parent = none → systemSlot k = false →
      (2 ^ 80 ≤ x.list → Rising (s.cluster (x.list - 2 ^ 80)).list) →
      (2 ^ 80 ≤ x.list ∨ place + 8 ≤ x.list + 32 * x.entry ∨ x.list + 32 * x.entry + 24 ≤ place) →
      let e := readEntry s x.list x.entry
      ∃ t, exec (.threadEnd k) s = .next t ∧ (t.slot k).life = .free ∧ (r = none → (readEntry t x.list x.entry).st = 0) ∧
        ∀ v, r = some v → let y := readEntry t x.list x.entry
          y.st = 2 ∧ y.count = 0 ∧ y.prio = e.prio ∧ y.element = e.element ∧ y.start = e.start ∧ y.w2 = v ∧
            (x.list < 2 ^ 80 → y.age = ageNow s (x.list / 2 ^ 48))) ∧
  (∀ (s : State) (k num start : Nat) (arg : Word) (rest : List (Nat × Action)), (s.slot k).post = (num, .spawn start arg) :: rest →
    (s.slot k).accs = [] → (s.slot k).life ≠ .free → (s.slot k).life ≠ .killed →
    ((∀ n, ¬FreeSlot s (k / 16) n) → exec (.spawnChildStart k) s = .next s) ∧
    ∀ n, FreeSlot s (k / 16) n → ∃ t, exec (.spawnChildStart k) s = .next t ∧ SameMemory s t ∧
      t.slot k = { s.slot k with post := rest, join := (s.slot k).join + 1 } ∧ (t.slot n).life = .fetch ∧
      (t.slot n).next = start ∧ (t.slot n).reg 1 = { val := arg } ∧ (∀ r, r ≠ 1 → (t.slot n).reg r = {}) ∧
      (t.slot n).ranks = (s.slot k).ranks ∧ (t.slot n).parent = some k ∧ (t.slot n).task = none) ∧
  ∀ (s : State) (k num c : Nat) (rest : List (Nat × Action)), (s.slot k).post = (num, .migr c) :: rest → (s.slot k).accs = [] →
    let sl := s.slot k
    (c = k / 16 → exec (.migrationComplete k) s = .next (s.modSlot k fun x => { x with post := rest })) ∧
    (c ≠ k / 16 → (sl.copies ≠ [] ∨ sl.unretired ≠ [] ∨ sl.pending ≠ [] ∨ sl.record ≠ none ∨ sl.halt ≠ .none ∨
      ∀ n, ¬FreeSlot s c n) → exec (.migrationComplete k) s = .next s) ∧
    (c ≠ k / 16 → sl.copies = [] → sl.unretired = [] → sl.pending = [] → sl.record = none → sl.halt = .none →
      ∀ n, FreeSlot s c n → ∃ t, exec (.migrationComplete k) s = .next t ∧ SameMemory s t ∧ (t.slot k).life = .free ∧
        (∀ r, (t.slot k).reg r = { sl.reg r with pending := false }) ∧ SameRegs { sl with
          trapCause := (s.slot n).trapCause, trapAddr := (s.slot n).trapAddr, trapBlock := (s.slot n).trapBlock
          trapInfo := (s.slot n).trapInfo, trapVec := (s.slot n).trapVec } (t.slot n) ∧
        (t.slot n).life = sl.life ∧ (t.slot n).next = sl.next ∧ (t.slot n).post = rest ∧ (t.slot n).task = sl.task ∧
        (t.slot n).join = sl.join ∧ (t.slot n).members = sl.members ∧ (t.slot n).inst = sl.inst)

/-! ## Reset and invariants -/

/-- At power-on no slot holds a thread, no word is empty or poisoned, module 0 alone is populated and is off, the control
registers read what the spec gives for reset, and memory is in its canonical form (R21, R48, R102, R106, R167, R239, R308,
R390, R401, R408, R413, R414). That it is module 0 (log 4), and that the first step draws up the agenda of its cold boot (log 2),
is the model's choice. -/
def Obligations.ResetState : Prop :=
  MemInv State.reset ∧ State.reset.mem = [] ∧ (∀ a, State.reset.isFull a = true ∧ State.reset.wordPoisoned a = false) ∧
  (∀ k, State.reset.slot k = {}) ∧ (∀ m, (State.reset.module m).populated = decide (m = 0) ∧ (State.reset.module m).boot = .off) ∧
  (∀ k, ∀ p ∈ ([(0x04, 0#64), (0x05, 16#64), (0x0A, 0x3F800000#64), (0x18, 0x34000000#64), (0x2C, 0#64),
      (0x30, 0xFFFFFFFF00000000#64), (0x31, 0#64), (0x32, 0#64), (0x33, 0#64), (0x34, 0#64), (0x80, 0#64), (0x81, 0#64),
      (0x82, 0x00100000#64), (0x8C, 3000#64)] ++ (List.range 8).map (fun i => (0x10 + i, 0x17FF#64)) ++
      (List.range 4).flatMap (fun i => [(0x50 + 2 * i, 0#64), (0x51 + 2 * i, 0x0000FFFFFFFFFFF8#64)]) : List (Nat × Word)),
    readControl State.reset k p.1 = some p.2) ∧
  (∀ c, (State.reset.core c).pwrReq = 64 ∧ (State.reset.core c).own = BitVec.allOnes 64) ∧
  (∀ d, (State.reset.die d).dcap = 212500#64) ∧ (∀ c, (State.reset.cluster c).ccap = 1660#64) ∧
  (∀ m, (State.reset.module m).watchdog = 500#64) ∧
  step State.reset = .next { State.reset with turns := [.event (.coldBoot 0), .pass 1] }

/-- Every step keeps memory in its canonical form, from every state: bytes by rising address and none listed that reads as
an unlisted one, empty words and poisoned units each listed once in rising order. -/
def Obligations.MemoryStaysCanonical : Prop :=
  ∀ s t : State, MemInv s → step s = .next t → MemInv t

/-- What an instruction of a running instance does before its instance commits reaches no register of any slot and no
memory but the 24 bytes of the run-list entry that a POST reserves, or that a discarded POST gives back (R66, R181, R184, R345);
said where no party's own turn at a word ends with it, as another's write may follow (R99, log 133). -/
def Obligations.InstancesWaitForCommit : Prop :=
  ∀ (s t : State) (i : Instr), i.encode ≠ none → exec i s = .next t →
    (∀ m, SameRegs (s.slot m) (t.slot m)) ∧
    (NoTurns s → (∀ p a b y, i ≠ .post p a b y) → (∀ p a b c, i ≠ .postc p a b c) →
      (∀ j, (s.slot s.focus.slot).inst = some j → ∀ p ∈ j.actions, ∀ l n e b a y, p.2 ≠ .post l n e b a y) → SameMemory s t) ∧
    (NoTurns s → MemInv s → t.empties = s.empties ∧ t.poison = s.poison ∧
      ∀ a, (∀ l n, EntryReserved s i l n → l < 2 ^ 80 → a < l + 32 * n ∨ l + 32 * n + 24 ≤ a) → t.byte a = s.byte a)
end

