-- ==== Sys2Proof/Laws/Table.lean ====
section
/-! SUPPORT. Tables by number: what a read gives after a write or a removal. -/

namespace Sys2Proof.Machine

/-- Keys rise strictly from `lo`. -/
def tabWfFrom {α : Type} : Nat → Tab α → Bool
  | _, [] => true
  | lo, (k, _) :: t => decide (lo ≤ k) && tabWfFrom (k + 1) t

/-- The entry just written is found. -/
@[simp] theorem tabFind_tabPut_self {α : Type} (t : Tab α) (k : Nat) (v : α) : tabFind (tabPut t k v) k = some v := by
  induction t with
  | nil => simp [tabPut, tabFind]
  | cons p t ih =>
    obtain ⟨a, w⟩ := p
    unfold tabPut
    split
    · simp [tabFind]
    · split
      · simp [tabFind]
      · rename_i h1 h2
        simp [tabFind, h1, h2, ih]

/-- Every other entry stays. -/
theorem tabFind_tabPut_other {α : Type} (t : Tab α) {k m : Nat} (v : α) (h : m ≠ k) :
    tabFind (tabPut t k v) m = tabFind t m := by
  induction t with
  | nil => simp [tabPut, tabFind, h]
  | cons p t ih =>
    obtain ⟨a, w⟩ := p
    unfold tabPut
    split
    · rename_i h1
      subst h1
      simp [tabFind, h]
    · split
      · rename_i h1 h2
        by_cases hm : m < k
        · have : m ≠ a ∧ m < a := by omega
          simp [tabFind, h, hm, this]
        · simp [tabFind, h, hm]
      · simp only [tabFind, ih]

/-- The value just written is read. -/
@[simp] theorem tabGet_tabPut_self {α : Type} (t : Tab α) (k : Nat) (v d : α) : tabGet (tabPut t k v) k d = v := by
  simp [tabGet]

/-- Every other value stays. -/
theorem tabGet_tabPut_other {α : Type} (t : Tab α) {k m : Nat} (v d : α) (h : m ≠ k) :
    tabGet (tabPut t k v) m d = tabGet t m d := by
  simp [tabGet, tabFind_tabPut_other t v h]

/-- The value just changed is read. -/
@[simp] theorem tabGet_tabMod_self {α : Type} (t : Tab α) (k : Nat) (d : α) (f : α → α) :
    tabGet (tabMod t k d f) k d = f (tabGet t k d) := by
  simp [tabMod]

/-- Every other value stays. -/
theorem tabGet_tabMod_other {α : Type} (t : Tab α) {k m : Nat} (d : α) (f : α → α) (h : m ≠ k) :
    tabGet (tabMod t k d f) m d = tabGet t m d := by
  simp [tabMod, tabGet_tabPut_other t _ d h]

/-- Nothing stands below the least key. -/
theorem tabFind_below {α : Type} {lo n : Nat} (t : Tab α) (h : tabWfFrom lo t = true) (hn : n < lo) : tabFind t n = none := by
  cases t with
  | nil => rfl
  | cons p t =>
    obtain ⟨a, w⟩ := p
    simp only [tabWfFrom, Bool.and_eq_true, decide_eq_true_eq] at h
    have : n ≠ a ∧ n < a := by omega
    simp [tabFind, this]

/-- A write keeps the keys rising. -/
theorem tabPut_wf {α : Type} {lo k : Nat} (t : Tab α) (v : α) (h : tabWfFrom lo t = true) (hk : lo ≤ k) :
    tabWfFrom lo (tabPut t k v) = true := by
  induction t generalizing lo with
  | nil => simp [tabPut, tabWfFrom, hk]
  | cons p t ih =>
    obtain ⟨a, w⟩ := p
    simp only [tabWfFrom, Bool.and_eq_true, decide_eq_true_eq] at h
    unfold tabPut
    split
    · rename_i h1
      subst h1
      simp [tabWfFrom, hk, h.2]
    · split
      · rename_i h1 h2
        simp [tabWfFrom, hk, h.2]
        omega
      · rename_i h1 h2
        simp [tabWfFrom, h.1, ih h.2 (by omega)]

/-- A key set is found. -/
@[simp] theorem setHas_setIns_self (t : List Nat) (n : Nat) : setHas (setIns t n) n = true := by
  induction t with
  | nil => simp [setIns, setHas]
  | cons k t ih =>
    unfold setIns
    split
    · rename_i h; subst h; simp [setHas]
    · split
      · simp [setHas]
      · rename_i h1 h2; simp [setHas, h1, h2, ih]

/-- Every other key stays as it was. -/
theorem setHas_setIns_other (t : List Nat) {n m : Nat} (h : m ≠ n) : setHas (setIns t n) m = setHas t m := by
  induction t with
  | nil => simp [setIns, setHas, h]
  | cons k t ih =>
    unfold setIns
    split
    · rfl
    · split
      · rename_i h1 h2
        by_cases hm : m < n
        · have : m ≠ k ∧ m < k := by omega
          simp [setHas, h, hm, this]
        · simp [setHas, h, hm]
      · simp only [setHas, ih]

end Sys2Proof.Machine
end

