-- ==== Sys2Proof/Laws/State.lean ====
section
/-! SUPPORT. What each update of the state leaves as it was, field by field, and what it gives where it
writes. -/

namespace Sys2Proof.Machine

/-! ## `State.modSlot` -/

@[simp] theorem State.modSlot_mem (s : State) (k : Nat) (f : Slot → Slot) : (s.modSlot k f).mem = s.mem := rfl
@[simp] theorem State.modSlot_empties (s : State) (k : Nat) (f : Slot → Slot) : (s.modSlot k f).empties = s.empties := rfl
@[simp] theorem State.modSlot_poison (s : State) (k : Nat) (f : Slot → Slot) : (s.modSlot k f).poison = s.poison := rfl
@[simp] theorem State.modSlot_modules (s : State) (k : Nat) (f : Slot → Slot) : (s.modSlot k f).modules = s.modules := rfl
@[simp] theorem State.modSlot_dies (s : State) (k : Nat) (f : Slot → Slot) : (s.modSlot k f).dies = s.dies := rfl
@[simp] theorem State.modSlot_clusters (s : State) (k : Nat) (f : Slot → Slot) : (s.modSlot k f).clusters = s.clusters := rfl
@[simp] theorem State.modSlot_cores (s : State) (k : Nat) (f : Slot → Slot) : (s.modSlot k f).cores = s.cores := rfl
@[simp] theorem State.modSlot_words (s : State) (k : Nat) (f : Slot → Slot) : (s.modSlot k f).words = s.words := rfl
@[simp] theorem State.modSlot_waits (s : State) (k : Nat) (f : Slot → Slot) : (s.modSlot k f).waits = s.waits := rfl
@[simp] theorem State.modSlot_switches (s : State) (k : Nat) (f : Slot → Slot) : (s.modSlot k f).switches = s.switches := rfl
@[simp] theorem State.modSlot_ages (s : State) (k : Nat) (f : Slot → Slot) : (s.modSlot k f).ages = s.ages := rfl
@[simp] theorem State.modSlot_recent (s : State) (k : Nat) (f : Slot → Slot) : (s.modSlot k f).recent = s.recent := rfl
@[simp] theorem State.modSlot_walks (s : State) (k : Nat) (f : Slot → Slot) : (s.modSlot k f).walks = s.walks := rfl
@[simp] theorem State.modSlot_copies (s : State) (k : Nat) (f : Slot → Slot) : (s.modSlot k f).copies = s.copies := rfl
@[simp] theorem State.modSlot_launches (s : State) (k : Nat) (f : Slot → Slot) : (s.modSlot k f).launches = s.launches := rfl
@[simp] theorem State.modSlot_phases (s : State) (k : Nat) (f : Slot → Slot) : (s.modSlot k f).phases = s.phases := rfl
@[simp] theorem State.modSlot_collectives (s : State) (k : Nat) (f : Slot → Slot) : (s.modSlot k f).collectives = s.collectives := rfl
@[simp] theorem State.modSlot_net (s : State) (k : Nat) (f : Slot → Slot) : (s.modSlot k f).net = s.net := rfl
@[simp] theorem State.modSlot_routes (s : State) (k : Nat) (f : Slot → Slot) : (s.modSlot k f).routes = s.routes := rfl
@[simp] theorem State.modSlot_now (s : State) (k : Nat) (f : Slot → Slot) : (s.modSlot k f).now = s.now := rfl
@[simp] theorem State.modSlot_turns (s : State) (k : Nat) (f : Slot → Slot) : (s.modSlot k f).turns = s.turns := rfl
@[simp] theorem State.modSlot_focus (s : State) (k : Nat) (f : Slot → Slot) : (s.modSlot k f).focus = s.focus := rfl
@[simp] theorem State.modSlot_nextId (s : State) (k : Nat) (f : Slot → Slot) : (s.modSlot k f).nextId = s.nextId := rfl
@[simp] theorem State.modSlot_fresh (s : State) (k : Nat) (f : Slot → Slot) : (s.modSlot k f).fresh = s.fresh := rfl

/-! ## `State.modInst` -/

@[simp] theorem State.modInst_mem (s : State) (k : Nat) (f : Inst → Inst) : (s.modInst k f).mem = s.mem := rfl
@[simp] theorem State.modInst_empties (s : State) (k : Nat) (f : Inst → Inst) : (s.modInst k f).empties = s.empties := rfl
@[simp] theorem State.modInst_poison (s : State) (k : Nat) (f : Inst → Inst) : (s.modInst k f).poison = s.poison := rfl
@[simp] theorem State.modInst_modules (s : State) (k : Nat) (f : Inst → Inst) : (s.modInst k f).modules = s.modules := rfl
@[simp] theorem State.modInst_dies (s : State) (k : Nat) (f : Inst → Inst) : (s.modInst k f).dies = s.dies := rfl
@[simp] theorem State.modInst_clusters (s : State) (k : Nat) (f : Inst → Inst) : (s.modInst k f).clusters = s.clusters := rfl
@[simp] theorem State.modInst_cores (s : State) (k : Nat) (f : Inst → Inst) : (s.modInst k f).cores = s.cores := rfl
@[simp] theorem State.modInst_words (s : State) (k : Nat) (f : Inst → Inst) : (s.modInst k f).words = s.words := rfl
@[simp] theorem State.modInst_waits (s : State) (k : Nat) (f : Inst → Inst) : (s.modInst k f).waits = s.waits := rfl
@[simp] theorem State.modInst_switches (s : State) (k : Nat) (f : Inst → Inst) : (s.modInst k f).switches = s.switches := rfl
@[simp] theorem State.modInst_ages (s : State) (k : Nat) (f : Inst → Inst) : (s.modInst k f).ages = s.ages := rfl
@[simp] theorem State.modInst_recent (s : State) (k : Nat) (f : Inst → Inst) : (s.modInst k f).recent = s.recent := rfl
@[simp] theorem State.modInst_walks (s : State) (k : Nat) (f : Inst → Inst) : (s.modInst k f).walks = s.walks := rfl
@[simp] theorem State.modInst_copies (s : State) (k : Nat) (f : Inst → Inst) : (s.modInst k f).copies = s.copies := rfl
@[simp] theorem State.modInst_launches (s : State) (k : Nat) (f : Inst → Inst) : (s.modInst k f).launches = s.launches := rfl
@[simp] theorem State.modInst_phases (s : State) (k : Nat) (f : Inst → Inst) : (s.modInst k f).phases = s.phases := rfl
@[simp] theorem State.modInst_collectives (s : State) (k : Nat) (f : Inst → Inst) : (s.modInst k f).collectives = s.collectives := rfl
@[simp] theorem State.modInst_net (s : State) (k : Nat) (f : Inst → Inst) : (s.modInst k f).net = s.net := rfl
@[simp] theorem State.modInst_routes (s : State) (k : Nat) (f : Inst → Inst) : (s.modInst k f).routes = s.routes := rfl
@[simp] theorem State.modInst_now (s : State) (k : Nat) (f : Inst → Inst) : (s.modInst k f).now = s.now := rfl
@[simp] theorem State.modInst_turns (s : State) (k : Nat) (f : Inst → Inst) : (s.modInst k f).turns = s.turns := rfl
@[simp] theorem State.modInst_focus (s : State) (k : Nat) (f : Inst → Inst) : (s.modInst k f).focus = s.focus := rfl
@[simp] theorem State.modInst_nextId (s : State) (k : Nat) (f : Inst → Inst) : (s.modInst k f).nextId = s.nextId := rfl
@[simp] theorem State.modInst_fresh (s : State) (k : Nat) (f : Inst → Inst) : (s.modInst k f).fresh = s.fresh := rfl

/-! ## `State.modCore` -/

@[simp] theorem State.modCore_mem (s : State) (k : Nat) (f : Core → Core) : (s.modCore k f).mem = s.mem := rfl
@[simp] theorem State.modCore_empties (s : State) (k : Nat) (f : Core → Core) : (s.modCore k f).empties = s.empties := rfl
@[simp] theorem State.modCore_poison (s : State) (k : Nat) (f : Core → Core) : (s.modCore k f).poison = s.poison := rfl
@[simp] theorem State.modCore_modules (s : State) (k : Nat) (f : Core → Core) : (s.modCore k f).modules = s.modules := rfl
@[simp] theorem State.modCore_dies (s : State) (k : Nat) (f : Core → Core) : (s.modCore k f).dies = s.dies := rfl
@[simp] theorem State.modCore_clusters (s : State) (k : Nat) (f : Core → Core) : (s.modCore k f).clusters = s.clusters := rfl
@[simp] theorem State.modCore_slots (s : State) (k : Nat) (f : Core → Core) : (s.modCore k f).slots = s.slots := rfl
@[simp] theorem State.modCore_words (s : State) (k : Nat) (f : Core → Core) : (s.modCore k f).words = s.words := rfl
@[simp] theorem State.modCore_waits (s : State) (k : Nat) (f : Core → Core) : (s.modCore k f).waits = s.waits := rfl
@[simp] theorem State.modCore_switches (s : State) (k : Nat) (f : Core → Core) : (s.modCore k f).switches = s.switches := rfl
@[simp] theorem State.modCore_ages (s : State) (k : Nat) (f : Core → Core) : (s.modCore k f).ages = s.ages := rfl
@[simp] theorem State.modCore_recent (s : State) (k : Nat) (f : Core → Core) : (s.modCore k f).recent = s.recent := rfl
@[simp] theorem State.modCore_walks (s : State) (k : Nat) (f : Core → Core) : (s.modCore k f).walks = s.walks := rfl
@[simp] theorem State.modCore_copies (s : State) (k : Nat) (f : Core → Core) : (s.modCore k f).copies = s.copies := rfl
@[simp] theorem State.modCore_launches (s : State) (k : Nat) (f : Core → Core) : (s.modCore k f).launches = s.launches := rfl
@[simp] theorem State.modCore_phases (s : State) (k : Nat) (f : Core → Core) : (s.modCore k f).phases = s.phases := rfl
@[simp] theorem State.modCore_collectives (s : State) (k : Nat) (f : Core → Core) : (s.modCore k f).collectives = s.collectives := rfl
@[simp] theorem State.modCore_net (s : State) (k : Nat) (f : Core → Core) : (s.modCore k f).net = s.net := rfl
@[simp] theorem State.modCore_routes (s : State) (k : Nat) (f : Core → Core) : (s.modCore k f).routes = s.routes := rfl
@[simp] theorem State.modCore_now (s : State) (k : Nat) (f : Core → Core) : (s.modCore k f).now = s.now := rfl
@[simp] theorem State.modCore_turns (s : State) (k : Nat) (f : Core → Core) : (s.modCore k f).turns = s.turns := rfl
@[simp] theorem State.modCore_focus (s : State) (k : Nat) (f : Core → Core) : (s.modCore k f).focus = s.focus := rfl
@[simp] theorem State.modCore_nextId (s : State) (k : Nat) (f : Core → Core) : (s.modCore k f).nextId = s.nextId := rfl
@[simp] theorem State.modCore_fresh (s : State) (k : Nat) (f : Core → Core) : (s.modCore k f).fresh = s.fresh := rfl

/-! ## `State.modCluster` -/

@[simp] theorem State.modCluster_mem (s : State) (k : Nat) (f : Cluster → Cluster) : (s.modCluster k f).mem = s.mem := rfl
@[simp] theorem State.modCluster_empties (s : State) (k : Nat) (f : Cluster → Cluster) : (s.modCluster k f).empties = s.empties := rfl
@[simp] theorem State.modCluster_poison (s : State) (k : Nat) (f : Cluster → Cluster) : (s.modCluster k f).poison = s.poison := rfl
@[simp] theorem State.modCluster_modules (s : State) (k : Nat) (f : Cluster → Cluster) : (s.modCluster k f).modules = s.modules := rfl
@[simp] theorem State.modCluster_dies (s : State) (k : Nat) (f : Cluster → Cluster) : (s.modCluster k f).dies = s.dies := rfl
@[simp] theorem State.modCluster_cores (s : State) (k : Nat) (f : Cluster → Cluster) : (s.modCluster k f).cores = s.cores := rfl
@[simp] theorem State.modCluster_slots (s : State) (k : Nat) (f : Cluster → Cluster) : (s.modCluster k f).slots = s.slots := rfl
@[simp] theorem State.modCluster_words (s : State) (k : Nat) (f : Cluster → Cluster) : (s.modCluster k f).words = s.words := rfl
@[simp] theorem State.modCluster_waits (s : State) (k : Nat) (f : Cluster → Cluster) : (s.modCluster k f).waits = s.waits := rfl
@[simp] theorem State.modCluster_switches (s : State) (k : Nat) (f : Cluster → Cluster) : (s.modCluster k f).switches = s.switches := rfl
@[simp] theorem State.modCluster_ages (s : State) (k : Nat) (f : Cluster → Cluster) : (s.modCluster k f).ages = s.ages := rfl
@[simp] theorem State.modCluster_recent (s : State) (k : Nat) (f : Cluster → Cluster) : (s.modCluster k f).recent = s.recent := rfl
@[simp] theorem State.modCluster_walks (s : State) (k : Nat) (f : Cluster → Cluster) : (s.modCluster k f).walks = s.walks := rfl
@[simp] theorem State.modCluster_copies (s : State) (k : Nat) (f : Cluster → Cluster) : (s.modCluster k f).copies = s.copies := rfl
@[simp] theorem State.modCluster_launches (s : State) (k : Nat) (f : Cluster → Cluster) : (s.modCluster k f).launches = s.launches := rfl
@[simp] theorem State.modCluster_phases (s : State) (k : Nat) (f : Cluster → Cluster) : (s.modCluster k f).phases = s.phases := rfl
@[simp] theorem State.modCluster_collectives (s : State) (k : Nat) (f : Cluster → Cluster) : (s.modCluster k f).collectives = s.collectives := rfl
@[simp] theorem State.modCluster_net (s : State) (k : Nat) (f : Cluster → Cluster) : (s.modCluster k f).net = s.net := rfl
@[simp] theorem State.modCluster_routes (s : State) (k : Nat) (f : Cluster → Cluster) : (s.modCluster k f).routes = s.routes := rfl
@[simp] theorem State.modCluster_now (s : State) (k : Nat) (f : Cluster → Cluster) : (s.modCluster k f).now = s.now := rfl
@[simp] theorem State.modCluster_turns (s : State) (k : Nat) (f : Cluster → Cluster) : (s.modCluster k f).turns = s.turns := rfl
@[simp] theorem State.modCluster_focus (s : State) (k : Nat) (f : Cluster → Cluster) : (s.modCluster k f).focus = s.focus := rfl
@[simp] theorem State.modCluster_nextId (s : State) (k : Nat) (f : Cluster → Cluster) : (s.modCluster k f).nextId = s.nextId := rfl
@[simp] theorem State.modCluster_fresh (s : State) (k : Nat) (f : Cluster → Cluster) : (s.modCluster k f).fresh = s.fresh := rfl

/-! ## `State.modDie` -/

@[simp] theorem State.modDie_mem (s : State) (k : Nat) (f : Die → Die) : (s.modDie k f).mem = s.mem := rfl
@[simp] theorem State.modDie_empties (s : State) (k : Nat) (f : Die → Die) : (s.modDie k f).empties = s.empties := rfl
@[simp] theorem State.modDie_poison (s : State) (k : Nat) (f : Die → Die) : (s.modDie k f).poison = s.poison := rfl
@[simp] theorem State.modDie_modules (s : State) (k : Nat) (f : Die → Die) : (s.modDie k f).modules = s.modules := rfl
@[simp] theorem State.modDie_clusters (s : State) (k : Nat) (f : Die → Die) : (s.modDie k f).clusters = s.clusters := rfl
@[simp] theorem State.modDie_cores (s : State) (k : Nat) (f : Die → Die) : (s.modDie k f).cores = s.cores := rfl
@[simp] theorem State.modDie_slots (s : State) (k : Nat) (f : Die → Die) : (s.modDie k f).slots = s.slots := rfl
@[simp] theorem State.modDie_words (s : State) (k : Nat) (f : Die → Die) : (s.modDie k f).words = s.words := rfl
@[simp] theorem State.modDie_waits (s : State) (k : Nat) (f : Die → Die) : (s.modDie k f).waits = s.waits := rfl
@[simp] theorem State.modDie_switches (s : State) (k : Nat) (f : Die → Die) : (s.modDie k f).switches = s.switches := rfl
@[simp] theorem State.modDie_ages (s : State) (k : Nat) (f : Die → Die) : (s.modDie k f).ages = s.ages := rfl
@[simp] theorem State.modDie_recent (s : State) (k : Nat) (f : Die → Die) : (s.modDie k f).recent = s.recent := rfl
@[simp] theorem State.modDie_walks (s : State) (k : Nat) (f : Die → Die) : (s.modDie k f).walks = s.walks := rfl
@[simp] theorem State.modDie_copies (s : State) (k : Nat) (f : Die → Die) : (s.modDie k f).copies = s.copies := rfl
@[simp] theorem State.modDie_launches (s : State) (k : Nat) (f : Die → Die) : (s.modDie k f).launches = s.launches := rfl
@[simp] theorem State.modDie_phases (s : State) (k : Nat) (f : Die → Die) : (s.modDie k f).phases = s.phases := rfl
@[simp] theorem State.modDie_collectives (s : State) (k : Nat) (f : Die → Die) : (s.modDie k f).collectives = s.collectives := rfl
@[simp] theorem State.modDie_net (s : State) (k : Nat) (f : Die → Die) : (s.modDie k f).net = s.net := rfl
@[simp] theorem State.modDie_routes (s : State) (k : Nat) (f : Die → Die) : (s.modDie k f).routes = s.routes := rfl
@[simp] theorem State.modDie_now (s : State) (k : Nat) (f : Die → Die) : (s.modDie k f).now = s.now := rfl
@[simp] theorem State.modDie_turns (s : State) (k : Nat) (f : Die → Die) : (s.modDie k f).turns = s.turns := rfl
@[simp] theorem State.modDie_focus (s : State) (k : Nat) (f : Die → Die) : (s.modDie k f).focus = s.focus := rfl
@[simp] theorem State.modDie_nextId (s : State) (k : Nat) (f : Die → Die) : (s.modDie k f).nextId = s.nextId := rfl
@[simp] theorem State.modDie_fresh (s : State) (k : Nat) (f : Die → Die) : (s.modDie k f).fresh = s.fresh := rfl

/-! ## `State.modModule` -/

@[simp] theorem State.modModule_mem (s : State) (k : Nat) (f : Module → Module) : (s.modModule k f).mem = s.mem := rfl
@[simp] theorem State.modModule_empties (s : State) (k : Nat) (f : Module → Module) : (s.modModule k f).empties = s.empties := rfl
@[simp] theorem State.modModule_poison (s : State) (k : Nat) (f : Module → Module) : (s.modModule k f).poison = s.poison := rfl
@[simp] theorem State.modModule_dies (s : State) (k : Nat) (f : Module → Module) : (s.modModule k f).dies = s.dies := rfl
@[simp] theorem State.modModule_clusters (s : State) (k : Nat) (f : Module → Module) : (s.modModule k f).clusters = s.clusters := rfl
@[simp] theorem State.modModule_cores (s : State) (k : Nat) (f : Module → Module) : (s.modModule k f).cores = s.cores := rfl
@[simp] theorem State.modModule_slots (s : State) (k : Nat) (f : Module → Module) : (s.modModule k f).slots = s.slots := rfl
@[simp] theorem State.modModule_words (s : State) (k : Nat) (f : Module → Module) : (s.modModule k f).words = s.words := rfl
@[simp] theorem State.modModule_waits (s : State) (k : Nat) (f : Module → Module) : (s.modModule k f).waits = s.waits := rfl
@[simp] theorem State.modModule_switches (s : State) (k : Nat) (f : Module → Module) : (s.modModule k f).switches = s.switches := rfl
@[simp] theorem State.modModule_ages (s : State) (k : Nat) (f : Module → Module) : (s.modModule k f).ages = s.ages := rfl
@[simp] theorem State.modModule_recent (s : State) (k : Nat) (f : Module → Module) : (s.modModule k f).recent = s.recent := rfl
@[simp] theorem State.modModule_walks (s : State) (k : Nat) (f : Module → Module) : (s.modModule k f).walks = s.walks := rfl
@[simp] theorem State.modModule_copies (s : State) (k : Nat) (f : Module → Module) : (s.modModule k f).copies = s.copies := rfl
@[simp] theorem State.modModule_launches (s : State) (k : Nat) (f : Module → Module) : (s.modModule k f).launches = s.launches := rfl
@[simp] theorem State.modModule_phases (s : State) (k : Nat) (f : Module → Module) : (s.modModule k f).phases = s.phases := rfl
@[simp] theorem State.modModule_collectives (s : State) (k : Nat) (f : Module → Module) : (s.modModule k f).collectives = s.collectives := rfl
@[simp] theorem State.modModule_net (s : State) (k : Nat) (f : Module → Module) : (s.modModule k f).net = s.net := rfl
@[simp] theorem State.modModule_routes (s : State) (k : Nat) (f : Module → Module) : (s.modModule k f).routes = s.routes := rfl
@[simp] theorem State.modModule_now (s : State) (k : Nat) (f : Module → Module) : (s.modModule k f).now = s.now := rfl
@[simp] theorem State.modModule_turns (s : State) (k : Nat) (f : Module → Module) : (s.modModule k f).turns = s.turns := rfl
@[simp] theorem State.modModule_focus (s : State) (k : Nat) (f : Module → Module) : (s.modModule k f).focus = s.focus := rfl
@[simp] theorem State.modModule_nextId (s : State) (k : Nat) (f : Module → Module) : (s.modModule k f).nextId = s.nextId := rfl
@[simp] theorem State.modModule_fresh (s : State) (k : Nat) (f : Module → Module) : (s.modModule k f).fresh = s.fresh := rfl

/-! ## `State.modLaunch` -/

@[simp] theorem State.modLaunch_mem (s : State) (k : Nat) (f : Launch → Launch) : (s.modLaunch k f).mem = s.mem := rfl
@[simp] theorem State.modLaunch_empties (s : State) (k : Nat) (f : Launch → Launch) : (s.modLaunch k f).empties = s.empties := rfl
@[simp] theorem State.modLaunch_poison (s : State) (k : Nat) (f : Launch → Launch) : (s.modLaunch k f).poison = s.poison := rfl
@[simp] theorem State.modLaunch_modules (s : State) (k : Nat) (f : Launch → Launch) : (s.modLaunch k f).modules = s.modules := rfl
@[simp] theorem State.modLaunch_dies (s : State) (k : Nat) (f : Launch → Launch) : (s.modLaunch k f).dies = s.dies := rfl
@[simp] theorem State.modLaunch_clusters (s : State) (k : Nat) (f : Launch → Launch) : (s.modLaunch k f).clusters = s.clusters := rfl
@[simp] theorem State.modLaunch_cores (s : State) (k : Nat) (f : Launch → Launch) : (s.modLaunch k f).cores = s.cores := rfl
@[simp] theorem State.modLaunch_slots (s : State) (k : Nat) (f : Launch → Launch) : (s.modLaunch k f).slots = s.slots := rfl
@[simp] theorem State.modLaunch_words (s : State) (k : Nat) (f : Launch → Launch) : (s.modLaunch k f).words = s.words := rfl
@[simp] theorem State.modLaunch_waits (s : State) (k : Nat) (f : Launch → Launch) : (s.modLaunch k f).waits = s.waits := rfl
@[simp] theorem State.modLaunch_switches (s : State) (k : Nat) (f : Launch → Launch) : (s.modLaunch k f).switches = s.switches := rfl
@[simp] theorem State.modLaunch_ages (s : State) (k : Nat) (f : Launch → Launch) : (s.modLaunch k f).ages = s.ages := rfl
@[simp] theorem State.modLaunch_recent (s : State) (k : Nat) (f : Launch → Launch) : (s.modLaunch k f).recent = s.recent := rfl
@[simp] theorem State.modLaunch_walks (s : State) (k : Nat) (f : Launch → Launch) : (s.modLaunch k f).walks = s.walks := rfl
@[simp] theorem State.modLaunch_copies (s : State) (k : Nat) (f : Launch → Launch) : (s.modLaunch k f).copies = s.copies := rfl
@[simp] theorem State.modLaunch_phases (s : State) (k : Nat) (f : Launch → Launch) : (s.modLaunch k f).phases = s.phases := rfl
@[simp] theorem State.modLaunch_collectives (s : State) (k : Nat) (f : Launch → Launch) : (s.modLaunch k f).collectives = s.collectives := rfl
@[simp] theorem State.modLaunch_net (s : State) (k : Nat) (f : Launch → Launch) : (s.modLaunch k f).net = s.net := rfl
@[simp] theorem State.modLaunch_routes (s : State) (k : Nat) (f : Launch → Launch) : (s.modLaunch k f).routes = s.routes := rfl
@[simp] theorem State.modLaunch_now (s : State) (k : Nat) (f : Launch → Launch) : (s.modLaunch k f).now = s.now := rfl
@[simp] theorem State.modLaunch_turns (s : State) (k : Nat) (f : Launch → Launch) : (s.modLaunch k f).turns = s.turns := rfl
@[simp] theorem State.modLaunch_focus (s : State) (k : Nat) (f : Launch → Launch) : (s.modLaunch k f).focus = s.focus := rfl
@[simp] theorem State.modLaunch_nextId (s : State) (k : Nat) (f : Launch → Launch) : (s.modLaunch k f).nextId = s.nextId := rfl
@[simp] theorem State.modLaunch_fresh (s : State) (k : Nat) (f : Launch → Launch) : (s.modLaunch k f).fresh = s.fresh := rfl

/-! ## `State.send` -/

@[simp] theorem State.send_mem (s : State) (m : Msg) : (s.send m).mem = s.mem := rfl
@[simp] theorem State.send_empties (s : State) (m : Msg) : (s.send m).empties = s.empties := rfl
@[simp] theorem State.send_poison (s : State) (m : Msg) : (s.send m).poison = s.poison := rfl
@[simp] theorem State.send_modules (s : State) (m : Msg) : (s.send m).modules = s.modules := rfl
@[simp] theorem State.send_dies (s : State) (m : Msg) : (s.send m).dies = s.dies := rfl
@[simp] theorem State.send_clusters (s : State) (m : Msg) : (s.send m).clusters = s.clusters := rfl
@[simp] theorem State.send_cores (s : State) (m : Msg) : (s.send m).cores = s.cores := rfl
@[simp] theorem State.send_slots (s : State) (m : Msg) : (s.send m).slots = s.slots := rfl
@[simp] theorem State.send_words (s : State) (m : Msg) : (s.send m).words = s.words := rfl
@[simp] theorem State.send_waits (s : State) (m : Msg) : (s.send m).waits = s.waits := rfl
@[simp] theorem State.send_switches (s : State) (m : Msg) : (s.send m).switches = s.switches := rfl
@[simp] theorem State.send_ages (s : State) (m : Msg) : (s.send m).ages = s.ages := rfl
@[simp] theorem State.send_recent (s : State) (m : Msg) : (s.send m).recent = s.recent := rfl
@[simp] theorem State.send_walks (s : State) (m : Msg) : (s.send m).walks = s.walks := rfl
@[simp] theorem State.send_copies (s : State) (m : Msg) : (s.send m).copies = s.copies := rfl
@[simp] theorem State.send_launches (s : State) (m : Msg) : (s.send m).launches = s.launches := rfl
@[simp] theorem State.send_phases (s : State) (m : Msg) : (s.send m).phases = s.phases := rfl
@[simp] theorem State.send_collectives (s : State) (m : Msg) : (s.send m).collectives = s.collectives := rfl
@[simp] theorem State.send_routes (s : State) (m : Msg) : (s.send m).routes = s.routes := rfl
@[simp] theorem State.send_now (s : State) (m : Msg) : (s.send m).now = s.now := rfl
@[simp] theorem State.send_turns (s : State) (m : Msg) : (s.send m).turns = s.turns := rfl
@[simp] theorem State.send_focus (s : State) (m : Msg) : (s.send m).focus = s.focus := rfl
@[simp] theorem State.send_fresh (s : State) (m : Msg) : (s.send m).fresh = s.fresh := rfl

/-! ## `State.drop` -/

@[simp] theorem State.drop_mem (s : State) (id : Nat) : (s.drop id).mem = s.mem := rfl
@[simp] theorem State.drop_empties (s : State) (id : Nat) : (s.drop id).empties = s.empties := rfl
@[simp] theorem State.drop_poison (s : State) (id : Nat) : (s.drop id).poison = s.poison := rfl
@[simp] theorem State.drop_modules (s : State) (id : Nat) : (s.drop id).modules = s.modules := rfl
@[simp] theorem State.drop_dies (s : State) (id : Nat) : (s.drop id).dies = s.dies := rfl
@[simp] theorem State.drop_clusters (s : State) (id : Nat) : (s.drop id).clusters = s.clusters := rfl
@[simp] theorem State.drop_cores (s : State) (id : Nat) : (s.drop id).cores = s.cores := rfl
@[simp] theorem State.drop_slots (s : State) (id : Nat) : (s.drop id).slots = s.slots := rfl
@[simp] theorem State.drop_words (s : State) (id : Nat) : (s.drop id).words = s.words := rfl
@[simp] theorem State.drop_waits (s : State) (id : Nat) : (s.drop id).waits = s.waits := rfl
@[simp] theorem State.drop_switches (s : State) (id : Nat) : (s.drop id).switches = s.switches := rfl
@[simp] theorem State.drop_ages (s : State) (id : Nat) : (s.drop id).ages = s.ages := rfl
@[simp] theorem State.drop_recent (s : State) (id : Nat) : (s.drop id).recent = s.recent := rfl
@[simp] theorem State.drop_walks (s : State) (id : Nat) : (s.drop id).walks = s.walks := rfl
@[simp] theorem State.drop_copies (s : State) (id : Nat) : (s.drop id).copies = s.copies := rfl
@[simp] theorem State.drop_launches (s : State) (id : Nat) : (s.drop id).launches = s.launches := rfl
@[simp] theorem State.drop_phases (s : State) (id : Nat) : (s.drop id).phases = s.phases := rfl
@[simp] theorem State.drop_collectives (s : State) (id : Nat) : (s.drop id).collectives = s.collectives := rfl
@[simp] theorem State.drop_now (s : State) (id : Nat) : (s.drop id).now = s.now := rfl
@[simp] theorem State.drop_turns (s : State) (id : Nat) : (s.drop id).turns = s.turns := rfl
@[simp] theorem State.drop_focus (s : State) (id : Nat) : (s.drop id).focus = s.focus := rfl
@[simp] theorem State.drop_nextId (s : State) (id : Nat) : (s.drop id).nextId = s.nextId := rfl
@[simp] theorem State.drop_fresh (s : State) (id : Nat) : (s.drop id).fresh = s.fresh := rfl

/-! ## `State.putBytes` -/

@[simp] theorem State.putBytes_empties (s : State) (pa : Nat) (bs : List Byte) : (s.putBytes pa bs).empties = s.empties := rfl
@[simp] theorem State.putBytes_poison (s : State) (pa : Nat) (bs : List Byte) : (s.putBytes pa bs).poison = s.poison := rfl
@[simp] theorem State.putBytes_modules (s : State) (pa : Nat) (bs : List Byte) : (s.putBytes pa bs).modules = s.modules := rfl
@[simp] theorem State.putBytes_dies (s : State) (pa : Nat) (bs : List Byte) : (s.putBytes pa bs).dies = s.dies := rfl
@[simp] theorem State.putBytes_clusters (s : State) (pa : Nat) (bs : List Byte) : (s.putBytes pa bs).clusters = s.clusters := rfl
@[simp] theorem State.putBytes_cores (s : State) (pa : Nat) (bs : List Byte) : (s.putBytes pa bs).cores = s.cores := rfl
@[simp] theorem State.putBytes_slots (s : State) (pa : Nat) (bs : List Byte) : (s.putBytes pa bs).slots = s.slots := rfl
@[simp] theorem State.putBytes_words (s : State) (pa : Nat) (bs : List Byte) : (s.putBytes pa bs).words = s.words := rfl
@[simp] theorem State.putBytes_waits (s : State) (pa : Nat) (bs : List Byte) : (s.putBytes pa bs).waits = s.waits := rfl
@[simp] theorem State.putBytes_switches (s : State) (pa : Nat) (bs : List Byte) : (s.putBytes pa bs).switches = s.switches := rfl
@[simp] theorem State.putBytes_ages (s : State) (pa : Nat) (bs : List Byte) : (s.putBytes pa bs).ages = s.ages := rfl
@[simp] theorem State.putBytes_recent (s : State) (pa : Nat) (bs : List Byte) : (s.putBytes pa bs).recent = s.recent := rfl
@[simp] theorem State.putBytes_walks (s : State) (pa : Nat) (bs : List Byte) : (s.putBytes pa bs).walks = s.walks := rfl
@[simp] theorem State.putBytes_copies (s : State) (pa : Nat) (bs : List Byte) : (s.putBytes pa bs).copies = s.copies := rfl
@[simp] theorem State.putBytes_launches (s : State) (pa : Nat) (bs : List Byte) : (s.putBytes pa bs).launches = s.launches := rfl
@[simp] theorem State.putBytes_phases (s : State) (pa : Nat) (bs : List Byte) : (s.putBytes pa bs).phases = s.phases := rfl
@[simp] theorem State.putBytes_collectives (s : State) (pa : Nat) (bs : List Byte) : (s.putBytes pa bs).collectives = s.collectives := rfl
@[simp] theorem State.putBytes_net (s : State) (pa : Nat) (bs : List Byte) : (s.putBytes pa bs).net = s.net := rfl
@[simp] theorem State.putBytes_routes (s : State) (pa : Nat) (bs : List Byte) : (s.putBytes pa bs).routes = s.routes := rfl
@[simp] theorem State.putBytes_now (s : State) (pa : Nat) (bs : List Byte) : (s.putBytes pa bs).now = s.now := rfl
@[simp] theorem State.putBytes_turns (s : State) (pa : Nat) (bs : List Byte) : (s.putBytes pa bs).turns = s.turns := rfl
@[simp] theorem State.putBytes_focus (s : State) (pa : Nat) (bs : List Byte) : (s.putBytes pa bs).focus = s.focus := rfl
@[simp] theorem State.putBytes_nextId (s : State) (pa : Nat) (bs : List Byte) : (s.putBytes pa bs).nextId = s.nextId := rfl
@[simp] theorem State.putBytes_fresh (s : State) (pa : Nat) (bs : List Byte) : (s.putBytes pa bs).fresh = s.fresh := rfl

/-! ## `State.setFull` -/

@[simp] theorem State.setFull_mem (s : State) (pa : Nat) (full : Bool) : (s.setFull pa full).mem = s.mem := rfl
@[simp] theorem State.setFull_poison (s : State) (pa : Nat) (full : Bool) : (s.setFull pa full).poison = s.poison := rfl
@[simp] theorem State.setFull_modules (s : State) (pa : Nat) (full : Bool) : (s.setFull pa full).modules = s.modules := rfl
@[simp] theorem State.setFull_dies (s : State) (pa : Nat) (full : Bool) : (s.setFull pa full).dies = s.dies := rfl
@[simp] theorem State.setFull_clusters (s : State) (pa : Nat) (full : Bool) : (s.setFull pa full).clusters = s.clusters := rfl
@[simp] theorem State.setFull_cores (s : State) (pa : Nat) (full : Bool) : (s.setFull pa full).cores = s.cores := rfl
@[simp] theorem State.setFull_slots (s : State) (pa : Nat) (full : Bool) : (s.setFull pa full).slots = s.slots := rfl
@[simp] theorem State.setFull_words (s : State) (pa : Nat) (full : Bool) : (s.setFull pa full).words = s.words := rfl
@[simp] theorem State.setFull_waits (s : State) (pa : Nat) (full : Bool) : (s.setFull pa full).waits = s.waits := rfl
@[simp] theorem State.setFull_switches (s : State) (pa : Nat) (full : Bool) : (s.setFull pa full).switches = s.switches := rfl
@[simp] theorem State.setFull_ages (s : State) (pa : Nat) (full : Bool) : (s.setFull pa full).ages = s.ages := rfl
@[simp] theorem State.setFull_recent (s : State) (pa : Nat) (full : Bool) : (s.setFull pa full).recent = s.recent := rfl
@[simp] theorem State.setFull_walks (s : State) (pa : Nat) (full : Bool) : (s.setFull pa full).walks = s.walks := rfl
@[simp] theorem State.setFull_copies (s : State) (pa : Nat) (full : Bool) : (s.setFull pa full).copies = s.copies := rfl
@[simp] theorem State.setFull_launches (s : State) (pa : Nat) (full : Bool) : (s.setFull pa full).launches = s.launches := rfl
@[simp] theorem State.setFull_phases (s : State) (pa : Nat) (full : Bool) : (s.setFull pa full).phases = s.phases := rfl
@[simp] theorem State.setFull_collectives (s : State) (pa : Nat) (full : Bool) : (s.setFull pa full).collectives = s.collectives := rfl
@[simp] theorem State.setFull_net (s : State) (pa : Nat) (full : Bool) : (s.setFull pa full).net = s.net := rfl
@[simp] theorem State.setFull_routes (s : State) (pa : Nat) (full : Bool) : (s.setFull pa full).routes = s.routes := rfl
@[simp] theorem State.setFull_now (s : State) (pa : Nat) (full : Bool) : (s.setFull pa full).now = s.now := rfl
@[simp] theorem State.setFull_turns (s : State) (pa : Nat) (full : Bool) : (s.setFull pa full).turns = s.turns := rfl
@[simp] theorem State.setFull_focus (s : State) (pa : Nat) (full : Bool) : (s.setFull pa full).focus = s.focus := rfl
@[simp] theorem State.setFull_nextId (s : State) (pa : Nat) (full : Bool) : (s.setFull pa full).nextId = s.nextId := rfl
@[simp] theorem State.setFull_fresh (s : State) (pa : Nat) (full : Bool) : (s.setFull pa full).fresh = s.fresh := rfl

/-! ## `State.setUnitPoison` -/

@[simp] theorem State.setUnitPoison_mem (s : State) (pa : Nat) (p : Bool) : (s.setUnitPoison pa p).mem = s.mem := rfl
@[simp] theorem State.setUnitPoison_empties (s : State) (pa : Nat) (p : Bool) : (s.setUnitPoison pa p).empties = s.empties := rfl
@[simp] theorem State.setUnitPoison_modules (s : State) (pa : Nat) (p : Bool) : (s.setUnitPoison pa p).modules = s.modules := rfl
@[simp] theorem State.setUnitPoison_dies (s : State) (pa : Nat) (p : Bool) : (s.setUnitPoison pa p).dies = s.dies := rfl
@[simp] theorem State.setUnitPoison_clusters (s : State) (pa : Nat) (p : Bool) : (s.setUnitPoison pa p).clusters = s.clusters := rfl
@[simp] theorem State.setUnitPoison_cores (s : State) (pa : Nat) (p : Bool) : (s.setUnitPoison pa p).cores = s.cores := rfl
@[simp] theorem State.setUnitPoison_slots (s : State) (pa : Nat) (p : Bool) : (s.setUnitPoison pa p).slots = s.slots := rfl
@[simp] theorem State.setUnitPoison_words (s : State) (pa : Nat) (p : Bool) : (s.setUnitPoison pa p).words = s.words := rfl
@[simp] theorem State.setUnitPoison_waits (s : State) (pa : Nat) (p : Bool) : (s.setUnitPoison pa p).waits = s.waits := rfl
@[simp] theorem State.setUnitPoison_switches (s : State) (pa : Nat) (p : Bool) : (s.setUnitPoison pa p).switches = s.switches := rfl
@[simp] theorem State.setUnitPoison_ages (s : State) (pa : Nat) (p : Bool) : (s.setUnitPoison pa p).ages = s.ages := rfl
@[simp] theorem State.setUnitPoison_recent (s : State) (pa : Nat) (p : Bool) : (s.setUnitPoison pa p).recent = s.recent := rfl
@[simp] theorem State.setUnitPoison_walks (s : State) (pa : Nat) (p : Bool) : (s.setUnitPoison pa p).walks = s.walks := rfl
@[simp] theorem State.setUnitPoison_copies (s : State) (pa : Nat) (p : Bool) : (s.setUnitPoison pa p).copies = s.copies := rfl
@[simp] theorem State.setUnitPoison_launches (s : State) (pa : Nat) (p : Bool) : (s.setUnitPoison pa p).launches = s.launches := rfl
@[simp] theorem State.setUnitPoison_phases (s : State) (pa : Nat) (p : Bool) : (s.setUnitPoison pa p).phases = s.phases := rfl
@[simp] theorem State.setUnitPoison_collectives (s : State) (pa : Nat) (p : Bool) : (s.setUnitPoison pa p).collectives = s.collectives := rfl
@[simp] theorem State.setUnitPoison_net (s : State) (pa : Nat) (p : Bool) : (s.setUnitPoison pa p).net = s.net := rfl
@[simp] theorem State.setUnitPoison_routes (s : State) (pa : Nat) (p : Bool) : (s.setUnitPoison pa p).routes = s.routes := rfl
@[simp] theorem State.setUnitPoison_now (s : State) (pa : Nat) (p : Bool) : (s.setUnitPoison pa p).now = s.now := rfl
@[simp] theorem State.setUnitPoison_turns (s : State) (pa : Nat) (p : Bool) : (s.setUnitPoison pa p).turns = s.turns := rfl
@[simp] theorem State.setUnitPoison_focus (s : State) (pa : Nat) (p : Bool) : (s.setUnitPoison pa p).focus = s.focus := rfl
@[simp] theorem State.setUnitPoison_nextId (s : State) (pa : Nat) (p : Bool) : (s.setUnitPoison pa p).nextId = s.nextId := rfl
@[simp] theorem State.setUnitPoison_fresh (s : State) (pa : Nat) (p : Bool) : (s.setUnitPoison pa p).fresh = s.fresh := rfl

/-! ## `State.setWordPoison` -/

@[simp] theorem State.setWordPoison_mem (s : State) (pa : Nat) (p : Bool) : (s.setWordPoison pa p).mem = s.mem := rfl
@[simp] theorem State.setWordPoison_empties (s : State) (pa : Nat) (p : Bool) : (s.setWordPoison pa p).empties = s.empties := rfl
@[simp] theorem State.setWordPoison_modules (s : State) (pa : Nat) (p : Bool) : (s.setWordPoison pa p).modules = s.modules := rfl
@[simp] theorem State.setWordPoison_dies (s : State) (pa : Nat) (p : Bool) : (s.setWordPoison pa p).dies = s.dies := rfl
@[simp] theorem State.setWordPoison_clusters (s : State) (pa : Nat) (p : Bool) : (s.setWordPoison pa p).clusters = s.clusters := rfl
@[simp] theorem State.setWordPoison_cores (s : State) (pa : Nat) (p : Bool) : (s.setWordPoison pa p).cores = s.cores := rfl
@[simp] theorem State.setWordPoison_slots (s : State) (pa : Nat) (p : Bool) : (s.setWordPoison pa p).slots = s.slots := rfl
@[simp] theorem State.setWordPoison_words (s : State) (pa : Nat) (p : Bool) : (s.setWordPoison pa p).words = s.words := rfl
@[simp] theorem State.setWordPoison_waits (s : State) (pa : Nat) (p : Bool) : (s.setWordPoison pa p).waits = s.waits := rfl
@[simp] theorem State.setWordPoison_switches (s : State) (pa : Nat) (p : Bool) : (s.setWordPoison pa p).switches = s.switches := rfl
@[simp] theorem State.setWordPoison_ages (s : State) (pa : Nat) (p : Bool) : (s.setWordPoison pa p).ages = s.ages := rfl
@[simp] theorem State.setWordPoison_recent (s : State) (pa : Nat) (p : Bool) : (s.setWordPoison pa p).recent = s.recent := rfl
@[simp] theorem State.setWordPoison_walks (s : State) (pa : Nat) (p : Bool) : (s.setWordPoison pa p).walks = s.walks := rfl
@[simp] theorem State.setWordPoison_copies (s : State) (pa : Nat) (p : Bool) : (s.setWordPoison pa p).copies = s.copies := rfl
@[simp] theorem State.setWordPoison_launches (s : State) (pa : Nat) (p : Bool) : (s.setWordPoison pa p).launches = s.launches := rfl
@[simp] theorem State.setWordPoison_phases (s : State) (pa : Nat) (p : Bool) : (s.setWordPoison pa p).phases = s.phases := rfl
@[simp] theorem State.setWordPoison_collectives (s : State) (pa : Nat) (p : Bool) : (s.setWordPoison pa p).collectives = s.collectives := rfl
@[simp] theorem State.setWordPoison_net (s : State) (pa : Nat) (p : Bool) : (s.setWordPoison pa p).net = s.net := rfl
@[simp] theorem State.setWordPoison_routes (s : State) (pa : Nat) (p : Bool) : (s.setWordPoison pa p).routes = s.routes := rfl
@[simp] theorem State.setWordPoison_now (s : State) (pa : Nat) (p : Bool) : (s.setWordPoison pa p).now = s.now := rfl
@[simp] theorem State.setWordPoison_turns (s : State) (pa : Nat) (p : Bool) : (s.setWordPoison pa p).turns = s.turns := rfl
@[simp] theorem State.setWordPoison_focus (s : State) (pa : Nat) (p : Bool) : (s.setWordPoison pa p).focus = s.focus := rfl
@[simp] theorem State.setWordPoison_nextId (s : State) (pa : Nat) (p : Bool) : (s.setWordPoison pa p).nextId = s.nextId := rfl
@[simp] theorem State.setWordPoison_fresh (s : State) (pa : Nat) (p : Bool) : (s.setWordPoison pa p).fresh = s.fresh := rfl

/-! ## `State.zeroBytes` -/

@[simp] theorem State.zeroBytes_empties (s : State) (lo hi : Nat) : (s.zeroBytes lo hi).empties = s.empties := rfl
@[simp] theorem State.zeroBytes_poison (s : State) (lo hi : Nat) : (s.zeroBytes lo hi).poison = s.poison := rfl
@[simp] theorem State.zeroBytes_modules (s : State) (lo hi : Nat) : (s.zeroBytes lo hi).modules = s.modules := rfl
@[simp] theorem State.zeroBytes_dies (s : State) (lo hi : Nat) : (s.zeroBytes lo hi).dies = s.dies := rfl
@[simp] theorem State.zeroBytes_clusters (s : State) (lo hi : Nat) : (s.zeroBytes lo hi).clusters = s.clusters := rfl
@[simp] theorem State.zeroBytes_cores (s : State) (lo hi : Nat) : (s.zeroBytes lo hi).cores = s.cores := rfl
@[simp] theorem State.zeroBytes_slots (s : State) (lo hi : Nat) : (s.zeroBytes lo hi).slots = s.slots := rfl
@[simp] theorem State.zeroBytes_words (s : State) (lo hi : Nat) : (s.zeroBytes lo hi).words = s.words := rfl
@[simp] theorem State.zeroBytes_waits (s : State) (lo hi : Nat) : (s.zeroBytes lo hi).waits = s.waits := rfl
@[simp] theorem State.zeroBytes_switches (s : State) (lo hi : Nat) : (s.zeroBytes lo hi).switches = s.switches := rfl
@[simp] theorem State.zeroBytes_ages (s : State) (lo hi : Nat) : (s.zeroBytes lo hi).ages = s.ages := rfl
@[simp] theorem State.zeroBytes_recent (s : State) (lo hi : Nat) : (s.zeroBytes lo hi).recent = s.recent := rfl
@[simp] theorem State.zeroBytes_walks (s : State) (lo hi : Nat) : (s.zeroBytes lo hi).walks = s.walks := rfl
@[simp] theorem State.zeroBytes_copies (s : State) (lo hi : Nat) : (s.zeroBytes lo hi).copies = s.copies := rfl
@[simp] theorem State.zeroBytes_launches (s : State) (lo hi : Nat) : (s.zeroBytes lo hi).launches = s.launches := rfl
@[simp] theorem State.zeroBytes_phases (s : State) (lo hi : Nat) : (s.zeroBytes lo hi).phases = s.phases := rfl
@[simp] theorem State.zeroBytes_collectives (s : State) (lo hi : Nat) : (s.zeroBytes lo hi).collectives = s.collectives := rfl
@[simp] theorem State.zeroBytes_net (s : State) (lo hi : Nat) : (s.zeroBytes lo hi).net = s.net := rfl
@[simp] theorem State.zeroBytes_routes (s : State) (lo hi : Nat) : (s.zeroBytes lo hi).routes = s.routes := rfl
@[simp] theorem State.zeroBytes_now (s : State) (lo hi : Nat) : (s.zeroBytes lo hi).now = s.now := rfl
@[simp] theorem State.zeroBytes_turns (s : State) (lo hi : Nat) : (s.zeroBytes lo hi).turns = s.turns := rfl
@[simp] theorem State.zeroBytes_focus (s : State) (lo hi : Nat) : (s.zeroBytes lo hi).focus = s.focus := rfl
@[simp] theorem State.zeroBytes_nextId (s : State) (lo hi : Nat) : (s.zeroBytes lo hi).nextId = s.nextId := rfl
@[simp] theorem State.zeroBytes_fresh (s : State) (lo hi : Nat) : (s.zeroBytes lo hi).fresh = s.fresh := rfl

/-! ## `State.zeroFull` -/

@[simp] theorem State.zeroFull_modules (s : State) (lo hi : Nat) : (s.zeroFull lo hi).modules = s.modules := rfl
@[simp] theorem State.zeroFull_dies (s : State) (lo hi : Nat) : (s.zeroFull lo hi).dies = s.dies := rfl
@[simp] theorem State.zeroFull_clusters (s : State) (lo hi : Nat) : (s.zeroFull lo hi).clusters = s.clusters := rfl
@[simp] theorem State.zeroFull_cores (s : State) (lo hi : Nat) : (s.zeroFull lo hi).cores = s.cores := rfl
@[simp] theorem State.zeroFull_slots (s : State) (lo hi : Nat) : (s.zeroFull lo hi).slots = s.slots := rfl
@[simp] theorem State.zeroFull_words (s : State) (lo hi : Nat) : (s.zeroFull lo hi).words = s.words := rfl
@[simp] theorem State.zeroFull_waits (s : State) (lo hi : Nat) : (s.zeroFull lo hi).waits = s.waits := rfl
@[simp] theorem State.zeroFull_switches (s : State) (lo hi : Nat) : (s.zeroFull lo hi).switches = s.switches := rfl
@[simp] theorem State.zeroFull_ages (s : State) (lo hi : Nat) : (s.zeroFull lo hi).ages = s.ages := rfl
@[simp] theorem State.zeroFull_recent (s : State) (lo hi : Nat) : (s.zeroFull lo hi).recent = s.recent := rfl
@[simp] theorem State.zeroFull_walks (s : State) (lo hi : Nat) : (s.zeroFull lo hi).walks = s.walks := rfl
@[simp] theorem State.zeroFull_copies (s : State) (lo hi : Nat) : (s.zeroFull lo hi).copies = s.copies := rfl
@[simp] theorem State.zeroFull_launches (s : State) (lo hi : Nat) : (s.zeroFull lo hi).launches = s.launches := rfl
@[simp] theorem State.zeroFull_phases (s : State) (lo hi : Nat) : (s.zeroFull lo hi).phases = s.phases := rfl
@[simp] theorem State.zeroFull_collectives (s : State) (lo hi : Nat) : (s.zeroFull lo hi).collectives = s.collectives := rfl
@[simp] theorem State.zeroFull_net (s : State) (lo hi : Nat) : (s.zeroFull lo hi).net = s.net := rfl
@[simp] theorem State.zeroFull_routes (s : State) (lo hi : Nat) : (s.zeroFull lo hi).routes = s.routes := rfl
@[simp] theorem State.zeroFull_now (s : State) (lo hi : Nat) : (s.zeroFull lo hi).now = s.now := rfl
@[simp] theorem State.zeroFull_turns (s : State) (lo hi : Nat) : (s.zeroFull lo hi).turns = s.turns := rfl
@[simp] theorem State.zeroFull_focus (s : State) (lo hi : Nat) : (s.zeroFull lo hi).focus = s.focus := rfl
@[simp] theorem State.zeroFull_nextId (s : State) (lo hi : Nat) : (s.zeroFull lo hi).nextId = s.nextId := rfl
@[simp] theorem State.zeroFull_fresh (s : State) (lo hi : Nat) : (s.zeroFull lo hi).fresh = s.fresh := rfl

/-! ## `State.modAcc` -/

@[simp] theorem State.modAcc_mem (s : State) (k id : Nat) (f : Acc → Acc) : (s.modAcc k id f).mem = s.mem := rfl
@[simp] theorem State.modAcc_empties (s : State) (k id : Nat) (f : Acc → Acc) : (s.modAcc k id f).empties = s.empties := rfl
@[simp] theorem State.modAcc_poison (s : State) (k id : Nat) (f : Acc → Acc) : (s.modAcc k id f).poison = s.poison := rfl
@[simp] theorem State.modAcc_modules (s : State) (k id : Nat) (f : Acc → Acc) : (s.modAcc k id f).modules = s.modules := rfl
@[simp] theorem State.modAcc_dies (s : State) (k id : Nat) (f : Acc → Acc) : (s.modAcc k id f).dies = s.dies := rfl
@[simp] theorem State.modAcc_clusters (s : State) (k id : Nat) (f : Acc → Acc) : (s.modAcc k id f).clusters = s.clusters := rfl
@[simp] theorem State.modAcc_cores (s : State) (k id : Nat) (f : Acc → Acc) : (s.modAcc k id f).cores = s.cores := rfl
@[simp] theorem State.modAcc_words (s : State) (k id : Nat) (f : Acc → Acc) : (s.modAcc k id f).words = s.words := rfl
@[simp] theorem State.modAcc_waits (s : State) (k id : Nat) (f : Acc → Acc) : (s.modAcc k id f).waits = s.waits := rfl
@[simp] theorem State.modAcc_switches (s : State) (k id : Nat) (f : Acc → Acc) : (s.modAcc k id f).switches = s.switches := rfl
@[simp] theorem State.modAcc_ages (s : State) (k id : Nat) (f : Acc → Acc) : (s.modAcc k id f).ages = s.ages := rfl
@[simp] theorem State.modAcc_recent (s : State) (k id : Nat) (f : Acc → Acc) : (s.modAcc k id f).recent = s.recent := rfl
@[simp] theorem State.modAcc_walks (s : State) (k id : Nat) (f : Acc → Acc) : (s.modAcc k id f).walks = s.walks := rfl
@[simp] theorem State.modAcc_copies (s : State) (k id : Nat) (f : Acc → Acc) : (s.modAcc k id f).copies = s.copies := rfl
@[simp] theorem State.modAcc_launches (s : State) (k id : Nat) (f : Acc → Acc) : (s.modAcc k id f).launches = s.launches := rfl
@[simp] theorem State.modAcc_phases (s : State) (k id : Nat) (f : Acc → Acc) : (s.modAcc k id f).phases = s.phases := rfl
@[simp] theorem State.modAcc_collectives (s : State) (k id : Nat) (f : Acc → Acc) : (s.modAcc k id f).collectives = s.collectives := rfl
@[simp] theorem State.modAcc_net (s : State) (k id : Nat) (f : Acc → Acc) : (s.modAcc k id f).net = s.net := rfl
@[simp] theorem State.modAcc_routes (s : State) (k id : Nat) (f : Acc → Acc) : (s.modAcc k id f).routes = s.routes := rfl
@[simp] theorem State.modAcc_now (s : State) (k id : Nat) (f : Acc → Acc) : (s.modAcc k id f).now = s.now := rfl
@[simp] theorem State.modAcc_turns (s : State) (k id : Nat) (f : Acc → Acc) : (s.modAcc k id f).turns = s.turns := rfl
@[simp] theorem State.modAcc_focus (s : State) (k id : Nat) (f : Acc → Acc) : (s.modAcc k id f).focus = s.focus := rfl
@[simp] theorem State.modAcc_nextId (s : State) (k id : Nat) (f : Acc → Acc) : (s.modAcc k id f).nextId = s.nextId := rfl
@[simp] theorem State.modAcc_fresh (s : State) (k id : Nat) (f : Acc → Acc) : (s.modAcc k id f).fresh = s.fresh := rfl

/-! ## `State.dropAcc` -/

@[simp] theorem State.dropAcc_mem (s : State) (k id : Nat) : (s.dropAcc k id).mem = s.mem := rfl
@[simp] theorem State.dropAcc_empties (s : State) (k id : Nat) : (s.dropAcc k id).empties = s.empties := rfl
@[simp] theorem State.dropAcc_poison (s : State) (k id : Nat) : (s.dropAcc k id).poison = s.poison := rfl
@[simp] theorem State.dropAcc_modules (s : State) (k id : Nat) : (s.dropAcc k id).modules = s.modules := rfl
@[simp] theorem State.dropAcc_dies (s : State) (k id : Nat) : (s.dropAcc k id).dies = s.dies := rfl
@[simp] theorem State.dropAcc_clusters (s : State) (k id : Nat) : (s.dropAcc k id).clusters = s.clusters := rfl
@[simp] theorem State.dropAcc_cores (s : State) (k id : Nat) : (s.dropAcc k id).cores = s.cores := rfl
@[simp] theorem State.dropAcc_words (s : State) (k id : Nat) : (s.dropAcc k id).words = s.words := rfl
@[simp] theorem State.dropAcc_waits (s : State) (k id : Nat) : (s.dropAcc k id).waits = s.waits := rfl
@[simp] theorem State.dropAcc_switches (s : State) (k id : Nat) : (s.dropAcc k id).switches = s.switches := rfl
@[simp] theorem State.dropAcc_ages (s : State) (k id : Nat) : (s.dropAcc k id).ages = s.ages := rfl
@[simp] theorem State.dropAcc_recent (s : State) (k id : Nat) : (s.dropAcc k id).recent = s.recent := rfl
@[simp] theorem State.dropAcc_walks (s : State) (k id : Nat) : (s.dropAcc k id).walks = s.walks := rfl
@[simp] theorem State.dropAcc_copies (s : State) (k id : Nat) : (s.dropAcc k id).copies = s.copies := rfl
@[simp] theorem State.dropAcc_launches (s : State) (k id : Nat) : (s.dropAcc k id).launches = s.launches := rfl
@[simp] theorem State.dropAcc_phases (s : State) (k id : Nat) : (s.dropAcc k id).phases = s.phases := rfl
@[simp] theorem State.dropAcc_collectives (s : State) (k id : Nat) : (s.dropAcc k id).collectives = s.collectives := rfl
@[simp] theorem State.dropAcc_net (s : State) (k id : Nat) : (s.dropAcc k id).net = s.net := rfl
@[simp] theorem State.dropAcc_routes (s : State) (k id : Nat) : (s.dropAcc k id).routes = s.routes := rfl
@[simp] theorem State.dropAcc_now (s : State) (k id : Nat) : (s.dropAcc k id).now = s.now := rfl
@[simp] theorem State.dropAcc_turns (s : State) (k id : Nat) : (s.dropAcc k id).turns = s.turns := rfl
@[simp] theorem State.dropAcc_focus (s : State) (k id : Nat) : (s.dropAcc k id).focus = s.focus := rfl
@[simp] theorem State.dropAcc_nextId (s : State) (k id : Nat) : (s.dropAcc k id).nextId = s.nextId := rfl
@[simp] theorem State.dropAcc_fresh (s : State) (k id : Nat) : (s.dropAcc k id).fresh = s.fresh := rfl

/-! ## `State.setWordQ` -/

@[simp] theorem State.setWordQ_mem (s : State) (w : Nat) (q : WordQ) : (s.setWordQ w q).mem = s.mem := rfl
@[simp] theorem State.setWordQ_empties (s : State) (w : Nat) (q : WordQ) : (s.setWordQ w q).empties = s.empties := rfl
@[simp] theorem State.setWordQ_poison (s : State) (w : Nat) (q : WordQ) : (s.setWordQ w q).poison = s.poison := rfl
@[simp] theorem State.setWordQ_modules (s : State) (w : Nat) (q : WordQ) : (s.setWordQ w q).modules = s.modules := rfl
@[simp] theorem State.setWordQ_dies (s : State) (w : Nat) (q : WordQ) : (s.setWordQ w q).dies = s.dies := rfl
@[simp] theorem State.setWordQ_clusters (s : State) (w : Nat) (q : WordQ) : (s.setWordQ w q).clusters = s.clusters := rfl
@[simp] theorem State.setWordQ_cores (s : State) (w : Nat) (q : WordQ) : (s.setWordQ w q).cores = s.cores := rfl
@[simp] theorem State.setWordQ_slots (s : State) (w : Nat) (q : WordQ) : (s.setWordQ w q).slots = s.slots := rfl
@[simp] theorem State.setWordQ_waits (s : State) (w : Nat) (q : WordQ) : (s.setWordQ w q).waits = s.waits := rfl
@[simp] theorem State.setWordQ_switches (s : State) (w : Nat) (q : WordQ) : (s.setWordQ w q).switches = s.switches := rfl
@[simp] theorem State.setWordQ_ages (s : State) (w : Nat) (q : WordQ) : (s.setWordQ w q).ages = s.ages := rfl
@[simp] theorem State.setWordQ_recent (s : State) (w : Nat) (q : WordQ) : (s.setWordQ w q).recent = s.recent := rfl
@[simp] theorem State.setWordQ_walks (s : State) (w : Nat) (q : WordQ) : (s.setWordQ w q).walks = s.walks := rfl
@[simp] theorem State.setWordQ_copies (s : State) (w : Nat) (q : WordQ) : (s.setWordQ w q).copies = s.copies := rfl
@[simp] theorem State.setWordQ_launches (s : State) (w : Nat) (q : WordQ) : (s.setWordQ w q).launches = s.launches := rfl
@[simp] theorem State.setWordQ_phases (s : State) (w : Nat) (q : WordQ) : (s.setWordQ w q).phases = s.phases := rfl
@[simp] theorem State.setWordQ_collectives (s : State) (w : Nat) (q : WordQ) : (s.setWordQ w q).collectives = s.collectives := rfl
@[simp] theorem State.setWordQ_net (s : State) (w : Nat) (q : WordQ) : (s.setWordQ w q).net = s.net := rfl
@[simp] theorem State.setWordQ_routes (s : State) (w : Nat) (q : WordQ) : (s.setWordQ w q).routes = s.routes := rfl
@[simp] theorem State.setWordQ_now (s : State) (w : Nat) (q : WordQ) : (s.setWordQ w q).now = s.now := rfl
@[simp] theorem State.setWordQ_turns (s : State) (w : Nat) (q : WordQ) : (s.setWordQ w q).turns = s.turns := rfl
@[simp] theorem State.setWordQ_focus (s : State) (w : Nat) (q : WordQ) : (s.setWordQ w q).focus = s.focus := rfl
@[simp] theorem State.setWordQ_nextId (s : State) (w : Nat) (q : WordQ) : (s.setWordQ w q).nextId = s.nextId := rfl
@[simp] theorem State.setWordQ_fresh (s : State) (w : Nat) (q : WordQ) : (s.setWordQ w q).fresh = s.fresh := rfl

/-! ## `State.reroute` and `State.inject` -/

@[simp] theorem State.reroute_mem (s : State) (id core t va : Nat) : (s.reroute id core t va).mem = s.mem := by
  unfold State.reroute; split <;> rfl
@[simp] theorem State.reroute_empties (s : State) (id core t va : Nat) : (s.reroute id core t va).empties = s.empties := by
  unfold State.reroute; split <;> rfl
@[simp] theorem State.reroute_poison (s : State) (id core t va : Nat) : (s.reroute id core t va).poison = s.poison := by
  unfold State.reroute; split <;> rfl
@[simp] theorem State.reroute_modules (s : State) (id core t va : Nat) : (s.reroute id core t va).modules = s.modules := by
  unfold State.reroute; split <;> rfl
@[simp] theorem State.reroute_dies (s : State) (id core t va : Nat) : (s.reroute id core t va).dies = s.dies := by
  unfold State.reroute; split <;> rfl
@[simp] theorem State.reroute_clusters (s : State) (id core t va : Nat) : (s.reroute id core t va).clusters = s.clusters := by
  unfold State.reroute; split <;> rfl
@[simp] theorem State.reroute_cores (s : State) (id core t va : Nat) : (s.reroute id core t va).cores = s.cores := by
  unfold State.reroute; split <;> rfl
@[simp] theorem State.reroute_slots (s : State) (id core t va : Nat) : (s.reroute id core t va).slots = s.slots := by
  unfold State.reroute; split <;> rfl
@[simp] theorem State.reroute_words (s : State) (id core t va : Nat) : (s.reroute id core t va).words = s.words := by
  unfold State.reroute; split <;> rfl
@[simp] theorem State.reroute_waits (s : State) (id core t va : Nat) : (s.reroute id core t va).waits = s.waits := by
  unfold State.reroute; split <;> rfl
@[simp] theorem State.reroute_switches (s : State) (id core t va : Nat) : (s.reroute id core t va).switches = s.switches := by
  unfold State.reroute; split <;> rfl
@[simp] theorem State.reroute_ages (s : State) (id core t va : Nat) : (s.reroute id core t va).ages = s.ages := by
  unfold State.reroute; split <;> rfl
@[simp] theorem State.reroute_recent (s : State) (id core t va : Nat) : (s.reroute id core t va).recent = s.recent := by
  unfold State.reroute; split <;> rfl
@[simp] theorem State.reroute_walks (s : State) (id core t va : Nat) : (s.reroute id core t va).walks = s.walks := by
  unfold State.reroute; split <;> rfl
@[simp] theorem State.reroute_copies (s : State) (id core t va : Nat) : (s.reroute id core t va).copies = s.copies := by
  unfold State.reroute; split <;> rfl
@[simp] theorem State.reroute_launches (s : State) (id core t va : Nat) : (s.reroute id core t va).launches = s.launches := by
  unfold State.reroute; split <;> rfl
@[simp] theorem State.reroute_phases (s : State) (id core t va : Nat) : (s.reroute id core t va).phases = s.phases := by
  unfold State.reroute; split <;> rfl
@[simp] theorem State.reroute_collectives (s : State) (id core t va : Nat) : (s.reroute id core t va).collectives = s.collectives := by
  unfold State.reroute; split <;> rfl
@[simp] theorem State.reroute_net (s : State) (id core t va : Nat) : (s.reroute id core t va).net = s.net := by
  unfold State.reroute; split <;> rfl
@[simp] theorem State.reroute_now (s : State) (id core t va : Nat) : (s.reroute id core t va).now = s.now := by
  unfold State.reroute; split <;> rfl
@[simp] theorem State.reroute_turns (s : State) (id core t va : Nat) : (s.reroute id core t va).turns = s.turns := by
  unfold State.reroute; split <;> rfl
@[simp] theorem State.reroute_focus (s : State) (id core t va : Nat) : (s.reroute id core t va).focus = s.focus := by
  unfold State.reroute; split <;> rfl
@[simp] theorem State.reroute_nextId (s : State) (id core t va : Nat) : (s.reroute id core t va).nextId = s.nextId := by
  unfold State.reroute; split <;> rfl
@[simp] theorem State.reroute_fresh (s : State) (id core t va : Nat) : (s.reroute id core t va).fresh = s.fresh := by
  unfold State.reroute; split <;> rfl
@[simp] theorem State.inject_mem (s : State) (core t va : Nat) (m : Msg) : (s.inject core t va m).mem = s.mem := by
  simp [State.inject]
@[simp] theorem State.inject_empties (s : State) (core t va : Nat) (m : Msg) : (s.inject core t va m).empties = s.empties := by
  simp [State.inject]
@[simp] theorem State.inject_poison (s : State) (core t va : Nat) (m : Msg) : (s.inject core t va m).poison = s.poison := by
  simp [State.inject]
@[simp] theorem State.inject_modules (s : State) (core t va : Nat) (m : Msg) : (s.inject core t va m).modules = s.modules := by
  simp [State.inject]
@[simp] theorem State.inject_dies (s : State) (core t va : Nat) (m : Msg) : (s.inject core t va m).dies = s.dies := by
  simp [State.inject]
@[simp] theorem State.inject_clusters (s : State) (core t va : Nat) (m : Msg) : (s.inject core t va m).clusters = s.clusters := by
  simp [State.inject]
@[simp] theorem State.inject_cores (s : State) (core t va : Nat) (m : Msg) : (s.inject core t va m).cores = s.cores := by
  simp [State.inject]
@[simp] theorem State.inject_slots (s : State) (core t va : Nat) (m : Msg) : (s.inject core t va m).slots = s.slots := by
  simp [State.inject]
@[simp] theorem State.inject_words (s : State) (core t va : Nat) (m : Msg) : (s.inject core t va m).words = s.words := by
  simp [State.inject]
@[simp] theorem State.inject_waits (s : State) (core t va : Nat) (m : Msg) : (s.inject core t va m).waits = s.waits := by
  simp [State.inject]
@[simp] theorem State.inject_switches (s : State) (core t va : Nat) (m : Msg) : (s.inject core t va m).switches = s.switches := by
  simp [State.inject]
@[simp] theorem State.inject_ages (s : State) (core t va : Nat) (m : Msg) : (s.inject core t va m).ages = s.ages := by
  simp [State.inject]
@[simp] theorem State.inject_recent (s : State) (core t va : Nat) (m : Msg) : (s.inject core t va m).recent = s.recent := by
  simp [State.inject]
@[simp] theorem State.inject_walks (s : State) (core t va : Nat) (m : Msg) : (s.inject core t va m).walks = s.walks := by
  simp [State.inject]
@[simp] theorem State.inject_copies (s : State) (core t va : Nat) (m : Msg) : (s.inject core t va m).copies = s.copies := by
  simp [State.inject]
@[simp] theorem State.inject_launches (s : State) (core t va : Nat) (m : Msg) : (s.inject core t va m).launches = s.launches := by
  simp [State.inject]
@[simp] theorem State.inject_phases (s : State) (core t va : Nat) (m : Msg) : (s.inject core t va m).phases = s.phases := by
  simp [State.inject]
@[simp] theorem State.inject_collectives (s : State) (core t va : Nat) (m : Msg) : (s.inject core t va m).collectives = s.collectives := by
  simp [State.inject]
@[simp] theorem State.inject_now (s : State) (core t va : Nat) (m : Msg) : (s.inject core t va m).now = s.now := by
  simp [State.inject]
@[simp] theorem State.inject_turns (s : State) (core t va : Nat) (m : Msg) : (s.inject core t va m).turns = s.turns := by
  simp [State.inject]
@[simp] theorem State.inject_focus (s : State) (core t va : Nat) (m : Msg) : (s.inject core t va m).focus = s.focus := by
  simp [State.inject]
@[simp] theorem State.inject_fresh (s : State) (core t va : Nat) (m : Msg) : (s.inject core t va m).fresh = s.fresh := by
  simp [State.inject]

/-- The entry changed is read. -/
@[simp] theorem State.modSlot_slot (s : State) (k : Nat) (f : Slot → Slot) : (s.modSlot k f).slot k = f (s.slot k) :=
  tabGet_tabMod_self s.slots k {} f

/-- Every other entry stays. -/
theorem State.modSlot_slot_other (s : State) {k m : Nat} (f : Slot → Slot) (h : m ≠ k) : (s.modSlot k f).slot m = s.slot m :=
  tabGet_tabMod_other s.slots {} f h

/-- The entry changed is read. -/
@[simp] theorem State.modCore_core (s : State) (k : Nat) (f : Core → Core) : (s.modCore k f).core k = f (s.core k) :=
  tabGet_tabMod_self s.cores k {} f

/-- Every other entry stays. -/
theorem State.modCore_core_other (s : State) {k m : Nat} (f : Core → Core) (h : m ≠ k) : (s.modCore k f).core m = s.core m :=
  tabGet_tabMod_other s.cores {} f h

/-- The entry changed is read. -/
@[simp] theorem State.modCluster_cluster (s : State) (k : Nat) (f : Cluster → Cluster) : (s.modCluster k f).cluster k = f (s.cluster k) :=
  tabGet_tabMod_self s.clusters k {} f

/-- Every other entry stays. -/
theorem State.modCluster_cluster_other (s : State) {k m : Nat} (f : Cluster → Cluster) (h : m ≠ k) : (s.modCluster k f).cluster m = s.cluster m :=
  tabGet_tabMod_other s.clusters {} f h

/-- The entry changed is read. -/
@[simp] theorem State.modDie_die (s : State) (k : Nat) (f : Die → Die) : (s.modDie k f).die k = f (s.die k) :=
  tabGet_tabMod_self s.dies k {} f

/-- Every other entry stays. -/
theorem State.modDie_die_other (s : State) {k m : Nat} (f : Die → Die) (h : m ≠ k) : (s.modDie k f).die m = s.die m :=
  tabGet_tabMod_other s.dies {} f h

/-- The entry changed is read. -/
@[simp] theorem State.modModule_module (s : State) (k : Nat) (f : Module → Module) : (s.modModule k f).module k = f (s.module k) :=
  tabGet_tabMod_self s.modules k {} f

/-- Every other entry stays. -/
theorem State.modModule_module_other (s : State) {k m : Nat} (f : Module → Module) (h : m ≠ k) : (s.modModule k f).module m = s.module m :=
  tabGet_tabMod_other s.modules {} f h

/-- The entry changed is read. -/
@[simp] theorem State.modLaunch_launch (s : State) (k : Nat) (f : Launch → Launch) : (s.modLaunch k f).launch k = f (s.launch k) :=
  tabGet_tabMod_self s.launches k {} f

/-- Every other entry stays. -/
theorem State.modLaunch_launch_other (s : State) {k m : Nat} (f : Launch → Launch) (h : m ≠ k) : (s.modLaunch k f).launch m = s.launch m :=
  tabGet_tabMod_other s.launches {} f h

/-! ## Accessors see only their own table -/

@[simp] theorem State.modSlot_core_acc (s : State) (k : Nat) (f : Slot → Slot) (n : Nat) : (s.modSlot k f).core n = s.core n := rfl
@[simp] theorem State.modSlot_cluster_acc (s : State) (k : Nat) (f : Slot → Slot) (n : Nat) : (s.modSlot k f).cluster n = s.cluster n := rfl
@[simp] theorem State.modSlot_die_acc (s : State) (k : Nat) (f : Slot → Slot) (n : Nat) : (s.modSlot k f).die n = s.die n := rfl
@[simp] theorem State.modSlot_module_acc (s : State) (k : Nat) (f : Slot → Slot) (n : Nat) : (s.modSlot k f).module n = s.module n := rfl
@[simp] theorem State.modSlot_launch_acc (s : State) (k : Nat) (f : Slot → Slot) (n : Nat) : (s.modSlot k f).launch n = s.launch n := rfl
@[simp] theorem State.modSlot_byte (s : State) (k : Nat) (f : Slot → Slot) (n : Nat) : (s.modSlot k f).byte n = s.byte n := rfl
@[simp] theorem State.modInst_core_acc (s : State) (k : Nat) (f : Inst → Inst) (n : Nat) : (s.modInst k f).core n = s.core n := rfl
@[simp] theorem State.modInst_cluster_acc (s : State) (k : Nat) (f : Inst → Inst) (n : Nat) : (s.modInst k f).cluster n = s.cluster n := rfl
@[simp] theorem State.modInst_die_acc (s : State) (k : Nat) (f : Inst → Inst) (n : Nat) : (s.modInst k f).die n = s.die n := rfl
@[simp] theorem State.modInst_module_acc (s : State) (k : Nat) (f : Inst → Inst) (n : Nat) : (s.modInst k f).module n = s.module n := rfl
@[simp] theorem State.modInst_launch_acc (s : State) (k : Nat) (f : Inst → Inst) (n : Nat) : (s.modInst k f).launch n = s.launch n := rfl
@[simp] theorem State.modInst_byte (s : State) (k : Nat) (f : Inst → Inst) (n : Nat) : (s.modInst k f).byte n = s.byte n := rfl
@[simp] theorem State.modCore_slot_acc (s : State) (k : Nat) (f : Core → Core) (n : Nat) : (s.modCore k f).slot n = s.slot n := rfl
@[simp] theorem State.modCore_cluster_acc (s : State) (k : Nat) (f : Core → Core) (n : Nat) : (s.modCore k f).cluster n = s.cluster n := rfl
@[simp] theorem State.modCore_die_acc (s : State) (k : Nat) (f : Core → Core) (n : Nat) : (s.modCore k f).die n = s.die n := rfl
@[simp] theorem State.modCore_module_acc (s : State) (k : Nat) (f : Core → Core) (n : Nat) : (s.modCore k f).module n = s.module n := rfl
@[simp] theorem State.modCore_launch_acc (s : State) (k : Nat) (f : Core → Core) (n : Nat) : (s.modCore k f).launch n = s.launch n := rfl
@[simp] theorem State.modCore_byte (s : State) (k : Nat) (f : Core → Core) (n : Nat) : (s.modCore k f).byte n = s.byte n := rfl
@[simp] theorem State.modCluster_slot_acc (s : State) (k : Nat) (f : Cluster → Cluster) (n : Nat) : (s.modCluster k f).slot n = s.slot n := rfl
@[simp] theorem State.modCluster_core_acc (s : State) (k : Nat) (f : Cluster → Cluster) (n : Nat) : (s.modCluster k f).core n = s.core n := rfl
@[simp] theorem State.modCluster_die_acc (s : State) (k : Nat) (f : Cluster → Cluster) (n : Nat) : (s.modCluster k f).die n = s.die n := rfl
@[simp] theorem State.modCluster_module_acc (s : State) (k : Nat) (f : Cluster → Cluster) (n : Nat) : (s.modCluster k f).module n = s.module n := rfl
@[simp] theorem State.modCluster_launch_acc (s : State) (k : Nat) (f : Cluster → Cluster) (n : Nat) : (s.modCluster k f).launch n = s.launch n := rfl
@[simp] theorem State.modCluster_byte (s : State) (k : Nat) (f : Cluster → Cluster) (n : Nat) : (s.modCluster k f).byte n = s.byte n := rfl
@[simp] theorem State.modDie_slot_acc (s : State) (k : Nat) (f : Die → Die) (n : Nat) : (s.modDie k f).slot n = s.slot n := rfl
@[simp] theorem State.modDie_core_acc (s : State) (k : Nat) (f : Die → Die) (n : Nat) : (s.modDie k f).core n = s.core n := rfl
@[simp] theorem State.modDie_cluster_acc (s : State) (k : Nat) (f : Die → Die) (n : Nat) : (s.modDie k f).cluster n = s.cluster n := rfl
@[simp] theorem State.modDie_module_acc (s : State) (k : Nat) (f : Die → Die) (n : Nat) : (s.modDie k f).module n = s.module n := rfl
@[simp] theorem State.modDie_launch_acc (s : State) (k : Nat) (f : Die → Die) (n : Nat) : (s.modDie k f).launch n = s.launch n := rfl
@[simp] theorem State.modDie_byte (s : State) (k : Nat) (f : Die → Die) (n : Nat) : (s.modDie k f).byte n = s.byte n := rfl
@[simp] theorem State.modModule_slot_acc (s : State) (k : Nat) (f : Module → Module) (n : Nat) : (s.modModule k f).slot n = s.slot n := rfl
@[simp] theorem State.modModule_core_acc (s : State) (k : Nat) (f : Module → Module) (n : Nat) : (s.modModule k f).core n = s.core n := rfl
@[simp] theorem State.modModule_cluster_acc (s : State) (k : Nat) (f : Module → Module) (n : Nat) : (s.modModule k f).cluster n = s.cluster n := rfl
@[simp] theorem State.modModule_die_acc (s : State) (k : Nat) (f : Module → Module) (n : Nat) : (s.modModule k f).die n = s.die n := rfl
@[simp] theorem State.modModule_launch_acc (s : State) (k : Nat) (f : Module → Module) (n : Nat) : (s.modModule k f).launch n = s.launch n := rfl
@[simp] theorem State.modModule_byte (s : State) (k : Nat) (f : Module → Module) (n : Nat) : (s.modModule k f).byte n = s.byte n := rfl
@[simp] theorem State.modLaunch_slot_acc (s : State) (k : Nat) (f : Launch → Launch) (n : Nat) : (s.modLaunch k f).slot n = s.slot n := rfl
@[simp] theorem State.modLaunch_core_acc (s : State) (k : Nat) (f : Launch → Launch) (n : Nat) : (s.modLaunch k f).core n = s.core n := rfl
@[simp] theorem State.modLaunch_cluster_acc (s : State) (k : Nat) (f : Launch → Launch) (n : Nat) : (s.modLaunch k f).cluster n = s.cluster n := rfl
@[simp] theorem State.modLaunch_die_acc (s : State) (k : Nat) (f : Launch → Launch) (n : Nat) : (s.modLaunch k f).die n = s.die n := rfl
@[simp] theorem State.modLaunch_module_acc (s : State) (k : Nat) (f : Launch → Launch) (n : Nat) : (s.modLaunch k f).module n = s.module n := rfl
@[simp] theorem State.modLaunch_byte (s : State) (k : Nat) (f : Launch → Launch) (n : Nat) : (s.modLaunch k f).byte n = s.byte n := rfl
@[simp] theorem State.send_slot_acc (s : State) (m : Msg) (n : Nat) : (s.send m).slot n = s.slot n := rfl
@[simp] theorem State.send_core_acc (s : State) (m : Msg) (n : Nat) : (s.send m).core n = s.core n := rfl
@[simp] theorem State.send_cluster_acc (s : State) (m : Msg) (n : Nat) : (s.send m).cluster n = s.cluster n := rfl
@[simp] theorem State.send_die_acc (s : State) (m : Msg) (n : Nat) : (s.send m).die n = s.die n := rfl
@[simp] theorem State.send_module_acc (s : State) (m : Msg) (n : Nat) : (s.send m).module n = s.module n := rfl
@[simp] theorem State.send_launch_acc (s : State) (m : Msg) (n : Nat) : (s.send m).launch n = s.launch n := rfl
@[simp] theorem State.send_byte (s : State) (m : Msg) (n : Nat) : (s.send m).byte n = s.byte n := rfl
@[simp] theorem State.drop_slot_acc (s : State) (id : Nat) (n : Nat) : (s.drop id).slot n = s.slot n := rfl
@[simp] theorem State.drop_core_acc (s : State) (id : Nat) (n : Nat) : (s.drop id).core n = s.core n := rfl
@[simp] theorem State.drop_cluster_acc (s : State) (id : Nat) (n : Nat) : (s.drop id).cluster n = s.cluster n := rfl
@[simp] theorem State.drop_die_acc (s : State) (id : Nat) (n : Nat) : (s.drop id).die n = s.die n := rfl
@[simp] theorem State.drop_module_acc (s : State) (id : Nat) (n : Nat) : (s.drop id).module n = s.module n := rfl
@[simp] theorem State.drop_launch_acc (s : State) (id : Nat) (n : Nat) : (s.drop id).launch n = s.launch n := rfl
@[simp] theorem State.drop_byte (s : State) (id : Nat) (n : Nat) : (s.drop id).byte n = s.byte n := rfl
@[simp] theorem State.putBytes_slot_acc (s : State) (pa : Nat) (bs : List Byte) (n : Nat) : (s.putBytes pa bs).slot n = s.slot n := rfl
@[simp] theorem State.putBytes_core_acc (s : State) (pa : Nat) (bs : List Byte) (n : Nat) : (s.putBytes pa bs).core n = s.core n := rfl
@[simp] theorem State.putBytes_cluster_acc (s : State) (pa : Nat) (bs : List Byte) (n : Nat) : (s.putBytes pa bs).cluster n = s.cluster n := rfl
@[simp] theorem State.putBytes_die_acc (s : State) (pa : Nat) (bs : List Byte) (n : Nat) : (s.putBytes pa bs).die n = s.die n := rfl
@[simp] theorem State.putBytes_module_acc (s : State) (pa : Nat) (bs : List Byte) (n : Nat) : (s.putBytes pa bs).module n = s.module n := rfl
@[simp] theorem State.putBytes_launch_acc (s : State) (pa : Nat) (bs : List Byte) (n : Nat) : (s.putBytes pa bs).launch n = s.launch n := rfl
@[simp] theorem State.setFull_slot_acc (s : State) (pa : Nat) (full : Bool) (n : Nat) : (s.setFull pa full).slot n = s.slot n := rfl
@[simp] theorem State.setFull_core_acc (s : State) (pa : Nat) (full : Bool) (n : Nat) : (s.setFull pa full).core n = s.core n := rfl
@[simp] theorem State.setFull_cluster_acc (s : State) (pa : Nat) (full : Bool) (n : Nat) : (s.setFull pa full).cluster n = s.cluster n := rfl
@[simp] theorem State.setFull_die_acc (s : State) (pa : Nat) (full : Bool) (n : Nat) : (s.setFull pa full).die n = s.die n := rfl
@[simp] theorem State.setFull_module_acc (s : State) (pa : Nat) (full : Bool) (n : Nat) : (s.setFull pa full).module n = s.module n := rfl
@[simp] theorem State.setFull_launch_acc (s : State) (pa : Nat) (full : Bool) (n : Nat) : (s.setFull pa full).launch n = s.launch n := rfl
@[simp] theorem State.setFull_byte (s : State) (pa : Nat) (full : Bool) (n : Nat) : (s.setFull pa full).byte n = s.byte n := rfl
@[simp] theorem State.setUnitPoison_slot_acc (s : State) (pa : Nat) (p : Bool) (n : Nat) : (s.setUnitPoison pa p).slot n = s.slot n := rfl
@[simp] theorem State.setUnitPoison_core_acc (s : State) (pa : Nat) (p : Bool) (n : Nat) : (s.setUnitPoison pa p).core n = s.core n := rfl
@[simp] theorem State.setUnitPoison_cluster_acc (s : State) (pa : Nat) (p : Bool) (n : Nat) : (s.setUnitPoison pa p).cluster n = s.cluster n := rfl
@[simp] theorem State.setUnitPoison_die_acc (s : State) (pa : Nat) (p : Bool) (n : Nat) : (s.setUnitPoison pa p).die n = s.die n := rfl
@[simp] theorem State.setUnitPoison_module_acc (s : State) (pa : Nat) (p : Bool) (n : Nat) : (s.setUnitPoison pa p).module n = s.module n := rfl
@[simp] theorem State.setUnitPoison_launch_acc (s : State) (pa : Nat) (p : Bool) (n : Nat) : (s.setUnitPoison pa p).launch n = s.launch n := rfl
@[simp] theorem State.setUnitPoison_byte (s : State) (pa : Nat) (p : Bool) (n : Nat) : (s.setUnitPoison pa p).byte n = s.byte n := rfl
@[simp] theorem State.setWordPoison_slot_acc (s : State) (pa : Nat) (p : Bool) (n : Nat) : (s.setWordPoison pa p).slot n = s.slot n := rfl
@[simp] theorem State.setWordPoison_core_acc (s : State) (pa : Nat) (p : Bool) (n : Nat) : (s.setWordPoison pa p).core n = s.core n := rfl
@[simp] theorem State.setWordPoison_cluster_acc (s : State) (pa : Nat) (p : Bool) (n : Nat) : (s.setWordPoison pa p).cluster n = s.cluster n := rfl
@[simp] theorem State.setWordPoison_die_acc (s : State) (pa : Nat) (p : Bool) (n : Nat) : (s.setWordPoison pa p).die n = s.die n := rfl
@[simp] theorem State.setWordPoison_module_acc (s : State) (pa : Nat) (p : Bool) (n : Nat) : (s.setWordPoison pa p).module n = s.module n := rfl
@[simp] theorem State.setWordPoison_launch_acc (s : State) (pa : Nat) (p : Bool) (n : Nat) : (s.setWordPoison pa p).launch n = s.launch n := rfl
@[simp] theorem State.setWordPoison_byte (s : State) (pa : Nat) (p : Bool) (n : Nat) : (s.setWordPoison pa p).byte n = s.byte n := rfl
@[simp] theorem State.zeroBytes_slot_acc (s : State) (lo hi : Nat) (n : Nat) : (s.zeroBytes lo hi).slot n = s.slot n := rfl
@[simp] theorem State.zeroBytes_core_acc (s : State) (lo hi : Nat) (n : Nat) : (s.zeroBytes lo hi).core n = s.core n := rfl
@[simp] theorem State.zeroBytes_cluster_acc (s : State) (lo hi : Nat) (n : Nat) : (s.zeroBytes lo hi).cluster n = s.cluster n := rfl
@[simp] theorem State.zeroBytes_die_acc (s : State) (lo hi : Nat) (n : Nat) : (s.zeroBytes lo hi).die n = s.die n := rfl
@[simp] theorem State.zeroBytes_module_acc (s : State) (lo hi : Nat) (n : Nat) : (s.zeroBytes lo hi).module n = s.module n := rfl
@[simp] theorem State.zeroBytes_launch_acc (s : State) (lo hi : Nat) (n : Nat) : (s.zeroBytes lo hi).launch n = s.launch n := rfl
@[simp] theorem State.zeroFull_slot_acc (s : State) (lo hi : Nat) (n : Nat) : (s.zeroFull lo hi).slot n = s.slot n := rfl
@[simp] theorem State.zeroFull_core_acc (s : State) (lo hi : Nat) (n : Nat) : (s.zeroFull lo hi).core n = s.core n := rfl
@[simp] theorem State.zeroFull_cluster_acc (s : State) (lo hi : Nat) (n : Nat) : (s.zeroFull lo hi).cluster n = s.cluster n := rfl
@[simp] theorem State.zeroFull_die_acc (s : State) (lo hi : Nat) (n : Nat) : (s.zeroFull lo hi).die n = s.die n := rfl
@[simp] theorem State.zeroFull_module_acc (s : State) (lo hi : Nat) (n : Nat) : (s.zeroFull lo hi).module n = s.module n := rfl
@[simp] theorem State.zeroFull_launch_acc (s : State) (lo hi : Nat) (n : Nat) : (s.zeroFull lo hi).launch n = s.launch n := rfl
@[simp] theorem State.modAcc_core_acc (s : State) (k id : Nat) (f : Acc → Acc) (n : Nat) : (s.modAcc k id f).core n = s.core n := rfl
@[simp] theorem State.modAcc_cluster_acc (s : State) (k id : Nat) (f : Acc → Acc) (n : Nat) : (s.modAcc k id f).cluster n = s.cluster n := rfl
@[simp] theorem State.modAcc_die_acc (s : State) (k id : Nat) (f : Acc → Acc) (n : Nat) : (s.modAcc k id f).die n = s.die n := rfl
@[simp] theorem State.modAcc_module_acc (s : State) (k id : Nat) (f : Acc → Acc) (n : Nat) : (s.modAcc k id f).module n = s.module n := rfl
@[simp] theorem State.modAcc_launch_acc (s : State) (k id : Nat) (f : Acc → Acc) (n : Nat) : (s.modAcc k id f).launch n = s.launch n := rfl
@[simp] theorem State.modAcc_byte (s : State) (k id : Nat) (f : Acc → Acc) (n : Nat) : (s.modAcc k id f).byte n = s.byte n := rfl
@[simp] theorem State.dropAcc_core_acc (s : State) (k id : Nat) (n : Nat) : (s.dropAcc k id).core n = s.core n := rfl
@[simp] theorem State.dropAcc_cluster_acc (s : State) (k id : Nat) (n : Nat) : (s.dropAcc k id).cluster n = s.cluster n := rfl
@[simp] theorem State.dropAcc_die_acc (s : State) (k id : Nat) (n : Nat) : (s.dropAcc k id).die n = s.die n := rfl
@[simp] theorem State.dropAcc_module_acc (s : State) (k id : Nat) (n : Nat) : (s.dropAcc k id).module n = s.module n := rfl
@[simp] theorem State.dropAcc_launch_acc (s : State) (k id : Nat) (n : Nat) : (s.dropAcc k id).launch n = s.launch n := rfl
@[simp] theorem State.dropAcc_byte (s : State) (k id : Nat) (n : Nat) : (s.dropAcc k id).byte n = s.byte n := rfl
@[simp] theorem State.setWordQ_slot_acc (s : State) (w : Nat) (q : WordQ) (n : Nat) : (s.setWordQ w q).slot n = s.slot n := rfl
@[simp] theorem State.setWordQ_core_acc (s : State) (w : Nat) (q : WordQ) (n : Nat) : (s.setWordQ w q).core n = s.core n := rfl
@[simp] theorem State.setWordQ_cluster_acc (s : State) (w : Nat) (q : WordQ) (n : Nat) : (s.setWordQ w q).cluster n = s.cluster n := rfl
@[simp] theorem State.setWordQ_die_acc (s : State) (w : Nat) (q : WordQ) (n : Nat) : (s.setWordQ w q).die n = s.die n := rfl
@[simp] theorem State.setWordQ_module_acc (s : State) (w : Nat) (q : WordQ) (n : Nat) : (s.setWordQ w q).module n = s.module n := rfl
@[simp] theorem State.setWordQ_launch_acc (s : State) (w : Nat) (q : WordQ) (n : Nat) : (s.setWordQ w q).launch n = s.launch n := rfl
@[simp] theorem State.setWordQ_byte (s : State) (w : Nat) (q : WordQ) (n : Nat) : (s.setWordQ w q).byte n = s.byte n := rfl

/-- The instance changed is read. -/
@[simp] theorem State.modInst_slot (s : State) (k : Nat) (f : Inst → Inst) :
    (s.modInst k f).slot k = { s.slot k with inst := (s.slot k).inst.map f } :=
  State.modSlot_slot s k _

/-- Two changes of a slot are one. -/
theorem State.modSlot_modSlot_slot (s : State) (k : Nat) (f g : Slot → Slot) :
    ((s.modSlot k f).modSlot k g).slot k = g (f (s.slot k)) := by
  simp

end Sys2Proof.Machine
end

