-- ==== Sys2Proof/Laws/Firing.lean ====
section
/-! SUPPORT. Firing: what the shells answer when an instruction fires, when it does not, and what sending
tokens can do. -/

namespace Sys2Proof.Machine

open Sys2Proof.Safety

/-- A register just written is read; g0 reads as 0. -/
theorem Slot.reg_setReg_self (sl : Slot) (r : Nat) (v : Reg) (h : r ≠ 0) : (sl.setReg r v).reg r = v := by
  simp [Slot.setReg, Slot.reg, h]

/-- Every other register stays. -/
theorem Slot.reg_setReg_other (sl : Slot) {r q : Nat} (v : Reg) (h : q ≠ r) : (sl.setReg r v).reg q = sl.reg q := by
  unfold Slot.setReg Slot.reg
  split
  · rfl
  · split
    · rfl
    · exact tabGet_tabPut_other sl.regs v {} h

/-- A write to g0 changes nothing. -/
@[simp] theorem Slot.setReg_zero (sl : Slot) (v : Reg) : sl.setReg 0 v = sl := rfl

/-- The operands of an instruction that fires are those its operand slots hold. -/
theorem operands_of_fires {s : State} {i : Instr} {o : Fired} (h : Fires s i o) :
    ∃ n, s.focused = some n ∧ n.ready (formOf i) = true ∧
      ((formOf i).predicated = true → Token.poisoned n.third = false) ∧
      n.fired (formOf i) s.focus.slot s.focus.node = o := by
  obtain ⟨n, hn, hidle, hl, hr, ht, hs, hk⟩ := h
  refine ⟨n, hn, ?_, ?_, ?_⟩
  · unfold SlotHolds at hl hr
    unfold ThirdHolds at ht
    simp only [Node.ready, hidle, decide_true, Bool.true_and, Bool.and_eq_true, Bool.or_eq_true, Bool.not_eq_true']
    refine ⟨⟨?_, ?_⟩, ?_⟩
    · cases hf : (formOf i).left <;> simp_all [Token.isData]
    · cases hf : (formOf i).right <;> simp_all [Token.isData]
    · cases hf : (formOf i).third
      · cases hp : (formOf i).predicated
        · simp [Form.uses, hf, hp]
        · simp only [hf, hp, Bool.false_eq_true, if_false, if_true] at ht
          obtain ⟨_, _, q, hq, _⟩ := ht
          simp [hq, Token.isData]
      · simp_all [Token.isData]
  · intro hp
    unfold ThirdHolds at ht
    cases hf : (formOf i).third
    · simp only [hf, hp, Bool.false_eq_true, if_false, if_true] at ht
      obtain ⟨_, _, q, hq, _⟩ := ht
      simp [hq, Token.poisoned]
    · simp [Form.predicated, hf] at hp
  · unfold SlotHolds at hl hr
    unfold ThirdHolds at ht
    obtain ⟨os, on, ol, or_, ot, olp, orp, otp⟩ := o
    simp only at hl hr ht hs hk
    simp only [Node.fired, Fired.mk.injEq]
    refine ⟨hs.symm, hk.symm, ?_, ?_, ?_, ?_, ?_, ?_⟩
    · cases hf : (formOf i).left <;> simp_all [Token.value]
    · cases hf : (formOf i).right <;> simp_all [Token.value]
    · cases hf : (formOf i).third <;> simp_all [Token.value]
    · cases hf : (formOf i).left <;> simp_all [Token.poisoned]
    · cases hf : (formOf i).right <;> simp_all [Token.poisoned]
    · cases hf : (formOf i).third <;> simp_all [Token.poisoned]

/-- An instruction that fires runs its body on its operands. -/
theorem fire_of_fires {s : State} {i : Instr} {o : Fired} (body : Fired → State → State) (h : Fires s i o) :
    fire i body s = body o s := by
  obtain ⟨n, hn, hr, hp, ho⟩ := operands_of_fires h
  unfold fire
  rw [hn]
  simp only [hr, if_true, ho]
  cases hq : (formOf i).predicated
  · simp
  · simp [hp hq]

/-- The shell of R290 on an instruction that fires. -/
theorem aluShell_of_fires {s : State} {i : Instr} {o : Fired} (f : Word → Word → Word → Word) (h : Fires s i o) :
    aluShell i f s = finish i o (.data (f o.l o.r o.t) o.poison) s :=
  fire_of_fires _ h

/-- The shell of R334 on an instruction that fires with clean operands. -/
theorem checkedShell_of_fires {s : State} {i : Instr} {o : Fired} (body : Fired → State → State) (h : FiresClean s i o) :
    checkedShell i body s = body o s := by
  unfold checkedShell
  rw [fire_of_fires _ h.1]
  simp [h.2]

/-- Outside an instance nothing fires. -/
theorem fire_of_no_instance {s : State} (i : Instr) (body : Fired → State → State)
    (h : (s.slot s.focus.slot).inst = none) : fire i body s = s := by
  simp [fire, State.focused, h]

end Sys2Proof.Machine
end

