-- ==== Sys2Proof/Laws/Memory.lean ====
section
/-! SUPPORT. Memory: a read after a write, and the canonical form that every operation on memory keeps. -/

namespace Sys2Proof.Machine

/-- The form holds from a lower bound too. -/
theorem memWfFrom_mono {a b : Nat} {m : List Host.Cell} (h : memWfFrom b m = true) (hab : a ≤ b) : memWfFrom a m = true := by
  cases m with
  | nil => rfl
  | cons c m =>
    obtain ⟨x, v⟩ := c
    simp only [memWfFrom, Bool.and_eq_true, decide_eq_true_eq] at h ⊢
    exact ⟨⟨by omega, h.1.2⟩, h.2⟩

/-- A byte below the least address reads 0. -/
theorem memGet_below {lo n : Nat} {m : List Host.Cell} (h : memWfFrom lo m = true) (hn : n < lo) : memGet m n = 0#8 := by
  cases m with
  | nil => rfl
  | cons c m =>
    obtain ⟨x, v⟩ := c
    simp only [memWfFrom, Bool.and_eq_true, decide_eq_true_eq] at h
    have : n ≠ x ∧ n < x := by omega
    simp [memGet, this]

/-- Writing a byte keeps the form. -/
theorem memPut_wfFrom {lo a : Nat} {m : List Host.Cell} (v : Byte) (h : memWfFrom lo m = true) (ha : lo ≤ a) :
    memWfFrom lo (memPut m a v) = true := by
  induction m generalizing lo with
  | nil =>
    unfold memPut
    split
    · rfl
    · rename_i hv
      simp [memWfFrom, ha, hv]
  | cons c m ih =>
    obtain ⟨x, w⟩ := c
    simp only [memWfFrom, Bool.and_eq_true, decide_eq_true_eq] at h
    obtain ⟨⟨h1, h2⟩, h3⟩ := h
    unfold memPut
    split
    · rename_i e
      subst e
      split
      · exact memWfFrom_mono h3 (by omega)
      · rename_i hv
        simp [memWfFrom, ha, hv, h3]
    · split
      · rename_i hlt
        split
        · simp [memWfFrom, h1, h2, h3]
        · rename_i hv
          have hx : a + 1 ≤ x := hlt
          simp [memWfFrom, ha, hv, hx, h2, h3]
      · simp only [memWfFrom, h1, h2, decide_true, Bool.true_and]
        exact ih h3 (by omega)

/-- Writing a byte keeps the canonical form. -/
theorem memPut_wf (m : List Host.Cell) (a : Nat) (v : Byte) (h : memWf m = true) : memWf (memPut m a v) = true :=
  memPut_wfFrom v h (Nat.zero_le a)

/-- Writing bytes keeps the canonical form. -/
theorem memPutAll_wf (m : List Host.Cell) (a : Nat) (bs : List Byte) (h : memWf m = true) :
    memWf (memPutAll m a bs) = true := by
  induction bs generalizing m a with
  | nil => exact h
  | cons b bs ih => exact ih _ _ (memPut_wf m a b h)

/-- Leaving entries out keeps the form. -/
theorem filter_wfFrom {lo : Nat} (m : List Host.Cell) (p : Host.Cell → Bool) (h : memWfFrom lo m = true) :
    memWfFrom lo (m.filter p) = true := by
  induction m generalizing lo with
  | nil => rfl
  | cons c m ih =>
    obtain ⟨x, w⟩ := c
    simp only [memWfFrom, Bool.and_eq_true, decide_eq_true_eq] at h
    rw [List.filter_cons]
    split
    · simp [memWfFrom, h.1.1, h.1.2, ih h.2]
    · exact memWfFrom_mono (ih h.2) (by omega)

/-- The byte just written is read. -/
theorem memGet_memPut_self {lo a : Nat} (m : List Host.Cell) (v : Byte) (h : memWfFrom lo m = true) :
    memGet (memPut m a v) a = v := by
  induction m generalizing lo with
  | nil =>
    unfold memPut
    split
    · rename_i hv; simp [memGet, hv]
    · simp [memGet]
  | cons c m ih =>
    obtain ⟨x, w⟩ := c
    simp only [memWfFrom, Bool.and_eq_true, decide_eq_true_eq] at h
    unfold memPut
    split
    · rename_i e
      subst e
      split
      · rename_i hv
        rw [memGet_below h.2 (by omega), hv]
      · simp [memGet]
    · split
      · rename_i hne hlt
        split
        · rename_i hv; simp [memGet, hne, hlt, hv]
        · simp [memGet]
      · rename_i hne hge
        simp [memGet, hne, hge, ih h.2]

/-- Every other byte stays. -/
theorem memGet_memPut_other {lo a n : Nat} (m : List Host.Cell) (v : Byte) (h : memWfFrom lo m = true) (hn : n ≠ a) :
    memGet (memPut m a v) n = memGet m n := by
  induction m generalizing lo with
  | nil =>
    unfold memPut
    split
    · rfl
    · simp [memGet, hn]
  | cons c m ih =>
    obtain ⟨x, w⟩ := c
    simp only [memWfFrom, Bool.and_eq_true, decide_eq_true_eq] at h
    unfold memPut
    split
    · rename_i e
      subst e
      split
      · simp only [memGet, hn, if_false]
        split
        · rename_i hlt; exact memGet_below h.2 (by omega)
        · rfl
      · simp [memGet, hn]
    · split
      · rename_i hne hlt
        split
        · rfl
        · by_cases hna : n < a
          · have : n ≠ x ∧ n < x := by omega
            simp [memGet, hn, hna, this]
          · simp [memGet, hn, hna]
      · simp only [memGet, ih h.2]

/-- Bytes outside a run that is written stay. -/
theorem memGet_memPutAll_other (m : List Host.Cell) (a : Nat) (bs : List Byte) (n : Nat) (h : memWf m = true)
    (hn : n < a ∨ a + bs.length ≤ n) : memGet (memPutAll m a bs) n = memGet m n := by
  induction bs generalizing m a with
  | nil => rfl
  | cons b bs ih =>
    simp only [List.length_cons] at hn
    rw [memPutAll, ih _ _ (memPut_wf m a b h) (by omega), memGet_memPut_other m b h (by omega)]

/-- A byte of a run just written is read. -/
theorem memGet_memPutAll_self (m : List Host.Cell) (a : Nat) (bs : List Byte) (i : Nat) (h : memWf m = true)
    (hi : i < bs.length) : memGet (memPutAll m a bs) (a + i) = bs.getD i 0#8 := by
  induction bs generalizing m a i with
  | nil => simp at hi
  | cons b bs ih =>
    rw [memPutAll]
    cases i with
    | zero =>
      rw [memGet_memPutAll_other _ _ _ _ (memPut_wf m a b h) (by omega)]
      simp [memGet_memPut_self m b h]
    | succ i =>
      simp only [List.length_cons] at hi
      have := ih (memPut m a b) (a + 1) i (memPut_wf m a b h) (by omega)
      rw [show a + (i + 1) = a + 1 + i by omega, this]
      simp

/-- Writing bytes keeps the memory of the state in its form. -/
theorem putBytes_wf (s : State) (pa : Nat) (bs : List Byte) (h : memWf s.mem = true) : memWf (s.putBytes pa bs).mem = true :=
  memPutAll_wf s.mem pa bs h

/-- Zeroing a span keeps the memory of the state in its form. -/
theorem zeroFull_wf (s : State) (lo hi : Nat) (h : memWf s.mem = true) : memWf (s.zeroFull lo hi).mem = true :=
  filter_wfFrom s.mem _ h

/-- A byte outside those written reads as before. -/
theorem byte_putBytes_other (s : State) (pa : Nat) (bs : List Byte) (n : Nat) (h : memWf s.mem = true)
    (hn : n < pa ∨ pa + bs.length ≤ n) : (s.putBytes pa bs).byte n = s.byte n :=
  memGet_memPutAll_other s.mem pa bs n h hn

/-- A byte just written is read. -/
theorem byte_putBytes_self (s : State) (pa : Nat) (bs : List Byte) (i : Nat) (h : memWf s.mem = true)
    (hi : i < bs.length) : (s.putBytes pa bs).byte (pa + i) = bs.getD i 0#8 :=
  memGet_memPutAll_self s.mem pa bs i h hi

end Sys2Proof.Machine
end

