-- ==== Sys2Proof/Laws/MemInv.lean ====
section
/-! SUPPORT. The canonical form of memory is kept by every operation on memory, and requests at their points of coherence
change memory by those operations alone. -/

namespace Sys2Proof.Machine

open Sys2Proof.Safety

/-! ## Sets of keys -/

theorem setWfFrom_mono {a b : Nat} {t : List Nat} (h : setWfFrom b t = true) (hab : a ≤ b) : setWfFrom a t = true := by
  cases t with
  | nil => rfl
  | cons k t =>
    simp only [setWfFrom, Bool.and_eq_true, decide_eq_true_eq] at h ⊢
    exact ⟨by omega, h.2⟩

theorem setIns_wf {lo n : Nat} (t : List Nat) (h : setWfFrom lo t = true) (hn : lo ≤ n) : setWfFrom lo (setIns t n) = true := by
  induction t generalizing lo with
  | nil => simp [setIns, setWfFrom, hn]
  | cons k t ih =>
    simp only [setWfFrom, Bool.and_eq_true, decide_eq_true_eq] at h
    unfold setIns
    split
    · simp [setWfFrom, h]
    · split
      · simp only [setWfFrom, Bool.and_eq_true, decide_eq_true_eq]
        exact ⟨hn, by omega, h.2⟩
      · simp only [setWfFrom, Bool.and_eq_true, decide_eq_true_eq]
        exact ⟨h.1, ih h.2 (by omega)⟩

theorem setDel_wf {lo : Nat} (t : List Nat) (n : Nat) (h : setWfFrom lo t = true) : setWfFrom lo (setDel t n) = true := by
  induction t generalizing lo with
  | nil => rfl
  | cons k t ih =>
    simp only [setWfFrom, Bool.and_eq_true, decide_eq_true_eq] at h
    unfold setDel
    split
    · exact setWfFrom_mono h.2 (by omega)
    · split
      · simp [setWfFrom, h]
      · simp only [setWfFrom, Bool.and_eq_true, decide_eq_true_eq]
        exact ⟨h.1, ih h.2⟩

theorem setFilter_wf {lo : Nat} (t : List Nat) (p : Nat → Bool) (h : setWfFrom lo t = true) :
    setWfFrom lo (t.filter p) = true := by
  induction t generalizing lo with
  | nil => rfl
  | cons k t ih =>
    simp only [setWfFrom, Bool.and_eq_true, decide_eq_true_eq] at h
    rw [List.filter_cons]
    split
    · simp only [setWfFrom, Bool.and_eq_true, decide_eq_true_eq]
      exact ⟨h.1, ih h.2⟩
    · exact setWfFrom_mono (ih h.2) (by omega)

/-! ## The operations on memory -/

theorem MemInv_reset : MemInv State.reset := ⟨rfl, rfl, rfl⟩

theorem sameMemory_refl (s : State) : SameMemory s s := ⟨rfl, rfl, rfl⟩

theorem sameMemory_trans {s t u : State} (h : SameMemory s t) (k : SameMemory t u) : SameMemory s u :=
  ⟨k.1.trans h.1, k.2.1.trans h.2.1, k.2.2.trans h.2.2⟩

theorem sameMemory_inv {s t : State} (h : SameMemory s t) (k : MemInv s) : MemInv t := by
  obtain ⟨hm, he, hp⟩ := h
  unfold MemInv
  rw [hm, he, hp]
  exact k

theorem putBytes_inv (s : State) (pa : Nat) (bs : List Byte) (h : MemInv s) : MemInv (s.putBytes pa bs) :=
  ⟨putBytes_wf s pa bs h.1, h.2⟩

theorem putWord_inv (s : State) (pa : Nat) (v : Word) (h : MemInv s) : MemInv (s.putWord pa v) := putBytes_inv s pa _ h

theorem setFull_inv (s : State) (pa : Nat) (b : Bool) (h : MemInv s) : MemInv (s.setFull pa b) := by
  refine ⟨h.1, ?_, h.2.2⟩
  cases b
  · exact setIns_wf _ h.2.1 (Nat.zero_le _)
  · exact setDel_wf _ _ h.2.1

theorem setUnitPoison_inv (s : State) (pa : Nat) (b : Bool) (h : MemInv s) : MemInv (s.setUnitPoison pa b) := by
  refine ⟨h.1, h.2.1, ?_⟩
  cases b
  · exact setDel_wf _ _ h.2.2
  · exact setIns_wf _ h.2.2 (Nat.zero_le _)

theorem setWordPoison_inv (s : State) (pa : Nat) (b : Bool) (h : MemInv s) : MemInv (s.setWordPoison pa b) :=
  setUnitPoison_inv _ _ b (setUnitPoison_inv s _ b h)

theorem zeroFull_inv (s : State) (lo hi : Nat) (h : MemInv s) : MemInv (s.zeroFull lo hi) :=
  ⟨zeroFull_wf s lo hi h.1, setFilter_wf _ _ h.2.1, setFilter_wf _ _ h.2.2⟩

/-- What every part of a fold keeps, the fold keeps. -/
theorem overAll_keeps {σ α : Type} (P : σ → Prop) (f : α → σ → σ) (hf : ∀ x s, P s → P (f x s)) (l : List α) (s : σ) (h : P s) :
    P (overAll f l s) := by
  induction l generalizing s with
  | nil => exact h
  | cons x l ih => exact ih _ (hf x s h)

/-- What no part of a fold changes in memory, the fold does not change. -/
theorem overAll_same {α : Type} (f : α → State → State) (hf : ∀ x s, SameMemory s (f x s)) (l : List α) (s : State) :
    SameMemory s (overAll f l s) :=
  overAll_keeps (SameMemory s) f (fun x t h => sameMemory_trans h (hf x t)) l s (sameMemory_refl s)

/-! ## What wakes and answers leaves memory alone -/

theorem fireWatch_same (wr : Writer) (c n : Nat) (w : Watch) (pa : Nat) (b : Bool) (s : State) :
    SameMemory s (fireWatch wr c n w pa b s) := ⟨rfl, rfl, rfl⟩

theorem watchWord_same (wr : Writer) (pa : Nat) (b : Bool) (s : State) : SameMemory s (watchWord wr pa b s) :=
  overAll_same _ (fun p t => overAll_same _ (fun q u => by
    split
    · exact fireWatch_same wr p.1 q.1 q.2 pa b u
    · exact sameMemory_refl u) _ t) _ s

theorem answer_same (r : Req) (a : Answer) (s : State) : SameMemory s (answer r a s) := by
  unfold answer
  split <;> exact ⟨rfl, rfl, rfl⟩

theorem grantTo_same (r : Req) (s : State) : SameMemory s (grantTo r s) := by
  unfold grantTo
  split
  · exact ⟨rfl, rfl, rfl⟩
  · exact sameMemory_refl s

theorem scanWaiters_same (w : Nat) (rs : List Req) (s : State) : SameMemory s (scanWaiters w rs s) := by
  induction rs generalizing s with
  | nil => exact sameMemory_refl s
  | cons r rs ih =>
    unfold scanWaiters
    dsimp only
    split
    · exact ih s
    · rename_i a _
      exact sameMemory_trans (sameMemory_trans (t := s.setWordQ w { s.wordQ w with waiters := (s.wordQ w).waiters.erase r })
        ⟨rfl, rfl, rfl⟩ (answer_same r a _)) (ih _)
    · rename_i a _
      split
      · exact ih s
      · exact sameMemory_trans (sameMemory_trans (sameMemory_trans
          (t := s.setWordQ w { s.wordQ w with waiters := (s.wordQ w).waiters.erase r }) ⟨rfl, rfl, rfl⟩ (grantTo_same r _))
          (answer_same r a _)) (ih _)

theorem wroteWord_same (wr : Writer) (b change : Bool) (w : Nat) (s : State) : SameMemory s (wroteWord wr b change w s) :=
  sameMemory_trans (sameMemory_trans (watchWord_same wr (w * 8) b s) (scanWaiters_same w _ _)) (scanWaiters_same (w - 1) _ _)

/-! ## Writes at a point of coherence -/

/-- A write of bytes changes memory as `putBytes` does. -/
theorem writeMem_same (wr : Writer) (pa : Nat) (bs : List Byte) (s : State) :
    SameMemory (s.putBytes pa bs) (writeMem wr pa bs s) :=
  overAll_same _ (fun w t => wroteWord_same wr false false w t) _ _

theorem writeMem_inv (wr : Writer) (pa : Nat) (bs : List Byte) (s : State) (h : MemInv s) : MemInv (writeMem wr pa bs s) :=
  sameMemory_inv (writeMem_same wr pa bs s) (putBytes_inv s pa bs h)

theorem writeWord_inv (wr : Writer) (pa : Nat) (v : Word) (s : State) (h : MemInv s) : MemInv (writeWord wr pa v s) :=
  writeMem_inv wr pa _ s h

/-- Every byte outside a write reads as before. -/
theorem writeMem_but (wr : Writer) (pa : Nat) (bs : List Byte) (s : State) (h : MemInv s) :
    MemoryBut s (writeMem wr pa bs s) pa bs.length := by
  intro a ha
  have e : (writeMem wr pa bs s).byte a = (s.putBytes pa bs).byte a :=
    congrArg (fun m => memGet m a) (writeMem_same wr pa bs s).1
  rw [e, byte_putBytes_other s pa bs a h.1 ha]

theorem writeFull_inv (wr : Writer) (pa : Nat) (b : Bool) (s : State) (h : MemInv s) : MemInv (writeFull wr pa b s) :=
  sameMemory_inv (wroteWord_same wr true _ (pa / 8) (s.setFull pa b)) (setFull_inv s pa b h)

theorem writeAndFill_inv (wr : Writer) (pa : Nat) (v : Word) (p : Bool) (s : State) (h : MemInv s) :
    MemInv (writeAndFill wr pa v p s) :=
  sameMemory_inv (wroteWord_same wr false _ (pa / 8) _) (putWord_inv _ pa v (setFull_inv _ pa true (setWordPoison_inv s pa p h)))

theorem writeBar_inv (wr : Writer) (pa : Nat) (b : Bar) (s : State) (h : MemInv s) : MemInv (writeBar wr pa b s) := by
  have h0 := putWord_inv _ (pa + 8) b.words.2 (putWord_inv s pa b.words.1 h)
  have h1 := sameMemory_inv (wroteWord_same wr false false (pa / 8) _) h0
  unfold writeBar
  dsimp only
  split <;> split
  · exact h0
  · exact h1
  · exact sameMemory_inv (wroteWord_same wr false false (pa / 8 + 1) _) h0
  · exact sameMemory_inv (wroteWord_same wr false false (pa / 8 + 1) _) h1

theorem modBar_inv (wr : Writer) (pa : Nat) (f : Bar → Bar) (s : State) (h : MemInv s) : MemInv (modBar wr pa f s) := by
  unfold modBar
  split
  · exact h
  · exact writeBar_inv wr pa _ s h

theorem performBarrier_inv (r : Req) (recorded : Option Nat) (s : State) (h : MemInv s) : MemInv (performBarrier r recorded s) := by
  unfold performBarrier
  dsimp only
  split
  · exact sameMemory_inv (answer_same r _ s) h
  · split <;> first
      | exact h
      | exact sameMemory_inv (answer_same r _ _) (writeBar_inv r.writer r.pa _ s h)

theorem poisonSpan_inv (pa n : Nat) (p : Bool) (s : State) (h : MemInv s) : MemInv (poisonSpan pa n p s) :=
  overAll_keeps MemInv _ (fun w t k => setWordPoison_inv t (w * 8) p k) _ s h

theorem performStore_inv (wr : Writer) (pa : Nat) (bs : List Byte) (p : Bool) (s : State) (h : MemInv s) :
    MemInv (performStore wr pa bs p s).2 := by
  unfold performStore
  dsimp only
  split
  · exact h
  · exact writeMem_inv wr pa bs _ (poisonSpan_inv pa _ p s h)

theorem performBytes_inv (wr : Writer) (p : Bool) (n pa : Nat) (bs : List Byte) (s : State) (h : MemInv s) :
    MemInv (performBytes wr p n pa bs s) := by
  induction n generalizing pa bs s with
  | zero => exact h
  | succ n ih =>
    unfold performBytes
    dsimp only
    split
    · exact h
    · exact ih _ _ _ (performStore_inv wr pa _ p s h)

theorem performAdd_inv (wr : Writer) (pa : Nat) (w : Width) (v : Word) (s : State) (h : MemInv s) :
    MemInv (performAdd wr pa w v s).2 := by
  unfold performAdd
  dsimp only
  split
  · exact h
  · exact writeWord_inv wr _ _ s h

theorem performReq_inv (r : Req) (s : State) (h : MemInv s) : MemInv (performReq r s).2 := by
  unfold performReq
  dsimp only
  split
  · split <;> exact h
  · exact performStore_inv r.writer r.pa _ _ s h
  · exact performBytes_inv r.writer _ _ r.pa _ s h
  · exact h
  · exact writeFull_inv r.writer r.pa false s h
  · exact writeAndFill_inv r.writer r.pa _ _ s h
  · exact performAdd_inv r.writer r.pa _ _ s h
  · exact h

theorem serveReq_inv (r : Req) (s : State) (h : MemInv s) : MemInv (serveReq r s) := by
  have k := performReq_inv r s h
  unfold serveReq
  split
  · rename_i a t e
    rw [e] at k
    exact sameMemory_inv (answer_same r a t) k
  · rename_i a t e
    rw [e] at k
    exact sameMemory_inv (sameMemory_trans (grantTo_same r t) (answer_same r a _)) k
  · rename_i t e
    rw [e] at k
    split
    · exact sameMemory_inv (answer_same r .notReady t) k
    · split
      · exact k
      · exact sameMemory_inv (answer_same r .full t) k

theorem nackParty_same (src : Source) (s : State) : SameMemory s (nackParty src s) := by
  unfold nackParty
  cases src.core? s <;> exact ⟨rfl, rfl, rfl⟩

theorem admitted_same (r : Req) (s : State) : SameMemory s (admitted r s) := by
  unfold admitted
  split <;> exact ⟨rfl, rfl, rfl⟩

theorem turnAway_same (r : Req) (s : State) : SameMemory s (turnAway r s) := by
  unfold turnAway
  split
  · exact nackParty_same r.src (s.send _)
  · exact answer_same r .nack s

theorem joinQueue_same (r : Req) (w : Nat) (s : State) : SameMemory s (joinQueue r w s) := by
  unfold joinQueue
  split
  · exact admitted_same r s
  · exact turnAway_same r s

theorem serveTurn_inv (r : Req) (s : State) (h : MemInv s) : MemInv (serveTurn r s) := by
  unfold serveTurn
  split
  · exact performBarrier_inv r _ s h
  · exact performBarrier_inv r _ s h
  · exact performBarrier_inv r _ s h
  · exact performBarrier_inv r _ s h
  · exact modBar_inv r.writer r.pa _ s h
  · exact h
  · exact serveReq_inv r s h

theorem arriveReq_inv (r : Req) (s : State) (h : MemInv s) : MemInv (arriveReq r s) := by
  unfold arriveReq
  split
  · exact serveReq_inv r _ (sameMemory_inv (admitted_same r s) h)
  · split
    · exact serveReq_inv r s h
    · exact sameMemory_inv (joinQueue_same r _ s) h

theorem arriveBarrier_inv (r : Req) (s : State) (h : MemInv s) : MemInv (arriveBarrier r s) := by
  unfold arriveBarrier
  split
  · exact serveTurn_inv r _ (sameMemory_inv (admitted_same r s) h)
  · exact sameMemory_inv (joinQueue_same r _ s) h

theorem serveQueue_inv (w n : Nat) (s : State) (h : MemInv s) : MemInv (serveQueue w n s) := by
  induction n generalizing s with
  | zero => exact h
  | succ n ih =>
    unfold serveQueue
    dsimp only
    split
    · apply ih
      split
      · exact h
      · exact serveTurn_inv _ _ h
    · exact h

theorem releaseWord_inv (r : Req) (s : State) (h : MemInv s) : MemInv (releaseWord r s) := by
  unfold releaseWord
  dsimp only
  split
  · apply serveQueue_inv
    split
    · exact writeWord_inv _ _ _ _ h
    · exact writeFull_inv _ _ _ _ h
    · exact writeAndFill_inv _ _ _ _ _ h
    · exact h
  · exact h

theorem leavePlace_inv (src : Source) (w : Nat) (s : State) (h : MemInv s) : MemInv (leavePlace src w s) := by
  unfold leavePlace
  dsimp only
  split
  · split
    · exact serveQueue_inv w _ _ h
    · exact h
  · exact h

/-- A party's turn that ends changes memory only as the requests that it lets through do. -/
theorem endTurn_inv (src : Source) (s : State) (h : MemInv s) : MemInv (endTurn src s) :=
  overAll_keeps MemInv _ (leavePlace_inv src) _ s h

theorem waitTurn_inv (src : Source) (w : Nat) (s : State) (h : MemInv s) : MemInv (waitTurn src w s) := by
  have h1 : MemInv (overAll (leavePlace src) (placesOf s src) s) := overAll_keeps MemInv _ (leavePlace_inv src) _ s h
  unfold waitTurn
  dsimp only
  split
  · exact h
  · split
    · exact h1
    · split
      · exact h1
      · exact sameMemory_inv (nackParty_same src _) h1

end Sys2Proof.Machine
end

