-- ==== Sys2Proof/Tests/Slice0.lean ====
section
/-! SUPPORT. Tests of the model, and for every statement with hypotheses a state and operands that meet them
together: the witnesses. Expected values are from the spec's encodings and tables or from hand calculation. -/

namespace Sys2Proof.Tests

/-! The proofs here are short computations: one after another, they need less memory. -/
set_option Elab.async false

open Sys2Proof.Machine Sys2Proof.Safety

/-! ## Well-formedness: a term that each check refuses -/

theorem test_ill_sameTarget : (Instr.add .always (.to .left 3#5) (.to .left 3#5) .w64).ill = some .sameTarget := by decide
theorem test_ill_insField : (Instr.ins .always .none .none .byte 57#6).ill = some .insField := by decide
theorem test_ill_exactMode : (Instr.fcvt .always .none .none .e11m52 true .other (.fixed .rz)).ill = some .exactMode := by decide
theorem test_ill_noPairTarget : (Instr.ld128 .always (.to .left 31#5) 0#5 false 0#8).ill = some .noPairTarget := by decide
theorem test_ill_notPutLeft : (Instr.amadd .always (.to .right 1#5) 0#5 false .w64 0#6).ill = some .notPutLeft := by decide
theorem test_ill_copyContext : (Instr.cpy .always 0#5 false 6#3).ill = some .copyContext := by decide
theorem test_ill_tlbiScope : (Instr.tlbiAll .always .none .none .fab).ill = some .tlbiScope := by decide
theorem test_ill_oddPair : (Instr.accz .always .none 1#3 true).ill = some .oddPair := by decide
theorem test_ill_sameTile : (Instr.ttrn .always .none 2#3 2#3).ill = some .sameTile := by decide
theorem test_ill_eliminate : (Instr.gelim .always .none 0#2 7#3).ill = some .eliminate := by decide
theorem test_ill_dimension : (Instr.gzero .always .none 0#2 0#3).ill = some .dimension := by decide
/-- The last field of INS that fits ends at bit 63. -/
theorem test_wf_insField : (Instr.ins .always .none .none .byte 56#6).wf = true := by decide

/-! ## Decoding: words written out field by field from R267 to R271 -/

/-- OP 0x07, PM 01, T0 = [05].left, T1 none, I8 = bit test of bit 9. -/
theorem test_decode_test : decodeTableWord 32 0b00000111_01_0100101_0000000_11001001 =
    some (.test .onTrue (.to .left 5#5) .none (.bit 9#6)) := by decide
/-- OP 0x08, PM 10, EXN 5, OFF16 = −2. -/
theorem test_decode_br : decodeTableWord 32 0b00001000_10_000101_1111111111111110 = some (.br .onFalse 5#6 0xFFFE#16) := by decide
/-- OP 0x11, PM 00, T0 = [01].right, T1 = [02].third, I8[7] = 1: 32 bits. -/
theorem test_decode_sub : decodeTableWord 32 0b00010001_00_1000001_1100010_10000000 =
    some (.sub .always (.to .right 1#5) (.to .third 2#5) .w32) := by decide
/-- OP 0x40, T0 = [03].left; I8[7] = 1: E8M23, I8[1:0] = 01: RZ. -/
theorem test_decode_fadd : decodeTableWord 32 0b01000000_00_0100011_0000000_10000001 =
    some (.fadd .always (.to .left 3#5) .none .e8m23 (.fixed .rz)) := by decide
/-- OP 0x66, T0 = [04].left, LSID 7, RLX, OFF8 = −1. -/
theorem test_decode_ld64 : decodeTableWord 32 0b01100110_00_0100100_00111_1_0_11111111 =
    some (.ld64 .always (.to .left 4#5) 7#5 true 0xFF#8) := by decide
/-- OP 0x82, T0 = [06].left, I8 = TL5. -/
theorem test_decode_tlwait : decodeTableWord 32 0b10000010_00_0100110_0000000_00000101 =
    some (.tlwait .always (.to .left 6#5) .none 5#3) := by decide
/-- OP 0x90, T0 none, I8 = priority 3. -/
theorem test_decode_post : decodeTableWord 32 0b10010000_00_0000000_0000000_00000011 = some (.post .always .none .none 3#2) := by decide
/-- OP 0xA4, T0 = [08].left, D 1, A 2, B 3, MOD 0. -/
theorem test_decode_mma : decodeTableWord 32 0b10100100_00_0101000_001_010_011_000000 =
    some (.mma .always (.to .left 8#5) 1#3 2#3 3#3 0#6) := by decide
/-- OP 0xB3, T0 none, D 2, MOD[2:0] = 5. -/
theorem test_decode_gelim : decodeTableWord 32 0b10110011_00_0000000_010_000_000_000101 =
    some (.gelim .always .none 2#2 5#3) := by decide
/-- OP 0xC1, PM 01, LSID 4, OFF8 = 16. -/
theorem test_decode_rst : decodeTableWord 32 0b11000001_01_0000000_00100_0_0_00010000 = some (.rst .onTrue 4#5 16#8) := by decide
/-- OP 0xE1, I8 = register 0x04. -/
theorem test_decode_mtc : decodeTableWord 32 0b11100001_00_0000000_0000000_00000100 = some (.mtc .always 4#8) := by decide
/-- PM 11 is reserved (R267); so is OP 0x00, and an INDEX beside SLOT 00 (R268). -/
theorem test_decode_reserved : decodeTableWord 32 0b00010001_11_0000000_0000000_00000000 = none ∧ decodeTableWord 32 0 = none ∧
    decodeTableWord 32 0b00010001_00_0000001_0000000_00000000 = none := by decide

/-! ## States for witnesses -/

/-- The operand slots of an instruction, filled with the tokens that it needs to fire. -/
def readyNode (i : Instr) (l r t : Word) : Node :=
  let f := formOf i
  { word := i.encode.getD 0
    left := if f.left then some (.data l false) else none
    right := if f.right then some (.data r false) else none
    third := if f.third then some (.data t false)
      else if f.predicated then some (.data (if f.pred = .onFalse then 0#64 else 1#64) false) else none }

/-- An instance with that instruction first. -/
def readyInst (j : Inst) (i : Instr) (l r t : Word) : Inst := { j with nodes := readyNode i l r t :: j.nodes }

/-- An instance of its slot's first block, with nothing else in it. -/
def bare : Inst := { num := 1, blk := 0x1000, nodes := [] }

/-- A state whose slot `k` is about to fire `i`. -/
def live (s : State) (k : Nat) (j : Inst) (i : Instr) (l r t : Word) : State :=
  { s.modSlot k (fun x => { x with life := .run, inst := some (readyInst j i l r t) }) with focus := { slot := k, node := 0 } }

/-- What it fires with. -/
def ops (k : Nat) (i : Instr) (l r t : Word) : Fired :=
  let f := formOf i
  { slot := k, node := 0, l := if f.left then l else 0#64, r := if f.right then r else 0#64, t := if f.third then t else 0#64
    lp := false, rp := false, tp := false }

theorem live_slot (s : State) (k : Nat) (j : Inst) (i : Instr) (l r t : Word) :
    (live s k j i l r t).slot k = { s.slot k with life := .run, inst := some (readyInst j i l r t) } :=
  State.modSlot_slot s k fun x => { x with life := .run, inst := some (readyInst j i l r t) }

theorem live_inst (s : State) (k : Nat) (j : Inst) (i : Instr) (l r t : Word) :
    InstIs (live s k j i l r t) k (readyInst j i l r t) := by
  unfold InstIs
  rw [live_slot]

/-- The instruction of such a state fires. -/
theorem live_fires (s : State) (k : Nat) (j : Inst) (i : Instr) (l r t : Word) (h : j.exit = none) :
    Fires (live s k j i l r t) i (ops k i l r t) := by
  refine ⟨readyNode i l r t, ?_, rfl, ?_, ?_, ?_, rfl, rfl⟩
  · have hk : (live s k j i l r t).focus = { slot := k, node := 0 } := rfl
    unfold State.focused
    rw [hk, live_slot]
    simp [readyInst, Inst.complete, h]
  all_goals
    unfold readyNode ops
    generalize formOf i = f
    obtain ⟨p, fl, fr, ft, _, _, _, _, _⟩ := f
  · cases fl <;> simp [SlotHolds]
  · cases fr <;> simp [SlotHolds]
  · cases ft <;> cases p <;> simp [ThirdHolds, Form.predicated, predHolds]

theorem live_clean (s : State) (k : Nat) (j : Inst) (i : Instr) (l r t : Word) (h : j.exit = none) :
    FiresClean (live s k j i l r t) i (ops k i l r t) :=
  ⟨live_fires s k j i l r t h, rfl⟩

/-- The same with its left operand poisoned. -/
def hurt (s : State) (k : Nat) (j : Inst) (i : Instr) (l r t : Word) : State :=
  { s.modSlot k (fun x => { x with life := .run, inst := some { j with nodes := { readyNode i l r t with
      left := if (formOf i).left then some (.data l true) else none } :: j.nodes } }) with focus := { slot := k, node := 0 } }

theorem hurt_slot (s : State) (k : Nat) (j : Inst) (i : Instr) (l r t : Word) :
    (hurt s k j i l r t).slot k = { s.slot k with life := .run, inst := some { j with nodes := { readyNode i l r t with
      left := if (formOf i).left then some (.data l true) else none } :: j.nodes } } :=
  State.modSlot_slot s k fun x => { x with life := .run, inst := some { j with nodes := { readyNode i l r t with
      left := if (formOf i).left then some (.data l true) else none } :: j.nodes } }

theorem hurt_inst (s : State) (k : Nat) (j : Inst) (i : Instr) (l r t : Word) : ∃ n, InstIs (hurt s k j i l r t) k n := by
  unfold InstIs
  rw [hurt_slot]
  exact ⟨_, rfl⟩

theorem hurt_fires (s : State) (k : Nat) (j : Inst) (i : Instr) (l r t : Word) (h : j.exit = none) :
    Fires (hurt s k j i l r t) i { ops k i l r t with lp := (formOf i).left } := by
  refine ⟨{ readyNode i l r t with left := if (formOf i).left then some (.data l true) else none }, ?_, rfl, ?_, ?_, ?_, rfl, rfl⟩
  · have hk : (hurt s k j i l r t).focus = { slot := k, node := 0 } := rfl
    unfold State.focused
    rw [hk, hurt_slot]
    simp [Inst.complete, h]
  all_goals
    unfold readyNode ops
    generalize formOf i = f
    obtain ⟨p, fl, fr, ft, _, _, _, _, _⟩ := f
  · cases fl <;> simp [SlotHolds]
  · cases fr <;> simp [SlotHolds]
  · cases ft <;> cases p <;> simp [ThirdHolds, Form.predicated, predHolds]

/-! ## Witnesses: the hypotheses of every statement can be met -/

theorem witness_DecodeEncode : (Instr.put .onTrue 63#6).wf = true ∧ (Instr.put .onTrue 63#6).encode = some 0x0240003F := by decide

theorem witness_EncodeDecode : (0x0200003F < 2 ^ 32 ∧ decodeWord 0x0200003F = .ok (.put .always 63#6)) ∧
    formatOf (fld 0xFF000000 24 8) = none := by
  constructor
  · exact ⟨by decide, by rfl⟩
  · decide

theorem witness_StepRunsDecoded :
    let s := State.reset.withFetchWord 32 0x10000000
    s.turns = [.issue 0] ∧ issueOf { s with turns := [] } 0 = some (0, 0) ∧
      ∃ j x, InstIs s 0 j ∧ j.nodes[0]? = some x ∧ decodeWord x.word = .ok (.add .always .none .none .w64) :=
  ⟨rfl, by decide, _, _, rfl, rfl, rfl⟩

/-- Instances with an ADD that has fired, and with one that lacks its right operand; no instance at all. -/
theorem witness_TokensFire_idle :
    (State.reset.focused = none) ∧
    (∃ n, (live State.reset 0 bare (.mov .always .none .none) 0 0 0).focused = some n ∧ n.right = none) :=
  ⟨by decide, _, rfl, rfl⟩

/-- A block of two instructions: an ADD at 0 without operands, and a PUT at 1. -/
def addThenPut : Inst := { num := 1, blk := 0x1000, nodes := [{ word := 0x10000000 }, { word := 0x0200003F }] }

def held (k : Nat) (j : Inst) : State := State.reset.modSlot k fun x => { x with life := .run, inst := some j }

theorem witness_TokensFire_send :
    InstIs (held 0 addThenPut) 0 addThenPut ∧ OpenFor addThenPut (.data 7#64 false) (.to .left 0#5) ∧
      OpenFor addThenPut (.data 7#64 false) (.to .right 0#5) ∧ (Tgt.to .left 0#5 = .to .right 0#5 → Tgt.to .left 0#5 = .none) :=
  ⟨rfl, ⟨_, rfl, by decide, rfl, by decide⟩, ⟨_, rfl, by decide, rfl, by decide⟩, by decide⟩

/-- A NULL to the PUT; and a token to the third slot of the ADD, which it does not use. -/
theorem witness_TokensFire_null :
    ∃ x, addThenPut.nodes[(1#5).toNat]? = some x ∧ x.st = .idle ∧ x.form.uses .left = true ∧ x.slotOf .left = none ∧
      x.form.t = .none ∧ x.form.u = .none ∧ x.form.pair = false ∧ ∃ y, addThenPut.nodes[(0#5).toNat]? = some y ∧
      y.form.uses .third = false :=
  ⟨_, rfl, rfl, by decide, rfl, by decide, by decide, by decide, _, rfl, by decide⟩

theorem witness_FaultDiscards : InstIs (held 0 addThenPut) 0 addThenPut ∧
    ∀ p ∈ addThenPut.actions, ∀ l n e b a y, p.2 ≠ .post l n e b a y := ⟨rfl, fun _ h => nomatch h⟩

/-- One instruction of each rule of IntegerResults fires; and so for the frame. -/
theorem witness_IntegerResults :
    (∃ s o R, Fires s (.div .onFalse .none .none .w32) o ∧ arithRule (.div .onFalse .none .none .w32) = some R) ∧
    (∃ s o R, Fires s (.sel .none .none) o ∧ logicRule (.sel .none .none) = some R) ∧
    (∃ s o R, Fires s (.clz .always .none .none .w64) o ∧ bitRule (.clz .always .none .none .w64) = some R) ∧
    (∃ s o R, Fires s (.fshl .none .none .w64) o ∧ shiftRule (.fshl .none .none .w64) = some R) ∧
    (∃ s o R, Fires s (.padd .always .none .none .wrap .l8) o ∧ packedRule (.padd .always .none .none .wrap .l8) = some R) :=
  ⟨⟨_, _, _, live_fires State.reset 0 bare _ 5#64 0#64 0#64 rfl, rfl⟩, ⟨_, _, _, live_fires State.reset 0 bare _ 5#64 6#64 0#64 rfl, rfl⟩,
    ⟨_, _, _, live_fires State.reset 0 bare _ 0#64 0#64 0#64 rfl, rfl⟩, ⟨_, _, _, live_fires State.reset 0 bare _ 1#64 2#64 64#64 rfl, rfl⟩,
    ⟨_, _, _, live_fires State.reset 0 bare _ 255#64 1#64 0#64 rfl, rfl⟩⟩

theorem witness_Registers_get : ∃ s o j, Fires s (.get .always .none .none 63#6) o ∧ InstIs s o.slot j ∧
    (63#6 ≠ 0#6 → (tabGet j.regs0 63 {}).pending = false ∧ (tabGet j.regs0 63 {}).poison = false) :=
  ⟨_, _, _, live_fires State.reset 0 bare _ 0 0 0 rfl, live_inst _ _ _ _ _ _ _, by decide⟩

theorem witness_Registers_put : ∃ s o j, Fires s (.put .always 63#6) o ∧ InstIs s o.slot j ∧
    (63#6 ≠ 0#6 → (tabGet j.regs0 63 {}).pending = false) ∧ j.hasReg 63 = false ∧ (63#6 = 63#6 → j.called = false) :=
  ⟨_, _, _, live_fires State.reset 0 bare _ 9 0 0 rfl, live_inst _ _ _ _ _ _ _, by decide, by decide, by decide⟩

theorem witness_Registers_null : ∃ s o, Fires s (.null .onTrue .none .none) o :=
  ⟨_, _, live_fires State.reset 0 bare _ 0 0 0 rfl⟩

/-- A first exit; an instance with an exit and an open PUT, in which a second exit fires; a REPOST in a task. -/
theorem witness_Registers_exits :
    (∃ s o j E, FiresClean s (.callr .always 63#6) o ∧ InstIs s o.slot j ∧ exitRule (.callr .always 63#6) = some E ∧
      j.exit = none ∧ j.hasReg 63 = false) ∧
    (∃ s o j, FiresClean s (.done .always 0#6) o ∧ InstIs s o.slot j ∧ j.exit ≠ none) ∧
    (∃ s o E, FiresClean s (.repost .always 1#6) o ∧ exitRule (.repost .always 1#6) = some E ∧ (s.slot o.slot).task.isSome = true) :=
  ⟨⟨_, _, _, _, live_clean State.reset 0 bare _ 0x1000 0 0 rfl, live_inst _ _ _ _ _ _ _, rfl, rfl, by decide⟩,
    ⟨held 0 { addThenPut with nodes := { word := 0x0C000000 } :: addThenPut.nodes, exit := some (.done, 0) },
      { slot := 0, node := 0, l := 0, r := 0, t := 0, lp := false, rp := false, tp := false }, _,
      ⟨⟨_, rfl, rfl, by simp [SlotHolds, formOf], by simp [SlotHolds, formOf], by simp [ThirdHolds, formOf, Form.predicated],
        rfl, rfl⟩, rfl⟩, rfl, by simp⟩,
    ⟨_, _, _, live_clean (State.reset.modSlot 0 fun x => { x with task := some { list := 0, entry := 0, handle := 0 } }) 0 bare _ 7 0 0 rfl,
      rfl, rfl⟩⟩

/-- A register for which a reply is outstanding, and a poisoned one; an exit with a poisoned operand. -/
theorem witness_Registers_waits :
    (∃ s o j, Fires s (.get .always .none .none 5#6) o ∧ InstIs s o.slot j ∧ (tabGet j.regs0 5 {}).pending = true) ∧
    (∃ s o j, Fires s (.get .always .none .none 5#6) o ∧ InstIs s o.slot j ∧ (tabGet j.regs0 5 {}).pending = false ∧
      (tabGet j.regs0 5 {}).poison = true) ∧
    (∃ s o j, Fires s (.put .always 5#6) o ∧ InstIs s o.slot j ∧ (tabGet j.regs0 5 {}).pending = true) ∧
    ∃ s o, Fires s (.callr .always 63#6) o ∧ (exitRule (.callr .always 63#6)).isSome = true ∧ o.poison = true ∧ ∃ j, InstIs s o.slot j :=
  ⟨⟨_, _, _, live_fires State.reset 0 { bare with regs0 := [(5, { pending := true })] } _ 0 0 0 rfl, live_inst _ _ _ _ _ _ _, rfl⟩,
    ⟨_, _, _, live_fires State.reset 0 { bare with regs0 := [(5, { poison := true })] } _ 0 0 0 rfl, live_inst _ _ _ _ _ _ _, rfl, rfl⟩,
    ⟨_, _, _, live_fires State.reset 0 { bare with regs0 := [(5, { pending := true })] } _ 0 0 0 rfl, live_inst _ _ _ _ _ _ _, rfl⟩,
    ⟨_, _, hurt_fires State.reset 0 bare _ 0x1000 0 0 rfl, rfl, rfl, hurt_inst _ _ _ _ _ _ _⟩⟩

/-- A poisoned predicate. -/
theorem witness_Registers_predicate :
    let i : Instr := .get .onTrue .none .none 0#6
    let n : Node := { readyNode i 0 0 0 with third := some (.data 1#64 true) }
    let s := held 0 { bare with nodes := [n] }
    InstIs s s.focus.slot { bare with nodes := [n] } ∧ s.focused = some n ∧ n.ready (formOf i) = true ∧ (formOf i).predicated = true ∧
      n.third = some (.data 1#64 true) ∧ (formOf i).kind ≠ .matrix := by
  refine ⟨rfl, rfl, ?_⟩
  decide

/-- After an ADD without targets its instance stands. -/
theorem witness_IntegerFrame : ∃ t : State,
    exec (.add .always .none .none .w64) (live State.reset 0 bare (.add .always .none .none .w64) 1 2 0) = .next t ∧
      (t.slot 0).inst ≠ none ∧ (arithRule (.add .always .none .none .w64)).isSome = true :=
  ⟨_, rfl, by decide, rfl⟩

theorem witness_FloatResults : ∃ s o j F, Fires s (.fadd .always .none .none .e8m23 (.fixed .rne)) o ∧ InstIs s o.slot j ∧
    floatRule (.fadd .always .none .none .e8m23 (.fixed .rne)) = some F :=
  ⟨_, _, _, _, live_fires State.reset 0 bare _ 0x3F800000#64 0x3F800000#64 0 rfl, live_inst _ _ _ _ _ _ _, rfl⟩

/-- 2^24 + 1 rounds to E8M23 by RNE without overflow. -/
theorem witness_RoundingIsCorrect : fmtE8M23 ∈ formats ∧ (16777217 : Nat) ≠ 0 ∧
    (roundTo fmtE8M23 .rne (.fin false 16777217 0)).flags.ofl = false ∧
    valueOf fmtE8M23 (roundTo fmtE8M23 .rne (.fin false 16777217 0)).bits = .fin false 8388608 1 := by
  refine ⟨by decide, by decide, by decide, by decide⟩

/-- A normal and a subnormal operand of FCLASS. -/
theorem witness_FclassSendsOneBit : ∃ s o j, Fires s (.fclass .always .none .none .e8m23) o ∧ InstIs s o.slot j ∧
    classOf .e8m23 o.l = 5 :=
  ⟨_, _, _, live_fires State.reset 0 bare _ 1 0 0 rfl, live_inst _ _ _ _ _ _ _, by decide⟩

theorem witness_ComparesSumsAndCells :
    (classOf .e11m52 0x7FF0000000000001#64 = 8) ∧ (classOf .e11m52 0#64 ≠ 8 ∧ classOf .e11m52 0x8000000000000000#64 ∈ [3, 4]) ∧
    ∃ s o j, Fires s (.cell .none .none) o ∧ InstIs s o.slot j :=
  ⟨by decide, by decide, _, _, _, live_fires State.reset 0 bare _ 0x3F800000#64 0 0 rfl, live_inst _ _ _ _ _ _ _⟩

/-! ### Memory operations -/

theorem fresh_of_all {s : State} {k : Nat} (h : ((s.slot k).accs.all fun b => b.id != s.nextId) = true) : FreshId s k := by
  intro b hb
  simpa using List.all_eq_true.mp h b hb


/-- A load at offset −1 from 0x108: the word at 0x100 of the own pail. -/
theorem witness_LocalAccesses_at : ∃ s o j R, Fires s (.ld64 .always .none 31#5 false 0xFF#8) o ∧ InstIs s o.slot j ∧
    accessRule (.ld64 .always .none 31#5 false 0xFF#8) = some R ∧ R.mayUse o ∧ R.va o = 0x100 ∧
    checkAddr s (R.want o) = .at 0x100000100 ∧ locationCheck (s.slot o.slot) j (R.acc o s j 0x100000100) = none ∧ FreshId s o.slot :=
  ⟨_, _, _, _, live_fires State.reset 0 bare _ 0x108#64 0 0 rfl, live_inst _ _ _ _ _ _ _, rfl, ⟨rfl, .inr rfl⟩, by decide +kernel, by decide +kernel, by decide +kernel,
    fresh_of_all rfl⟩

/-- Core 0 with an address space; then global memory is translated. -/
def mapped : State := State.reset.modCore 0 fun c => { c with xlatBase := 0x20000000001#64 }

/-- A misaligned address, and one whose page is not in the translation cache. -/
theorem witness_LocalAccesses_fault :
    (∃ s o R f, Fires s (.st64 .always 0#5 false 0#8) o ∧ accessRule (.st64 .always 0#5 false 0#8) = some R ∧ R.mayUse o ∧
      checkAddr s (R.want o) = .fault f) ∧
    (∃ s o R, Fires s (.st64 .always 0#5 false 0#8) o ∧ accessRule (.st64 .always 0#5 false 0#8) = some R ∧ R.mayUse o ∧
      checkAddr s (R.want o) = .miss) :=
  ⟨⟨_, _, _, _, live_fires State.reset 0 bare _ 0x104#64 0 0 rfl, rfl, ⟨rfl, .inl rfl⟩, by rfl⟩,
    ⟨_, _, _, live_fires mapped 0 bare _ 0x10000000000#64 0 0 rfl, rfl, ⟨rfl, .inl rfl⟩, by decide +kernel⟩⟩

/-- A poisoned address; of an atomic whose pure use is not a store, too. -/
theorem witness_LocalAccesses_poison :
    (∃ s o R, Fires s (.st64 .always 0#5 false 0#8) o ∧ accessRule (.st64 .always 0#5 false 0#8) = some R ∧ ¬R.mayUse o) ∧
    (∃ s o R, Fires s (.rel .always 0#5 .w64 0#6) o ∧ releaseRule (.rel .always 0#5 .w64 0#6) = some R ∧ ¬R.mayUse o) ∧
    (∃ s o R, Fires s (.rst .always 0#5 0#8) o ∧ remoteRule (.rst .always 0#5 0#8) = some R ∧ ¬R.mayUse o) ∧
    ∃ s o, Fires s (.amadd .always .none 0#5 true .w64 0#6) o ∧ ¬(amaddRule 0#5 true .w64 0#6 none).mayUse o :=
  ⟨⟨_, _, _, hurt_fires State.reset 0 bare _ 0x100 0 0 rfl, rfl, fun h => nomatch (h.1 : true = false)⟩,
    ⟨_, _, _, hurt_fires State.reset 0 bare _ 0x100 0 0 rfl, rfl, fun h => nomatch (h.1 : true = false)⟩,
    ⟨_, _, _, hurt_fires State.reset 0 bare _ 0x100 0 0 rfl, rfl, fun h => nomatch (h.1 : true = false)⟩,
    ⟨_, _, hurt_fires State.reset 0 bare _ 0x100 0 0 rfl, fun h => nomatch (h.1 : true = false)⟩⟩

/-- An RSV of a word that has fired. -/
def rsvAcc : Acc := { id := 0, inst := 1, lsid := 0, node := 1, kind := .holding, ordered := true, op := .rsv .w64, va := 0x100, pa := 0x100000100 }

theorem witness_ReleasesAddsRemote_rel : ∃ s o j R, Fires s (.rel .always 1#5 .w64 0#6) o ∧ InstIs s o.slot j ∧
    releaseRule (.rel .always 1#5 .w64 0#6) = some R ∧ o.poison = false ∧ o.l.toNat < 2 ^ 48 ∧
    heldByRat s o.slot 0 (o.l.toNat + R.off * R.unit).toNat = false ∧ checkAddr s (R.want o) = .at 0x100000100 ∧
    locationCheck (s.slot o.slot) j (R.acc o s j 0x100000100) = none ∧ FreshId s o.slot := by
  refine ⟨_, _, _, _, live_fires { State.reset.modSlot 0 (fun x => { x with accs := [rsvAcc] }) with nextId := 1 } 0 bare _ 0x100#64 5 0 rfl,
    live_inst _ _ _ _ _ _ _, rfl, rfl, by decide +kernel, by decide +kernel, by decide +kernel, by decide +kernel, ?_⟩
  exact fresh_of_all rfl

theorem witness_ReleasesAddsRemote_amadd :
    (∃ s o, Fires s (.amadd .always .none 0#5 true .w64 31#6) o ∧ o.poison = false ∧ FreshId s o.slot ∧
      checkAddr s ((amaddRule 0#5 true .w64 31#6 none).want o) = .at 0x1000000F8) ∧
    (∃ s o j x, Fires s (.amadd .always (.to .left 1#5) 0#5 true .w64 0#6) o ∧ InstIs s o.slot j ∧ o.poison = false ∧
      o.node ≠ (1#5).toNat ∧ j.nodes[(1#5).toNat]? = some x ∧ x.instr = some (.put .always 63#6) ∧ x.left = none ∧ x.st = .idle ∧
      j.hasReg 63 = false ∧ (tabGet j.regs0 63 {}).pending = false ∧
      checkAddr s ((amaddRule 0#5 true .w64 0#6 none).want o) = .at 0x100000100) :=
  ⟨⟨_, _, live_fires State.reset 0 bare _ 0#64 1#64 0 rfl, rfl, fresh_of_all rfl, by decide +kernel⟩,
    ⟨_, _, _, _, live_fires State.reset 0 { bare with nodes := [{ word := 0x0200003F }] } _ 0x100#64 1#64 0 rfl,
      live_inst _ _ _ _ _ _ _, rfl, by decide +kernel, rfl, rfl, rfl, rfl, rfl, rfl, by decide +kernel⟩⟩

/-- RLD of address 0 of module 8191, the largest that a global name holds. -/
theorem witness_ReleasesAddsRemote_remote : ∃ s o j R, Fires s (.rld .always .none 0#5 true 0xFF#8) o ∧ InstIs s o.slot j ∧
    remoteRule (.rld .always .none 0#5 true 0xFF#8) = some R ∧ R.mayUse o ∧ o.l.toNat < 2 ^ 61 ∧ 0 ≤ R.far o ∧ R.far o < 2 ^ 48 ∧
    R.far o % R.unit = 0 ∧ FreshId s o.slot ∧ locationCheck (s.slot o.slot) j (R.remoteAcc o s j) = none :=
  ⟨_, _, _, _, live_fires State.reset 0 bare _ 0x1FFF000000000008#64 0 0 rfl, live_inst _ _ _ _ _ _ _, rfl, ⟨rfl, .inr rfl⟩,
    by decide +kernel, by decide +kernel, by decide +kernel, by decide +kernel, fresh_of_all rfl, rfl⟩

theorem witness_HighAddressBits : ∃ w : Want, w.va = 2 ^ 48 ∧ 2 ^ 48 ≤ w.va :=
  ⟨{ core := 0, sys := true, va := 2 ^ 48, size := 8, use := .load }, rfl, by decide +kernel⟩

theorem witness_AddressChecks :
    (∃ w : Want, w.va < 2 ^ 48 ∧ w.va % w.size ≠ 0 ∧ w.va = 2 ^ 48 - 1) ∧
    (∃ w : Want, w.va < 2 ^ 48 ∧ w.va / 2 ^ 40 = 0xF ∧ w.va % w.size = 0 ∧ w.sys = false ∧ w.use = .store ∧ w.va = 0xF0000000000) :=
  ⟨⟨{ core := 0, sys := false, va := 2 ^ 48 - 1, size := 2, use := .load }, by decide +kernel⟩,
    ⟨{ core := 0, sys := false, va := 0xF0000000000, size := 8, use := .store }, by decide +kernel⟩⟩

/-- Slot 0 in a launch whose level 2 is a phase context of it, broken or not. -/
def phaseCtx (broken : Bool) : PhaseCtx := { launch := 0x20000000000, level := 2, index := [], members := [0], broken := broken }

/-- The state with it. -/
def phased (broken : Bool) : State :=
  { State.reset.modSlot 0 (fun x => { x with launch := 0x20000000000 }) with phases := [(0, phaseCtx broken)] }

theorem witness_FenceAndPhase :
    (∃ s o j, Fires s (.fence .always 0#5 .fab) o ∧ InstIs s o.slot j) ∧
    (∃ s o j c, Fires s (.phase .always 0#5 2#3) o ∧ InstIs s o.slot j ∧ s.phaseOf o.slot 2 = some c ∧ c.2.broken = false ∧
      FreshId s o.slot) ∧
    (∃ s o j c, Fires s (.phase .always 0#5 2#3) o ∧ InstIs s o.slot j ∧ s.phaseOf o.slot 2 = some c ∧ c.2.broken = true) ∧
    ∃ s o, Fires s (.phase .always 0#5 7#3) o ∧ s.phaseOf o.slot 7 = none :=
  ⟨⟨_, _, _, live_fires State.reset 0 bare _ 0 0 0 rfl, live_inst _ _ _ _ _ _ _⟩,
    ⟨_, _, _, (0, phaseCtx false), live_fires (phased false) 0 bare _ 0 0 0 rfl, live_inst _ _ _ _ _ _ _, by decide +kernel, by decide +kernel, fresh_of_all rfl⟩,
    ⟨_, _, _, (0, phaseCtx true), live_fires (phased true) 0 bare _ 0 0 0 rfl, live_inst _ _ _ _ _ _ _, by decide +kernel, by decide +kernel⟩,
    ⟨_, _, live_fires (phased false) 0 bare _ 0 0 0 rfl, by decide +kernel⟩⟩

/-- A committed relaxed store at 0x100. -/
def readyStore : Acc :=
  { rsvAcc with kind := .commitTime, op := .store 8 7#64 0#64 false, committed := true, st := .ready, ordered := false, lsid := 4 }

/-- It may leave, but not behind an earlier store that has left and writes its word. -/
theorem witness_FenceAndPhase_leaves :
    (MayLeave (State.reset.modSlot 0 fun x => { x with accs := [readyStore] }) 0 readyStore ∧ OneRequest readyStore ∧
      readyStore.op ≠ .bara ∧ (∀ level, readyStore.op ≠ .phase level) ∧ ∀ n b, readyStore.op ≠ .load n b) ∧
    ¬MayLeave (State.reset.modSlot 0 fun x => { x with accs := [{ readyStore with id := 7, lsid := 3, st := .sent }, readyStore] }) 0
      readyStore := by
  refine ⟨⟨⟨rfl, nofun, nofun, ?_, nofun, ?_, nofun⟩, ⟨rfl, by decide, rfl, trivial⟩, nofun, nofun, nofun⟩, ?_⟩
  · intro b hb hne
    exact absurd (congrArg Acc.id (List.mem_singleton.mp hb)) hne
  · intro b hb _ level
    rw [List.mem_singleton.mp hb]
    exact fun h => nomatch h
  · rintro ⟨-, -, -, h, -⟩
    rcases h _ (List.mem_cons_self ..) (by decide) (.inr ⟨rfl, by decide⟩) rfl (by decide) (by decide) with h | h | ⟨_, _, h⟩ <;> cases h

/-! ### Requests -/

/-- A message in flight. -/
def flying (m : Msg) : State := { State.reset with net := [(1, m)], nextId := 2 }

/-- A request of an access of slot 0 at the first global word. -/
def reqOf (op : MemOp) : Req := { src := .slot 0 0, inst := 1, op := op, pa := 0x10000000000 }

/-- The word of that request, held by slot 16. -/
def heldWord (s : State) (k : Nat) : State := { s with words := [(0x2000000000, { held := some (k, 1, 0) })] }

theorem witness_RequestsPerform :
    (let r := reqOf (.store 8 7#64 0#64 false);
      MemInv (flying (.req r)) ∧ tabFind (flying (.req r)).net 1 = some (.req r) ∧ regionOf (r.pa % 2 ^ 48) ≠ some .control ∧
        blockedAt (flying (.req r)) r = none) ∧
    (let r := reqOf (.store 8 7#64 0#64 false);
      tabFind (heldWord (flying (.req r)) 16).net 1 = some (.req r) ∧ regionOf (r.pa % 2 ^ 48) ≠ some .control ∧
        blockedAt (heldWord (flying (.req r)) 16) r = some 0x2000000000 ∧ entryFree (heldWord (flying (.req r)) 16) r.pa = true) := by
  decide +kernel

/-- A write that no party waits for: in its back-off, and at a word that is held. -/
theorem witness_RequestsPerform_persists :
    let r : Req := { src := .outside 0, op := .store 8 7#64 0#64 false, pa := 0x10000000000 }
    let s := heldWord (flying (.req r)) 16
    r.persists = true ∧ tabFind s.net 1 = some (.req r) ∧ regionOf (r.pa % 2 ^ 48) ≠ some .control ∧ r.op ≠ .festat ∧ r.op ≠ .breakBar ∧
      backingOff s r.src = false ∧ blockedAt s r = some 0x2000000000 ∧ entryFree s r.pa = true ∧
      backingOff { s with waits := [(.outside 0, 1, 64)] } r.src = true ∧ (reqOf (.store 8 7#64 0#64 false)).persists = false := by
  decide +kernel

/-- A hold queue of 64 requests leaves no entry free. -/
theorem witness_RequestsPerform_full :
    let r := reqOf (.rsv .w64)
    entryFree { flying (.req r) with words := [(0x2000000000, { held := some (16, 1, 0), queue := List.replicate 64 r })] } r.pa = false := by
  decide +kernel

theorem witness_HoldsRelease :
    let r := reqOf (.rel .w32 5#64)
    let s := heldWord (flying (.release r)) 0
    MemInv s ∧ Rising s.words ∧ tabFind s.net 1 = some (.release r) ∧ r.owns (s.wordQ (r.pa / 8)) = true ∧
      (s.wordQ (r.pa / 8)).queue = [] ∧ (s.wordQ (r.pa / 8)).waiters = [] ∧ r.pa % atomBytes .w32 = 0 := by
  refine ⟨by decide +kernel, ?_, by decide +kernel, by decide +kernel, by decide +kernel, by decide +kernel, by decide +kernel⟩
  simp [Rising, heldWord]

/-- A party that waits for its turn, an RSV and a store behind that hold. -/
theorem witness_HoldsRelease_queue :
    ∀ q ∈ [reqOf .turn, reqOf (.rsv .w64), reqOf (.store 8 7#64 0#64 false)],
      let r := reqOf (.reln .w64)
      let s : State := { flying (.release r) with words := [(0x2000000000, { held := some (0, 1, 0), queue := [q] })] }
      tabFind s.net 1 = some (.release r) ∧ r.owns (s.wordQ (r.pa / 8)) = true ∧ (s.wordQ (r.pa / 8)).queue = q :: [] ∧
        q.words = [r.pa / 8] ∧ s.wordPoisoned q.pa = false ∧ MemInv s ∧ q.src = .slot 0 0 := by
  decide +kernel

theorem witness_HoldsRelease_kinds : (reqOf .turn).op = .turn ∧ alwaysGranted (.rsv .w64) = true ∧ performsAtOnce (.store 8 7#64 0#64 false) = true :=
  ⟨rfl, rfl, rfl⟩

/-- Slot 0 runs an instance whose only access stands as given. -/
def withAcc (a : Acc) : State := State.reset.modSlot 0 fun x => { x with life := .run, inst := some bare, accs := [a] }

theorem witness_RetriesAndTimers_resend :
    (let a := { rsvAcc with st := .refused, notBefore := 0 };
      findAcc (withAcc a) a.id = some (0, a) ∧ a ∈ ((withAcc a).slot 0).accs ∧ OneRequest a ∧ a.st = .refused ∧
        a.notBefore ≤ (withAcc a).now) ∧
    (let a := { rsvAcc with st := .refused, notBefore := 1 };
      findAcc (withAcc a) a.id = some (0, a) ∧ a.st = .refused ∧ (withAcc a).now < a.notBefore) ∧
    (let a := { rsvAcc with st := .unready, tries := 16 };
      findAcc (withAcc a) a.id = some (0, a) ∧ a ∈ ((withAcc a).slot 0).accs ∧ OneRequest a ∧ a.st = .unready) :=
  ⟨⟨rfl, .head _, ⟨rfl, rfl, rfl, trivial⟩, rfl, by decide +kernel⟩, ⟨rfl, rfl, by decide +kernel⟩,
    ⟨rfl, .head _, ⟨rfl, rfl, rfl, trivial⟩, rfl⟩⟩

theorem witness_RetriesAndTimers_cancel : Rising (flying (.cancel 0 0 0x100000100)).words ∧
    tabFind (flying (.cancel 0 0 0x100000100)).net 1 = some (.cancel 0 0 0x100000100) :=
  ⟨.nil, rfl⟩

/-- A hold granted at cycle 0, with HOLD.LIMIT at its reset value of 2^20 cycles: at that cycle it has passed, one
before it has not. -/
def granted (now : Nat) : State :=
  { heldWord ((withAcc { rsvAcc with st := .granted, pa := 0x10000000000 }).modSlot 0 fun x =>
    { x with inst := some { bare with firstGrant := some 0 } }) 0 with now := now }

theorem witness_RetriesAndTimers_timeout :
    (∀ now, ((granted now).wordQ 0x2000000000).held = some (0, bare.num, 0) ∧
      InstIs (granted now) 0 { bare with firstGrant := some 0 } ∧
      ∃ a, ((granted now).slot 0).accs = [a] ∧ a.st = .granted ∧ a.committed = false) ∧
    (let s := granted 0x100000;
      (s.core 0).holdLimit.toNat ≠ 0 ∧ 0 + (s.core 0).holdLimit.toNat ≤ s.now ∧ (s.module 0).boot ≠ .frozen) ∧
    (granted 0xFFFFF).now < 0 + ((granted 0xFFFFF).core 0).holdLimit.toNat :=
  ⟨fun _ => ⟨rfl, rfl, _, rfl, rfl, rfl⟩, by decide +kernel, by decide +kernel⟩

theorem witness_RetriesAndTimers_normaliser :
    let s := State.reset.modCore 0 fun c => { c with normQueue := [0, 1] }
    (s.core 0).normQueue = 0 :: [1] ∧ (s.slot 0).slowUntil ≤ s.now ∧
      (s.modSlot 0 fun x => { x with slowUntil := 1 }).now < ((s.modSlot 0 fun x => { x with slowUntil := 1 }).slot 0).slowUntil := by
  decide +kernel

/-- Two AMADDs of the first word of bank 0 from cores 0 and 1 of die 0. -/
theorem witness_AddsCombine :
    let a : Req := { src := .slot 0 0, op := .amadd .w64 1#64 none, pa := 0x10000000000 }
    let b : Req := { src := .slot 16 0, op := .amadd .w64 2#64 none, pa := 0x10000000000 }
    let s : State := { State.reset with net := [(1, .req a), (2, .req b)], nextId := 3 }
    tabFind s.net 1 = some (.req a) ∧ tabFind s.net 2 = some (.req b) ∧ slotCore 0 ≠ slotCore 16 ∧
      regionOf (a.pa % 2 ^ 48) = some .global ∧ a.pa / 2 ^ 48 = slotModule 0 ∧ a.pa / 2 ^ 48 = slotModule 16 ∧
      a.owns (s.wordQ (a.pa / 8)) = false ∧ b.owns (s.wordQ (a.pa / 8)) = false ∧ (slotCore 0).testBit 0 = false ∧
      (slotCore 16).testBit 0 = true ∧ meetAt a b ≠ none := by
  decide +kernel

theorem witness_AddsCombine_split :
    let r : Req := { src := .slot 0 0, op := .amadd .w64 3#64 none, pa := 0x10000000000
                     combined := [(1, .slot 0 0, 0#64), (1, .slot 16 0, 1#64)] }
    tabFind (flying (.combined r (.value 5#64 0#64 false))).net 1 = some (.combined r (.value 5#64 0#64 false)) ∧
      r.op = .amadd .w64 3#64 none := ⟨rfl, rfl⟩

/-- The record of the switch where it was combined. -/
theorem witness_AddsCombine_record :
    let r : Req := { src := .slot 0 0, op := .amadd .w64 3#64 none, pa := 0x10000000000, joins := [5]
                     combined := [(1, .slot 0 0, 0#64), (1, .slot 16 0, 1#64)] }
    r.joins = [5] ∧ Rising ({ flying (.combined r (.value 5#64 0#64 false)) with switches := [(5, 1)] } : State).switches :=
  ⟨rfl, by simp [Rising]⟩

/-- A load of slot 0, at instruction 0, that has been sent; and its answer. -/
def sentLoad : Acc :=
  { id := 0, inst := 1, lsid := 0, node := 0, kind := .inBlock, ordered := true, op := .load 8 false, va := 0x100, pa := 0x100000100
    st := .sent }

theorem witness_RepliesArrive :
    let s := { (withAcc sentLoad).modSlot 0 (fun x => { x with inst := some (readyInst bare (.ld64 .always .none 0#5 false 0#8) 0x100#64 0 0) }) with
      net := [(1, .reply (.slot 0 0) 1 0 0x100000100 (.value 9#64 0#64 false))], nextId := 2 }
    tabFind s.net 1 = some (.reply (.slot 0 0) 1 0 0x100000100 (.value 9#64 0#64 false)) ∧ s.acc? 0 0 = some sentLoad ∧
      sentLoad.st = .sent ∧ sentLoad.parts = 1 ∧ tears sentLoad.pa sentLoad.op.size = false ∧ sentLoad.forwarded = [] ∧
      sentLoad.remote = none ∧ (∃ j y, InstIs s 0 j ∧ j.nodes[sentLoad.node]? = some y ∧ y.form.pair = false) ∧
      (flying (.reply (.slot 0 0) 1 0 0x100000100 (.grant 9#64))).acc? 0 0 = none :=
  ⟨by decide +kernel, by decide +kernel, rfl, rfl, rfl, rfl, rfl, ⟨_, _, by rfl, by rfl, by decide +kernel⟩, by decide +kernel⟩

/-- A sent RADD of a module that performs none. -/
theorem witness_RepliesArrive_unsup :
    let x : Acc := { sentLoad with op := .amadd .w64 7#64 none, kind := .commitTime, remote := some 1, committed := true }
    let s := { withAcc x with net := [(1, .reply (.slot 0 0) 1 0 0x100000100 .unsup)], nextId := 2 }
    tabFind s.net 1 = some (.reply (.slot 0 0) 1 0 0x100000100 .unsup) ∧ s.acc? 0 0 = some x ∧ x.st = .sent ∧ x.remote = some 1 := by
  decide +kernel

/-! ### Barriers and phases -/

theorem witness_BarriersAndPhases :
    (let r := reqOf .bara;
      let s := flying (.barrier r none);
      MemInv s ∧ tabFind s.net 1 = some (.barrier r none) ∧ blockedAt s r = none ∧ objectPoisoned s r.pa = false ∧
        (readBar s r.pa).arrived < 0xFFFFFF ∧ r.combined = [] ∧ r.persists = false) ∧
    (let r := reqOf .barx;
      let s := heldWord (flying (.barrier r (some 1))) 16;
      tabFind s.net 1 = some (.barrier r (some 1)) ∧ blockedAt s r = some 0x2000000000 ∧ entryFree s r.pa = true ∧ r.combined = [] ∧ r.persists = false) ∧
    (let s := { phased false with net := [(1, .phaseArrive 2 0)], nextId := 2 };
      tabFind s.net 1 = some (.phaseArrive 2 0) ∧ ∃ c, s.phaseOf 0 2 = some c ∧ c.2.broken = false ∧ c.2.members ≠ []) ∧
    (let s := { phased true with net := [(1, .phaseArrive 2 0)], nextId := 2 };
      ∃ c, s.phaseOf 0 2 = some c ∧ c.2.broken = true) ∧
    (let s := { phased false with net := [(1, .phaseRelease 0)], nextId := 2 };
      tabFind s.net 1 = some (.phaseRelease 0) ∧ ∃ c, tabFind s.phases 0 = some c) :=
  ⟨by decide +kernel, by decide +kernel, ⟨rfl, _, rfl, rfl, by decide +kernel⟩, ⟨_, rfl, rfl⟩, ⟨rfl, _, rfl⟩⟩

/-! ### Blocks -/

/-- Slot 0 stands before a block of the own pail at 0x100, whose words are these. -/
def before (ws : List Nat) : State :=
  (State.reset.putBytes 0x100000100 (ws.flatMap fun w => natBytes 4 w)).modSlot 0 fun x => { x with life := .fetch, next := 0x100 }

theorem cache_of_nil {s : State} {c : Nat} (h : (s.core c).blockCache = []) : CacheAgrees s c := by
  intro l hl
  rw [h] at hl
  cases hl

theorem blockWord_of {s : State} {k va : Nat} (pa : Nat)
    (h : (decide (checkAddr s { core := slotCore k, sys := systemSlot k, va := va, size := 4, use := .fetch } = .at pa) &&
      decide (pa % 4 = 0) && !s.wordPoisoned pa && (s.wordQ (pa / 8)).held.isNone) = true) : BlockWord s k va (s.readN pa 4) := by
  simp only [Bool.and_eq_true, decide_eq_true_eq, Bool.not_eq_true', Option.isNone_iff_eq_none] at h
  exact ⟨pa, h.1.1.1, h.1.1.2, h.1.2, h.2, rfl⟩

theorem words_of_three {s : State} {a b c : Nat} (h0 : BlockWord s 0 0x100 a) (h1 : BlockWord s 0 0x104 b)
    (h2 : BlockWord s 0 0x108 c) : ∀ i w, (a :: b :: [c])[i]? = some w → BlockWord s 0 (0x100 + 4 * i) w := by
  intro i w h
  match i, h with
  | 0, h => cases h; exact h0
  | 1, h => cases h; exact h1
  | 2, h => cases h; exact h2
  | i + 3, h => cases h

/-- A block of one DONE starts; one without the mark is refused. -/
theorem witness_BlocksStart :
    (let s := before [0xFF000000, 0, 0x0C000000];
      (s.slot 0).mayFetch = true ∧ (s.module 0).boot ≠ .frozen ∧ CacheAgrees s 0 ∧ [0x0C000000].length = headerNI 0xFF000000 ∧
        Idle s ∧ (∀ i w, (0xFF000000 :: 0 :: [0x0C000000])[i]? = some w → BlockWord s 0 (0x100 + 4 * i) w) ∧
        ∃ h, validateBlock (s.slotFile 0) 0xFF000000 0 [0x0C000000] = .ok h) ∧
    (∃ e n, validateBlock 64 0xFE000000 0 [0x0C000000] = .error (e, n)) ∧
    (let s := (before []).modSlot 0 fun x => { x with next := 0x102 };
      ∃ f, checkAddr s { core := 0, sys := false, va := (s.slot 0).next, size := 4, use := .fetch } = .fault f) :=
  ⟨⟨by decide +kernel, by decide +kernel, cache_of_nil rfl, by decide +kernel, ⟨rfl, fun _ h => nomatch h⟩,
      words_of_three (blockWord_of 0x100000100 (by decide +kernel)) (blockWord_of 0x100000104 (by decide +kernel))
        (blockWord_of 0x100000108 (by decide +kernel)), _, rfl⟩,
    ⟨_, _, rfl⟩, ⟨_, rfl⟩⟩

/-- The last word of that block is poisoned. -/
theorem witness_PoisonedBlockNeverStarts :
    let s := { before [0xFF000000, 0, 0x0C000000] with poison := [0x40000042] }
    (s.slot 0).mayFetch = true ∧ CacheAgrees s 0 ∧ 2 < headerNI 0xFF000000 + 2 ∧
      (∀ i w, i < 2 → (0xFF000000 :: 0 :: [0x0C000000])[i]? = some w → BlockWord s 0 (0x100 + 4 * i) w) ∧
      PoisonedWord s 0 (0x100 + 4 * 2) := by
  refine ⟨by decide +kernel, cache_of_nil rfl, by decide +kernel, ?_, 0x100000108, by decide +kernel, by decide +kernel, by decide +kernel,
    fun _ h => nomatch h⟩
  intro i w hi h
  match i, h with
  | 0, h => cases h; exact blockWord_of (s := { before [0xFF000000, 0, 0x0C000000] with poison := [0x40000042] }) 0x100000100 (by decide +kernel)
  | 1, h => cases h; exact blockWord_of (s := { before [0xFF000000, 0, 0x0C000000] with poison := [0x40000042] }) 0x100000104 (by decide +kernel)

/-- An instance with all that COMMIT applies: a PUT, a pending register, a control register, a staged byte, an action and
a CALL; its slot has a store to send and a granted hold to release. -/
def ending : Inst :=
  { bare with
    exit := some (.call 0x2000, 5), puts := [(5, 7#64, true)], pends := [6], ctl := [{ index := 5, val := 9#64 }]
    staged := { bytes := [(0x100000200, 1#8, false)] }, actions := [(0, .csync)] }

def endingState : State :=
  (State.reset.modSlot 0 fun x => { x with
    life := .run, inst := some ending
    accs := [{ rsvAcc with id := 1, kind := .commitTime, op := .store 8 7#64 0#64 false }, { rsvAcc with op := .swap .w64 3#64, st := .granted }] })

theorem witness_CommitApplies :
    InstIs endingState 0 ending ∧ ending.exit = some (.call 0x2000, 5) ∧ commitReady (endingState.slot 0) = true ∧
      ending.scaleError = none ∧ (5, 7#64, true) ∈ ending.puts ∧ ¬(5 = 63 ∧ isCall ending) ∧ isCall ending ∧ 6 ∈ ending.pends ∧
      ending.ctl = [{ index := 5, val := 9#64 }] ∧ 5 ∈ writableBits.map (·.1) ∧ MemInv endingState ∧ Rising ending.staged.bytes ∧
      commitReady ((endingState.modSlot 0 fun x => { x with accs := [{ rsvAcc with st := .sent }] }).slot 0) = false :=
  ⟨rfl, rfl, by decide +kernel, rfl, by decide +kernel, fun h => absurd h.1 (by decide +kernel), ⟨_, _, rfl⟩, by decide +kernel, rfl,
    by decide +kernel, by decide +kernel, by simp [Rising, ending], by decide +kernel⟩

/-- A granted reservation, with a REL of its word or without one. -/
theorem witness_CommitApplies_holds :
    let rel : Acc := { rsvAcc with id := 2, lsid := 3, kind := .commitTime, op := .rel .w64 9#64 }
    let s (as : List Acc) : State := endingState.modSlot 0 fun x => { x with accs := as }
    commitReady ((s [{ rsvAcc with st := .granted }]).slot 0) = true ∧
      (∀ b ∈ ((s [{ rsvAcc with st := .granted }]).slot 0).accs, b.op = .rsv .w64) ∧
      commitReady ((s [{ rsvAcc with st := .granted }, rel]).slot 0) = true ∧
      ∃ b ∈ ((s [{ rsvAcc with st := .granted }, rel]).slot 0).accs, b.committed = false ∧ b.inst = rel.inst ∧ b.st = .granted ∧
        b.remote = rel.remote ∧ b.pa / 8 = rel.pa / 8 := by
  refine ⟨by decide +kernel, by decide +kernel, by decide +kernel, _, .head _, by decide +kernel⟩

/-! ### Translation -/

/-- A miss on the page of 0x0200_0000_0000 of cluster 0, or the walk of it after its read of that level. -/
def theWalk (stale : Bool) (level : Nat) (read : Option (Word × Bool)) : Walk :=
  { cluster := 0, asid := 0, va := 0x20000000000, base := 0x20000000001, started := read.isSome, stale := stale, level := level, read := read }

/-- The state with it. -/
def missed (w : Walk) : State := { State.reset with walks := [(1, w)] }

theorem witness_TranslationsChange_start :
    let w := theWalk false 4 none
    let s := missed w
    tabFind s.walks 1 = some w ∧ w.started = false ∧ w.read = none ∧
      (s.walks.filter fun p => p.2.cluster == 0 && decide (p.1 < 1)).length < 32 ∧
      (s.walks.filter fun p => p.2.started && p.2.cluster / 128 == 0).length < 128 ∧ (∀ p ∈ s.walks, p.2.started = false) ∧
      (∀ p ∈ s.walks, p.1 = 1) ∧ sectorRow (w.base / 4096 % 2 ^ 36 * 4096) = 2 ∧ sectorRow (1 / 4096 % 2 ^ 36 * 4096) ≠ 2 := by
  decide +kernel

theorem idle_reset {s : State} (h : s.waits = [] ∧ s.words = []) : Idle s := ⟨h.1, by rw [h.2]; exact fun _ h => nomatch h⟩

/-- The level-4 entry that names the table at 0x0200_0000_1000. -/
theorem witness_TranslationsChange_descend :
    let w := theWalk false 4 (some (0x20000001001#64, false))
    tabFind (missed w).walks 1 = some w ∧ w.started = true ∧ Idle (missed w) ∧ sectorRow (w.base / 4096 % 2 ^ 36 * 4096) = 2 ∧
      w.level ≤ 4 ∧ NamesTable w.level (0x20000001001#64).toNat 0x20000001000 := by
  refine ⟨by decide +kernel, by decide, idle_reset ⟨rfl, rfl⟩, by decide +kernel, by decide, ?_⟩
  simp only [NamesTable]
  decide +kernel

/-- A level-3 leaf of one GiB, an invalid entry, a poisoned one, and one with a reserved bit. -/
theorem witness_TranslationsChange_ends :
    (∀ s, WalkEnded (missed s) (theWalk false 3 (some (0x2000000001F#64, false))) (.leaf 3 0x2000000001F)) ∧
    (∀ s, WalkEnded (missed s) (theWalk false 4 (some (0#64, false))) (.fault 5 1 4)) ∧
    (∀ s, WalkEnded (missed s) (theWalk false 4 (some (0#64, true))) (.fault 7 0xB 4)) ∧
    (∀ s, WalkEnded (missed s) (theWalk false 1 (some (0x81#64, false))) (.fault 6 2 1)) := by
  refine ⟨fun s => .inr ⟨by decide +kernel, by decide, _, _, rfl, ?_⟩, fun s => .inr ⟨by decide +kernel, by decide, _, _, rfl, ?_⟩,
    fun s => .inr ⟨by decide +kernel, by decide, _, _, rfl, rfl⟩, fun s => .inr ⟨by decide +kernel, by decide, _, _, rfl, ?_⟩⟩
  · have h : (missed s).module 0 = State.reset.module 0 := rfl
    simp only [NamesPage, theWalk, Nat.zero_div, h]
    exact .inl (by decide +kernel)
  · simp [theWalk]
  · have h : (missed s).module 0 = State.reset.module 0 := rfl
    simp only [NamesPage, NamesTable, theWalk, Nat.zero_div, h]
    exact .inr ⟨by decide +kernel, fun _ h => absurd h.1 (by decide), by decide⟩

/-- A walk that no access waits for; and one that the only access of slot 0 waits for. -/
theorem witness_TranslationsChange_complete :
    let w := theWalk false 3 (some (0x2000000001F#64, false))
    let a : Acc := { rsvAcc with st := .walking, op := .store 8 7#64 0#64 false, va := 0x20000000000 }
    (Rising (missed w).walks ∧ ∀ k, ((missed w).slot k).fetchMiss = none ∧ ((missed w).slot k).accs = []) ∧
    (let s := { withAcc a with walks := [(1, w)] };
      Rising s.walks ∧ Idle s ∧ (∀ k, (s.slot k).fetchMiss = none) ∧ coreCluster (slotCore 0) = w.cluster ∧ InstIs s 0 bare ∧
        a ∈ (s.slot 0).accs ∧ a.st = .walking ∧ a.asid = w.asid ∧ a.va / 65536 = w.va / 65536 ∧ (∀ p ∈ s.walks, p.1 = 1) ∧
        (∀ k, ∀ b ∈ (s.slot k).accs, k = 0 ∧ b = a) ∧ locationCheck (s.slot 0) bare { a with pa := 0x20000000000 } = none) := by
  intro w a
  have slot : ∀ k, k ≠ 0 → ({ withAcc a with walks := [(1, w)] } : State).slot k = {} := by
    intro k hk
    obtain _ | k := k
    · exact absurd rfl hk
    · rfl
  refine ⟨⟨by simp [Rising, missed], fun k => ⟨rfl, rfl⟩⟩, by simp [Rising], idle_reset ⟨rfl, rfl⟩, fun k => ?_, by decide, rfl, .head _, rfl, rfl,
    by decide, by simp, fun k b hb => ?_, by decide +kernel⟩
  · by_cases h : k = 0
    · subst h; rfl
    · rw [slot k h]
  · by_cases h : k = 0
    · subst h; exact ⟨rfl, List.mem_singleton.mp hb⟩
    · rw [slot k h] at hb; exact nomatch hb

theorem witness_TranslationsChange_tlbi :
    let s := { missed (theWalk true 3 (some (0#64, false))) with net := [(1, .tlbi 14 0 0x20000000000 0 .die)], nextId := 2 }
    tabFind s.net 1 = some (.tlbi 14 0 0x20000000000 0 .die) ∧ (∃ p ∈ s.walks, p.2.stale = true ∧ tlbiCoversWalk 14 .die p.2 = true) ∧
      (∀ p ∈ (missed (theWalk false 3 none)).walks, p.2.stale = true → tlbiCoversWalk 14 .die p.2 = false) ∧
      (∀ p ∈ s.copies, p.1 < 1 → p.2.accepted = false) ∧ (∀ p ∈ s.words, ∀ r ∈ p.2.queue ++ p.2.waiters, r.trans = none) ∧
      (let r : Req := { src := .slot 0 0, inst := 1, op := .load 8 false, pa := 0x10000000000, trans := some (0, 0x20000000000, 0) };
        (0 : Nat) < 1 ∧ r.trans = some (0, 0x20000000000, 0) ∧ r.pa / 2 ^ 48 = slotModule 14) := by
  decide +kernel

/-- A store of slot 0 that waits for its walk: a fault of it; leaves without W, without U, and with both. -/
theorem witness_TranslationsChange_resume :
    let a := { rsvAcc with st := .walking, op := .store 8 7#64 0#64 false, va := 0x20000000000 }
    ((withAcc a).slot 0).accs.find? (fun b => b.id == 0) = some a ∧ a.st = .walking ∧ a.va / 65536 = 0x2000000 ∧ InstIs (withAcc a) 0 bare ∧
      a.op.use.writes = true ∧ (0x2000000001B : Nat).testBit 2 = false ∧ (0x2000000000F : Nat).testBit 4 = false ∧
      (0x2000000001F : Nat).testBit 2 = true ∧ (0x2000000001F : Nat).testBit 4 = true ∧
      locationCheck ((withAcc a).slot 0) bare { a with pa := 0x20000000000 } = none :=
  ⟨rfl, rfl, by decide +kernel, rfl, rfl, by decide +kernel, by decide +kernel, by decide +kernel, by decide +kernel, rfl⟩

/-! ### Control registers -/

/-- The system-only half begins at 0x80; 0x0B is not listed. -/
theorem witness_ControlRegisters_mfc :
    (∃ s o j, FiresClean s (.mfc .always .none .none 0x80#8) o ∧ InstIs s o.slot j ∧ systemSlot o.slot = false ∧ 0x80 ≤ (0x80#8).toNat) ∧
    (∃ s o j, FiresClean s (.mfc .always .none .none 0x80#8) o ∧ InstIs s o.slot j ∧ systemSlot o.slot = true ∧
      ((0x80#8).toNat, 0#64) ∈ plainReads s o.slot) ∧
    (∃ s o, FiresClean s (.mfc .always .none .none 0x47#8) o ∧ systemSlot o.slot = false ∧ (0x47#8).toNat < 0x80 ∧
      (0x47#8).toNat ∈ readOnly) ∧
    (0x0B ∉ readOnly ∧ 0x0B ∉ writableBits.map (·.1)) :=
  ⟨⟨_, _, _, live_clean State.reset 13 bare _ 0 0 0 rfl, live_inst _ _ _ _ _ _ _, rfl, by decide +kernel⟩,
    ⟨_, _, _, live_clean State.reset 14 bare _ 0 0 0 rfl, live_inst _ _ _ _ _ _ _, rfl, by decide +kernel⟩,
    ⟨_, _, live_clean State.reset 13 bare _ 0 0 0 rfl, rfl, by decide +kernel, by decide +kernel⟩, by decide +kernel⟩

/-- FPC: bit 2 is reserved, bits 0 and 7 may be written. -/
theorem witness_ControlRegisters_mtc :
    (∃ s o j, FiresClean s (.mtc .always 0x04#8) o ∧ InstIs s o.slot j ∧ (4, 0xFB#64) ∈ writableBits ∧ o.l &&& ~~~0xFB#64 ≠ 0#64) ∧
    (∃ s o j, FiresClean s (.mtc .always 0x04#8) o ∧ InstIs s o.slot j ∧ o.l &&& ~~~0xFB#64 = 0#64 ∧ j.ctl = [] ∧
      controlCheck s o.slot o.node 4 o.l = .ok { index := 4, val := o.l }) ∧
    (∃ s o j, FiresClean s (.mtc .always 0x04#8) o ∧ InstIs s o.slot j ∧ o.l &&& ~~~0xFB#64 = 0#64 ∧ ∃ x ∈ j.ctl, x.index = 4) ∧
    (∃ s o, FiresClean s (.mtc .always 0x80#8) o ∧ systemSlot o.slot = false) ∧
    (0x0B ∉ writableBits.map (·.1)) :=
  ⟨⟨_, _, _, live_clean State.reset 0 bare _ 4#64 0 0 rfl, live_inst _ _ _ _ _ _ _, by decide +kernel, by decide +kernel⟩,
    ⟨_, _, _, live_clean State.reset 0 bare _ 0x81#64 0 0 rfl, live_inst _ _ _ _ _ _ _, by decide +kernel, rfl, rfl⟩,
    ⟨_, _, _, live_clean State.reset 0 { bare with ctl := [{ index := 4, val := 1#64 }] } _ 0x81#64 0 0 rfl, live_inst _ _ _ _ _ _ _,
      by decide +kernel, _, .head _, rfl⟩,
    ⟨_, _, live_clean State.reset 13 bare _ 0 0 0 rfl, rfl⟩, by decide +kernel⟩

/-- A core whose launch gives it one pair of tiles and no accumulator, owned by slot 0. -/
def tiled : State := State.reset.modCore 0 fun c => { c with launch := 0x20000000000, partition := 0x208#64, own := 0#64 }

theorem witness_ControlRegisters_units :
    (∃ s o j, FiresClean s (.mtc .always 0x10#8) o ∧ InstIs s o.slot j ∧ o.l.toNat < 2 ^ 24 ∧ ownsUnit s o.slot .tcfg 0 = true) ∧
    (∃ s o j, FiresClean s (.mtc .always 0x11#8) o ∧ InstIs s o.slot j ∧ o.l.toNat < 2 ^ 24 ∧ ownsUnit s o.slot .tcfg 1 = false) ∧
    (∃ s o j, FiresClean s (.mtc .always 0x50#8) o ∧ InstIs s o.slot j ∧ o.l &&& ~~~0xC000FFFFFFFFFFF8#64 = 0#64 ∧
      o.l.getLsbD 63 = false ∧ o.l.getLsbD 0 = false) :=
  ⟨⟨_, _, _, live_clean tiled 0 bare _ 0xFFFFFF#64 0 0 rfl, live_inst _ _ _ _ _ _ _, by decide +kernel, by decide +kernel⟩,
    ⟨_, _, _, live_clean tiled 0 bare _ 0#64 0 0 rfl, live_inst _ _ _ _ _ _ _, by decide +kernel, by decide +kernel⟩,
    ⟨_, _, _, live_clean tiled 0 bare _ 0x4000FFFFFFFFFFF8#64 0 0 rfl, live_inst _ _ _ _ _ _ _, by decide +kernel, by decide +kernel,
      by decide +kernel⟩⟩

/-- LIMIT ends at 65,535, FALLBACK at 2^48 − 4. -/
theorem witness_ControlRegisters_deadl :
    (∃ s o j, FiresClean s (.deadl .always .none .none false) o ∧ InstIs s o.slot j ∧ (∀ x ∈ j.ctl, x.index ≠ 8) ∧ o.l.toNat < 65536 ∧
      o.r.toNat % 4 = 0 ∧ o.r.toNat < 2 ^ 48) ∧
    (∃ s o j, FiresClean s (.deadl .always .none .none true) o ∧ InstIs s o.slot j ∧ (∀ x ∈ j.ctl, x.index ≠ 8) ∧ o.l.toNat = 65536) ∧
    ∃ s o, FiresClean s (.deadl .always .none .none false) o ∧ o.r.toNat = 2 ^ 48 :=
  ⟨⟨_, _, _, live_clean State.reset 0 bare _ 0xFFFF#64 0xFFFFFFFFFFFC#64 0 rfl, live_inst _ _ _ _ _ _ _, nofun, by decide +kernel,
      by decide +kernel, by decide +kernel⟩,
    ⟨_, _, _, live_clean State.reset 0 bare _ 0x10000#64 0 0 rfl, live_inst _ _ _ _ _ _ _, nofun, by decide +kernel⟩,
    ⟨_, _, live_clean State.reset 0 bare _ 0#64 0x1000000000000#64 0 rfl, by decide +kernel⟩⟩

/-! ### Copies -/

/-- Parameter-block addresses at the ends of their ranges: 2^48, the last odd one, the first above the own pail, the first
of the host's sectors, the last of the own pail, and the last of the CXL sectors. -/
theorem witness_CopiesQueue_copy :
    (∃ s o j, FiresClean s (.cpy .always 0#5 false 0#3) o ∧ InstIs s o.slot j ∧
      copyRule (.cpy .always 0#5 false 0#3) = some (0, false, 0, false, 0#5) ∧ 2 ^ 48 ≤ o.l.toNat) ∧
    (∃ s o j, FiresClean s (.lzsend .always 0#5 false) o ∧ InstIs s o.slot j ∧
      copyRule (.lzsend .always 0#5 false) = some (0, true, 7, false, 0#5) ∧ o.l.toNat < 2 ^ 48 ∧ o.l.toNat % 64 ≠ 0) ∧
    (∃ s o j, FiresClean s (.cpyx .always 0#5 false 5#3) o ∧ InstIs s o.slot j ∧
      copyRule (.cpyx .always 0#5 false 5#3) = some (1, false, 5, false, 0#5) ∧ o.l.toNat = 0x18000 ∧ o.l.toNat % 64 = 0) ∧
    (∃ s o j, FiresClean s (.cpyt .always 0#5 true 0#3) o ∧ InstIs s o.slot j ∧
      copyRule (.cpyt .always 0#5 true 0#3) = some (2, false, 0, true, 0#5) ∧ o.l.toNat = 0xC0000000000) ∧
    (∃ s o j, FiresClean s (.cpys .always 31#5 false 0#3) o ∧ InstIs s o.slot j ∧
      copyRule (.cpys .always 31#5 false 0#3) = some (3, false, 0, false, 31#5) ∧ o.l.toNat % 64 = 0 ∧ o.l.toNat < 0x18000) ∧
    (∃ s o j, FiresClean s (.cpy .always 0#5 false 0#3) o ∧ InstIs s o.slot j ∧ o.l.toNat % 64 = 0 ∧ 2 ^ 40 ≤ o.l.toNat ∧
      o.l.toNat / 2 ^ 40 = 0xB) :=
  ⟨⟨_, _, _, live_clean State.reset 0 bare _ 0x1000000000000#64 0 0 rfl, live_inst _ _ _ _ _ _ _, by decide +kernel, by decide +kernel⟩,
    ⟨_, _, _, live_clean State.reset 0 bare _ 0xFFFFFFFFFFFF#64 0 0 rfl, live_inst _ _ _ _ _ _ _, by decide +kernel, by decide +kernel⟩,
    ⟨_, _, _, live_clean State.reset 0 bare _ 0x18000#64 0 0 rfl, live_inst _ _ _ _ _ _ _, by decide +kernel, by decide +kernel⟩,
    ⟨_, _, _, live_clean State.reset 0 bare _ 0xC0000000000#64 0 0 rfl, live_inst _ _ _ _ _ _ _, by decide +kernel, by decide +kernel⟩,
    ⟨_, _, _, live_clean State.reset 0 bare _ 0x17FC0#64 0 0 rfl, live_inst _ _ _ _ _ _ _, by decide +kernel, by decide +kernel⟩,
    ⟨_, _, _, live_clean State.reset 0 bare _ 0xBFFFFFFFFC0#64 0 0 rfl, live_inst _ _ _ _ _ _ _, by decide +kernel⟩⟩

/-- Core 0 as it is with one full mailbox. -/
def boxed (taken : Bool) : State :=
  State.reset.modCore 0 fun c => { c with mailboxes := [(3, { full := true, taken := taken })] }

/-- Control space from a program slot and from a system slot, and the own core's pail through its remote-pail window. -/
theorem witness_CopiesQueue_regions :
    (∃ s o j, FiresClean s (.cpy .always 0#5 false 0#3) o ∧ InstIs s o.slot j ∧ o.l.toNat % 64 = 0 ∧ o.l.toNat / 2 ^ 40 = 0xF ∧
      systemSlot o.slot = false) ∧
    (∃ s o j, FiresClean s (.cpy .always 0#5 false 0#3) o ∧ InstIs s o.slot j ∧ o.l.toNat % 64 = 0 ∧ o.l.toNat / 2 ^ 40 = 0xF ∧
      systemSlot o.slot = true) ∧
    ∃ s o j, FiresClean s (.cpy .always 0#5 false 0#3) o ∧ InstIs s o.slot j ∧ o.l.toNat % 64 = 0 ∧
      o.l.toNat = 2 ^ 32 + slotCore o.slot % 8192 * 2 ^ 17 + 0x17FC0 ∧ slotCore o.slot = 1 :=
  ⟨⟨_, _, _, live_clean State.reset 0 bare _ 0xF0000000000#64 0 0 rfl, live_inst _ _ _ _ _ _ _, by decide +kernel⟩,
    ⟨_, _, _, live_clean State.reset 14 bare _ 0xFFFFFFFFFC0#64 0 0 rfl, live_inst _ _ _ _ _ _ _, by decide +kernel⟩,
    ⟨_, _, _, live_clean State.reset 16 bare _ 0x100037FC0#64 0 0 rfl, live_inst _ _ _ _ _ _ _, by decide +kernel⟩⟩

theorem witness_CopiesQueue_lines :
    (∃ s o, FiresClean s (.tlrd .always .none .none true 7#3) o) ∧
    (∃ s o j, FiresClean s (.tlwait .always .none .none 7#3) o ∧ InstIs s o.slot j ∧
      o.l.toNat ≤ tabGet (s.core (slotCore o.slot)).timeline (7#3).toNat 0) ∧
    (∃ s o j, FiresClean s (.tlwait .always .none .none 7#3) o ∧ InstIs s o.slot j ∧
      tabGet (s.core (slotCore o.slot)).timeline (7#3).toNat 0 < o.l.toNat) :=
  ⟨⟨_, _, live_clean State.reset 0 bare _ 0 0 0 rfl⟩,
    ⟨_, _, _, live_clean State.reset 0 bare _ 0 0 0 rfl, live_inst _ _ _ _ _ _ _, by decide +kernel⟩,
    ⟨_, _, _, live_clean State.reset 0 bare _ 1 0 0 rfl, live_inst _ _ _ _ _ _ _, by decide +kernel⟩⟩

theorem witness_CopiesQueue_boxes :
    (∃ s o j, FiresClean s (.mbxr .always .none .none) o ∧ InstIs s o.slot j ∧ systemSlot o.slot = false) ∧
    (∃ s o j, FiresClean s (.mbxr .always .none .none) o ∧ InstIs s o.slot j ∧ systemSlot o.slot = true ∧
      ∀ q ∈ (s.core (slotCore o.slot)).mailboxes, q.2.full = false ∨ q.2.taken = true) ∧
    (∃ s o j b, FiresClean s (.mbxr .always .none .none) o ∧ InstIs s o.slot j ∧ systemSlot o.slot = true ∧
      OldestBox (s.core (slotCore o.slot)) 3 b) ∧
    (∃ s o j, FiresClean s (.mbxw .always .none .none) o ∧ InstIs s o.slot j ∧ systemSlot o.slot = false) ∧
    (∃ s o j, FiresClean s (.mbxw .always .none .none) o ∧ InstIs s o.slot j ∧ systemSlot o.slot = true ∧ o.l.toNat = 3 ∧
      EngineOpen s (slotCore o.slot) o.r.toNat ∧ ∃ n, (n, Action.mbxTaken o.l.toNat) ∈ j.actions) ∧
    (∃ s o j, FiresClean s (.mbxw .always .none .none) o ∧ InstIs s o.slot j ∧ systemSlot o.slot = true ∧ o.l.toNat = 3 ∧
      o.r.toNat = 31 ∧ ¬EngineOpen s (slotCore o.slot) o.r.toNat ∧ ∀ n, (n, Action.mbxTaken o.l.toNat) ∉ j.actions) :=
  ⟨⟨_, _, _, live_clean State.reset 13 bare _ 0 0 0 rfl, live_inst _ _ _ _ _ _ _, rfl⟩,
    ⟨_, _, _, live_clean (boxed true) 14 bare _ 0 0 0 rfl, live_inst _ _ _ _ _ _ _, rfl, by decide +kernel⟩,
    ⟨_, _, _, { full := true }, live_clean (boxed false) 14 bare _ 0 0 0 rfl, live_inst _ _ _ _ _ _ _, rfl,
      by simp [Rising, live, boxed, State.core, State.modCore, State.modSlot, tabMod, tabPut, tabGet, tabFind, ops, slotCore, State.reset],
      by decide +kernel, rfl, rfl, by decide +kernel⟩,
    ⟨_, _, _, live_clean State.reset 13 bare _ 0 0 0 rfl, live_inst _ _ _ _ _ _ _, rfl⟩,
    ⟨_, _, _, live_clean State.reset 14 { bare with actions := [(1, .mbxTaken 3)] } _ 3 0 0 rfl, live_inst _ _ _ _ _ _ _, rfl,
      by decide +kernel, ⟨by decide +kernel, .inl (by decide +kernel)⟩, 1, .head _⟩,
    ⟨_, _, _, live_clean State.reset 14 bare _ 3 31 0 rfl, live_inst _ _ _ _ _ _ _, rfl, by decide +kernel, by decide +kernel,
      fun h => h.2.elim (by decide +kernel) (by decide +kernel), fun _ h => nomatch h⟩⟩

/-- A request of a copy of one row of `n` bytes from 0x100 to 0x200 of the own pail, and the copy. -/
def aReq : CopyReq := { inst := 1, lsid := 0, form := 0, land := false, ctx := 0, reuse := false, pba := 0x1000 }

def aBlock (n : Nat) : List Word := [0x100#64, 0x200#64, BitVec.ofNat 64 (0x100010000 + n), 0#64, 0#64, 0#64, 0#64, 0#64]

def aCopy (n : Nat) : Copy := { slot := 0, req := aReq, number := 1, block := aBlock n }

theorem witness_CopiesMove_handoff :
    (let s := State.reset.modSlot 0 fun x => { x with copies := [aReq] };
      (s.slot 0).copies = [aReq] ∧ (tabGet (s.core 0).mailboxes (s.core 0).nextMbx {}).full = false ∧ handoffWaits (s.slot 0) aReq = false) ∧
    (let s := (State.reset.modSlot 0 fun x => { x with copies := [aReq] }).modCore 0 fun c => { c with mailboxes := [(0, { full := true })] };
      (s.slot 0).copies = [aReq] ∧ (tabGet (s.core 0).mailboxes (s.core 0).nextMbx {}).full = true) := by
  decide +kernel

/-- The state in which the vendor's routine takes that request, with the block in memory; a well-formed block, one without
extent, and one with a reserved SHAPE bit. -/
def submitting (ws : List Word) : State :=
  { State.reset.modCore 0 (fun c => { c with mailboxes := [(0, { full := true, req := some aReq, number := 1, order := 5 })] }) with
    copies := [(5, { slot := 0, req := aReq, number := 1 })]
    mem := memPutAll [] 0x100001000 (ws.flatMap fun w => (List.range 8).map fun i => w.extractLsb' (8 * i) 8) }

theorem submitting_box (ws : List Word) : OldestBox ((submitting ws).core 0) 0 { full := true, req := some aReq, number := 1, order := 5 } := by
  have h : ((submitting ws).core 0).mailboxes = [(0, { full := true, req := some aReq, number := 1, order := 5 })] := rfl
  unfold OldestBox
  rw [h]
  exact ⟨by simp [Rising], .head _, rfl, rfl, by simp⟩

theorem witness_CopiesMove_submit :
    ∀ ws ∈ [aBlock 8, aBlock 0, (aBlock 8).set 2 0x8000000100010008#64],
      tabFind (submitting ws).copies 5 = some { slot := 0, req := aReq, number := 1 } ∧
      (readBlock (submitting ws) 5 { slot := 0, req := aReq, number := 1 } 8).toOption = some ws ∧ ws.getD 5 0#64 = 0#64 ∧
      (submitting ws).waits = [] ∧ (submitting ws).words = [] ∧
      ((submitting ws).core 0).scoreboard.length + (copyRanges 5 { slot := 0, req := aReq, number := 1, block := ws }).length ≤ 16 ∧
      ((submitting ws).engine 0 0).queue.length < 16 := by
  decide +kernel

theorem witness_CopiesMove_submit_kinds :
    ((aCopy 8).malformed = false ∧ (aCopy 8).zeroExtent = false) ∧ ((aCopy 0).malformed = false ∧ (aCopy 0).zeroExtent = true) ∧
      { aCopy 8 with block := (aBlock 8).set 2 0x8000000100010008#64 }.malformed = true := by
  decide +kernel

theorem witness_CopiesMove_resubmit :
    let s := { State.reset with copies := [(5, aCopy 8)] }
    tabFind s.copies 5 = some (aCopy 8) ∧ (aCopy 8).accepted = false ∧ (aCopy 8).code = none ∧ (aCopy 8).block ≠ [] ∧
      (aCopy 8).notBefore ≤ s.now ∧ (s.engine (slotCore (aCopy 8).slot / 2048) (aCopy 8).engine).queue.length < 16 := by
  decide +kernel

/-- That copy under way: before its row, and after it. -/
def moving (row : Nat) : State := { State.reset with copies := [(5, { aCopy 8 with accepted := true, row := row })], nextId := 6 }

theorem witness_CopiesMove_row :
    let c := { aCopy 8 with accepted := true }
    MemInv (moving 0) ∧ tabFind (moving 0).copies 5 = some c ∧ copyMayMove (moving 0) 5 c = true ∧ c.row < c.rows ∧
      c.place (moving 0) 5 = .at 0x100 0x200 ∧ c.req.land = false ∧ c.tagged = false ∧
      (checkUnits (moving 0) c .copyRead (unitAddrs 0x100 c.rowBytes)).toOption = some (unitsAt 0x100 0x100000100 c.rowBytes) ∧
      (rowTarget (moving 0) c 0x200).toOption = some (unitsAt 0x200 0x100000200 c.rowBytes) ∧ Idle (moving 0) := by
  refine ⟨by decide +kernel, by decide +kernel, by decide +kernel, by decide +kernel, by decide +kernel, rfl, rfl, by decide +kernel, by decide +kernel, idle_reset ⟨rfl, rfl⟩⟩

theorem witness_CopiesMove_end :
    let c := { aCopy 8 with accepted := true, row := 1 }
    tabFind (moving 1).copies 5 = some c ∧ copyMayMove (moving 1) 5 c = true ∧ c.rows ≤ c.row := by
  decide +kernel

/-- That copy at its end, without status word or with it at 0x300 of the own pail; an error. -/
def retiring (code stat : Nat) : Copy :=
  { aCopy 8 with accepted := true, row := 1, code := some code, block := (aBlock 8).set 7 (BitVec.ofNat 64 stat) }

theorem witness_CopiesMove_retire :
    ∀ p ∈ [(0, 0), (1, 0x300)],
      let c := retiring p.1 p.2
      let s := { State.reset with copies := [(5, c)], nextId := 6 }
      MemInv s ∧ tabFind s.copies 5 = some c ∧ c.code = some p.1 ∧ c.bar = 0 ∧ c.trap = none ∧ s.waits = [] ∧ s.words = [] ∧
        c.after ≤ tabGet (s.core (slotCore c.slot)).timeline c.req.ctx 0 ∧ c.req.land = false ∧ s.clusters = [] ∧ c.block ≠ [] ∧
        c.w 7 = p.2 ∧ c.number = tabGet (s.core (slotCore c.slot)).timeline c.req.ctx 0 + 1 ∧
        (p.2 ≠ 0 → c.check s (c.want (c.w 7) 8 .copyWrite) = .at 0x100000300) := by
  decide +kernel

theorem witness_CopiesMove_rising : Rising { State.reset with copies := [(5, retiring 0 0)], nextId := 6 }.copies := by simp [Rising]

/-! ### Landing zones -/

/-- Core 0 with zone 1 of that descriptor: bit 0 EN, bit 39 BAREN. -/
def zoneCore0 (d : Nat) : State := State.reset.modCore 0 fun c => { c with zdesc := [(1, BitVec.ofNat 64 d)] }

theorem witness_ZonesGrant_lzrsv :
    (∃ s o j, FiresClean s (.lzrsv .always .none 0#5) o ∧ InstIs s o.slot j ∧ o.r.toNat = 0x10000) ∧
    (∃ s o j, FiresClean s (.lzrsv .always .none 0#5) o ∧ InstIs s o.slot j ∧ o.r.toNat = 0xFFFF ∧ o.l.toNat = 2 ^ 28) ∧
    (∃ s o j, FiresClean s (.lzrsv .always .none 0#5) o ∧ InstIs s o.slot j ∧ o.r.toNat = 0xFFFF ∧ o.l.toNat + 1 = 2 ^ 28 ∧
      FreshId s o.slot) :=
  ⟨⟨_, _, _, live_clean State.reset 0 bare _ 0 0x10000#64 0 rfl, live_inst _ _ _ _ _ _ _, by decide +kernel⟩,
    ⟨_, _, _, live_clean State.reset 0 bare _ 0x10000000#64 0xFFFF#64 0 rfl, live_inst _ _ _ _ _ _ _, by decide +kernel, by decide +kernel⟩,
    ⟨_, _, _, live_clean State.reset 0 bare _ 0xFFFFFFF#64 0xFFFF#64 0 rfl, live_inst _ _ _ _ _ _ _, by decide +kernel, by decide +kernel,
      fresh_of_all rfl⟩⟩

theorem witness_ZonesGrant_lzarm :
    (∃ s o j, FiresClean s (.lzarm .always 0#5 1#2) o ∧ InstIs s o.slot j ∧
      (tabGet (s.core (slotCore o.slot)).zdesc (1#2).toNat 0#64).toNat.testBit 39 = false) ∧
    (∃ s o j, FiresClean s (.lzarm .always 0#5 1#2) o ∧ InstIs s o.slot j ∧ 0xFFFFFF < o.l.toNat) ∧
    (∃ s o j, FiresClean s (.lzarm .always 0#5 1#2) o ∧ InstIs s o.slot j ∧
      (tabGet (s.core (slotCore o.slot)).zdesc (1#2).toNat 0#64).toNat.testBit 39 = true ∧
      (tabGet (s.core (slotCore o.slot)).zdesc (1#2).toNat 0#64).toNat.testBit 0 = true ∧ o.l.toNat = 0xFFFFFF ∧ FreshId s o.slot) :=
  ⟨⟨_, _, _, live_clean (zoneCore0 1) 0 bare _ 0 0 0 rfl, live_inst _ _ _ _ _ _ _, by decide +kernel⟩,
    ⟨_, _, _, live_clean (zoneCore0 0x8000000001) 0 bare _ 0x1000000#64 0 0 rfl, live_inst _ _ _ _ _ _ _, by decide +kernel⟩,
    ⟨_, _, _, live_clean (zoneCore0 0x8000000001) 0 bare _ 0xFFFFFF#64 0 0 rfl, live_inst _ _ _ _ _ _ _, by decide +kernel, by decide +kernel,
      by decide +kernel, fresh_of_all rfl⟩⟩

/-- A zone of two slots: slot 1 may be freed, slot 2 does not exist. -/
theorem witness_ZonesGrant_lzfree :
    (∃ s o j, FiresClean s (.lzfree .always 0#5 1#2 2#4) o ∧ InstIs s o.slot j ∧
      (tabGet (s.core (slotCore o.slot)).zdesc (1#2).toNat 0#64).toNat / 2 ^ 12 % 16 + 1 ≤ (2#4).toNat) ∧
    (∃ s o j, FiresClean s (.lzfree .always 0#5 1#2 1#4) o ∧ InstIs s o.slot j ∧
      (tabGet (s.core (slotCore o.slot)).zdesc (1#2).toNat 0#64).toNat.testBit 0 = true ∧
      (1#4).toNat ≤ (tabGet (s.core (slotCore o.slot)).zdesc (1#2).toNat 0#64).toNat / 2 ^ 12 % 16 ∧ FreshId s o.slot) :=
  ⟨⟨_, _, _, live_clean (zoneCore0 0x1001) 0 bare _ 0 0 0 rfl, live_inst _ _ _ _ _ _ _, by decide +kernel⟩,
    ⟨_, _, _, live_clean (zoneCore0 0x1001) 0 bare _ 0 0 0 rfl, live_inst _ _ _ _ _ _ _, by decide +kernel, by decide +kernel,
      fresh_of_all rfl⟩⟩

/-- A running module whose core 0 is in a launch and has zone 1, of two slots of 1,024 bytes, with `x` as slot 0. -/
def zoned (en seq : Nat) (x : ZoneSlot) (m : Msg) : State :=
  { State.reset.modCore 0 (fun c => { c with
      launch := 0x20000000000, partition := 0x208#64, zdesc := [(1, BitVec.ofNat 64 (en + 0x1080))], zseq := [(1, seq)], zslots := [(16, x)] }) with
    modules := [(0, { populated := true, boot := .running })], net := [(1, m)], nextId := 2, now := 100 }

/-- Zone 1 of core 0 of module 0; slot 0 of it with sequence number 7. -/
def theZone : Nat := 0x4000000
def theGrant : Nat := 0x10000000000007
def aSlot (st : ZoneSt) : ZoneSlot := { st := st, sender := 0, seq := 7, bytes := 8, send := 5, base := 0x100002000, stamp := 0x1000023F8 }

/-- A disabled zone; a stopped counter; a payload of 1,017 bytes; of 1,016, with slot 0 free or not. -/
theorem witness_ZonesGrant_reservation :
    let z := zoned 1 7 (aSlot .free) (.reserveZone 0 0 theZone 1016)
    let room := ((tabGet (z.core 0).zdesc 1 0#64).toNat / 2 ^ 6 % 64 * 1024 / ((tabGet (z.core 0).zdesc 1 0#64).toNat / 2 ^ 12 % 16 + 1) / 16 * 16 - 8)
    tabFind z.net 1 = some (.reserveZone 0 0 theZone 1016) ∧ arrives z 1 (zoneModule theZone) = true ∧
      sameLaunch z (z.core (slotCore 0)).launch (z.core (zoneCore theZone)).launch = true ∧
      (tabGet ((zoned 0 7 (aSlot .free) (.reserveZone 0 0 theZone 1016)).core 0).zdesc 1 0#64).toNat % 2 = 0 ∧
      (tabGet (z.core 0).zdesc 1 0#64).toNat % 2 = 1 ∧ tabGet (z.core 0).zseq 1 1 < 2 ^ 48 ∧
      2 ^ 48 ≤ tabGet ((zoned 1 (2 ^ 48) (aSlot .free) (.reserveZone 0 0 theZone 1016)).core 0).zseq 1 1 ∧
      room = 1016 ∧ (z.zoneSlot 0 1 0).st = .free ∧
      ((zoned 1 7 (aSlot .landed) (.reserveZone 0 0 theZone 1016)).zoneSlot 0 1 0).st ≠ .free ∧
      ((zoned 1 7 (aSlot .landed) (.reserveZone 0 0 theZone 1016)).zoneSlot 0 1 1).st = .free := by
  decide +kernel

theorem witness_ZonesGrant_free :
    (let s := zoned 1 7 (aSlot .landed) (.lzfree 0 0 1 0);
      MemInv s ∧ tabFind s.net 1 = some (.lzfree 0 0 1 0) ∧ s.waits = [] ∧ s.words = [] ∧
        (s.zoneSlot (slotCore 0) 1 0).st = .landed) ∧
    (let s := zoned 1 7 (aSlot .filling) (.lzfree 0 0 1 0);
      MemInv s ∧ s.waits = [] ∧ s.words = [] ∧ (s.zoneSlot (slotCore 0) 1 0).st = .filling) := by
  decide +kernel

/-- A packet of 8 bytes that fits its reservation, and one with another total. -/
theorem witness_ZonesFill_packet :
    let bs : List (Byte × Bool) := (List.range 8).map fun i => (BitVec.ofNat 8 i, false)
    let s := zoned 1 8 (aSlot .reserved) (.landing 5 0 theZone theGrant 8 0 bs)
    MemInv s ∧ tabFind s.net 1 = some (.landing 5 0 theZone theGrant 8 0 bs) ∧
      arrives s 1 (zoneModule theZone) = true ∧ s.waits = [] ∧ s.words = [] ∧ s.copies = [] ∧
      (let x := s.zoneSlot (zoneCore theZone) (zoneNum theZone) (theGrant / 2 ^ 48 % 16);
        x.fits 0 theZone theGrant 8 = true ∧ x.st = .reserved ∧ x.bar = 0 ∧ x.fits 0 theZone theGrant 9 = false) := by
  decide +kernel

theorem witness_ZonesFill_landed :
    let s := zoned 1 8 { aSlot .filling with landed := 8 } (.landAck 5 true)
    MemInv s ∧ s.waits = [] ∧ s.words = [] ∧ (s.zoneSlot 0 1 0).st = .filling ∧ (s.zoneSlot 0 1 0).landed = (s.zoneSlot 0 1 0).bytes := by
  decide +kernel

/-- The timer has just expired; the zone has been disabled. -/
theorem witness_ZonesFill_timeout :
    (let s := zoned 1 8 { aSlot .filling with timer := some 100 } (.landAck 5 true);
      MemInv s ∧ s.waits = [] ∧ s.words = [] ∧ (s.zoneSlot 0 1 0).st = .filling ∧ (s.zoneSlot 0 1 0).bar = 0 ∧
        (s.zoneSlot 0 1 0).timer = some 100 ∧ 100 ≤ s.now ∧ (s.zoneSlot 0 1 0).send ≠ 0) ∧
    (let s := zoned 0 8 (aSlot .reserved) (.landAck 5 true);
      MemInv s ∧ s.waits = [] ∧ s.words = [] ∧ (s.zoneSlot 0 1 0).st = .reserved ∧ (s.zoneSlot 0 1 0).bar = 0 ∧
        (tabGet (s.core 0).zdesc 1 0#64).toNat % 2 = 0) := by
  decide +kernel

theorem witness_ZonesFill_abort :
    let s := zoned 1 8 (aSlot .filling) (.abort 5 0 theZone theGrant)
    let x := s.zoneSlot (zoneCore theZone) (zoneNum theZone) (theGrant / 2 ^ 48 % 16)
    MemInv s ∧ tabFind s.net 1 = some (.abort 5 0 theZone theGrant) ∧ arrives s 1 (zoneModule theZone) = true ∧
      s.waits = [] ∧ s.words = [] ∧ x.fits 0 theZone theGrant x.bytes = true ∧ x.st = .filling ∧ x.bar = 0 := by
  decide +kernel

/-- A landing send of slot 0 that has sent its last packet, with the answer `ok` or 3,000 ms later. -/
def sending (ok : Bool) : State :=
  { State.reset with
    copies := [(5, { slot := 0, req := { aReq with land := true, ctx := 7 }, number := 1, block := aBlock 8, accepted := true, sent := 8, sentAt := some 0 })]
    slots := [(0, { unretired := [5] })], net := [(1, .landAck 5 ok)], nextId := 6, now := 12000000000 }

theorem witness_ZonesFill_retire :
    ∀ ok, Rising (sending ok).copies ∧ Rising (sending ok).slots ∧ ∃ c, tabFind (sending ok).copies 5 = some c ∧
      c.req.land = true ∧ c.code = none ∧ c.accepted = true ∧ c.bar = 0 ∧ c.w 7 = 0 ∧ (0, { unretired := [5] }) ∈ (sending ok).slots ∧
      (sending ok).waits = [] ∧ (sending ok).words = [] ∧ (sending ok).clusters = [] ∧
      c.after ≤ tabGet ((sending ok).core (slotCore c.slot)).timeline c.req.ctx 0 ∧
      (∀ q ∈ (sending ok).slots, 5 ∈ q.2.unretired → q = (0, { unretired := [5] })) ∧ tabFind (sending ok).net 1 = some (.landAck 5 ok) ∧
      c.number = tabGet ((sending ok).core (slotCore c.slot)).timeline c.req.ctx 0 + 1 ∧
      c.sentAt = some 0 ∧ 0 + max 1 (((sending ok).core (slotCore c.slot)).fabTmo.toNat % 65536) * 4000000 ≤ (sending ok).now := by
  intro ok
  refine ⟨by simp [Rising, sending], by simp [Rising, sending], _, rfl, ?_⟩
  cases ok <;> decide +kernel

/-! ### Work queues -/

/-- Memory with words from an address on. -/
def memAt (a : Nat) (ws : List Word) : List Host.Cell :=
  memPutAll [] a (ws.flatMap fun w => (List.range 8).map fun i => w.extractLsb' (8 * i) 8)

/-- Core 0 with a queue at 0x1000 and its ring of 4 items at 0x1020: HEAD 0, that TAIL, that POOL word; slot 0 owns it. -/
def queued (tail pool : Nat) : State :=
  { State.reset with mem := memAt 0x100001000 [0x2000000001001020#64, BitVec.ofNat 64 tail, BitVec.ofNat 64 pool, 16#64, 7#64] }

theorem quiet_of {s : State} {k : Nat} (h : ((s.slot k).accs.isEmpty && (s.slot k).fences.isEmpty && (s.core (slotCore k)).scoreboard.isEmpty &&
    s.waits.isEmpty && s.words.isEmpty) = true) : Quiet s k := by
  simp only [Bool.and_eq_true, List.isEmpty_iff] at h
  exact ⟨h.1.1.1.1, h.1.1.1.2, h.1.1.2, idle_reset ⟨h.1.2, h.2⟩⟩

/-- An item, a poisoned item, a spent queue, and one that is being refilled. -/
theorem witness_WorkQueues_pop :
    let desc := 0x1000#64
    (∃ s o j, FiresClean s (.qpop .always .none .none) o ∧ InstIs s o.slot j ∧ Quiet s o.slot ∧ qcheck s o.slot o.node o.l = none ∧
      o.l = desc ∧ (readQueue s (slotCore o.slot) o.l.toNat).count = 1 ∧ j.actions = [] ∧ s.wordPoisoned 0x100001020 = false) ∧
    (∃ s o j, FiresClean s (.qpop .always .none .none) o ∧ InstIs s o.slot j ∧ Quiet s o.slot ∧ qcheck s o.slot o.node o.l = none ∧
      o.l = desc ∧ (readQueue s (slotCore o.slot) o.l.toNat).count = 1 ∧ j.actions = [] ∧ s.wordPoisoned 0x100001020 = true) ∧
    (∃ s o j, FiresClean s (.qpop .always .none .none) o ∧ InstIs s o.slot j ∧ Quiet s o.slot ∧ qcheck s o.slot o.node o.l = none ∧
      (readQueue s (slotCore o.slot) o.l.toNat).count = 0 ∧ (readQueue s (slotCore o.slot) o.l.toNat).refilling = false ∧
      (readQueue s (slotCore o.slot) o.l.toNat).refillDue = false) ∧
    (∃ s o j, FiresClean s (.qpop .always .none .none) o ∧ InstIs s o.slot j ∧ Quiet s o.slot ∧ qcheck s o.slot o.node o.l = none ∧
      (readQueue s (slotCore o.slot) o.l.toNat).count = 0 ∧ (readQueue s (slotCore o.slot) o.l.toNat).refilling = true) :=
  ⟨⟨_, _, _, live_clean (queued 1 0) 0 bare _ 0x1000#64 0 0 rfl, live_inst _ _ _ _ _ _ _, quiet_of (by decide +kernel), by decide +kernel, by decide +kernel,
      by decide +kernel, by decide +kernel, by decide +kernel⟩,
    ⟨_, _, _, live_clean { queued 1 0 with poison := [0x40000408] } 0 bare _ 0x1000#64 0 0 rfl, live_inst _ _ _ _ _ _ _, quiet_of (by decide +kernel),
      by decide +kernel, by decide +kernel, by decide +kernel, by decide +kernel, by decide +kernel⟩,
    ⟨_, _, _, live_clean (queued 0 0) 0 bare _ 0x1000#64 0 0 rfl, live_inst _ _ _ _ _ _ _, quiet_of (by decide +kernel), by decide +kernel, by decide +kernel,
      by decide +kernel, by decide +kernel⟩,
    ⟨_, _, _, live_clean (queued 0 (2 ^ 63)) 0 bare _ 0x1000#64 0 0 rfl, live_inst _ _ _ _ _ _ _, quiet_of (by decide +kernel), by decide +kernel,
      by decide +kernel, by decide +kernel⟩⟩

/-- Room for one item, and a full ring. -/
theorem witness_WorkQueues_push :
    (∃ s o j, FiresClean s (.qpush .always .none .none) o ∧ InstIs s o.slot j ∧ Quiet s o.slot ∧ qcheck s o.slot o.node o.l = none ∧
      (readQueue s (slotCore o.slot) o.l.toNat).count = 3 ∧ (readQueue s (slotCore o.slot) o.l.toNat).cap = 4 ∧
      (readQueue s (slotCore o.slot) o.l.toNat).refilling = false ∧ j.actions = []) ∧
    (∃ s o j, FiresClean s (.qpush .always .none .none) o ∧ InstIs s o.slot j ∧ Quiet s o.slot ∧ qcheck s o.slot o.node o.l = none ∧
      (readQueue s (slotCore o.slot) o.l.toNat).count = 4 ∧ (readQueue s (slotCore o.slot) o.l.toNat).cap = 4) :=
  ⟨⟨_, _, _, live_clean (queued 3 0) 0 bare _ 0x1000#64 9 0 rfl, live_inst _ _ _ _ _ _ _, quiet_of (by decide +kernel), by decide +kernel, by decide +kernel,
      by decide +kernel, by decide +kernel, by decide +kernel⟩,
    ⟨_, _, _, live_clean (queued 4 0) 0 bare _ 0x1000#64 9 0 rfl, live_inst _ _ _ _ _ _ _, quiet_of (by decide +kernel), by decide +kernel, by decide +kernel,
      by decide +kernel⟩⟩

/-- The end of the pail, a misaligned descriptor, a poisoned one, and an empty one. -/
theorem witness_WorkQueues_checks :
    (∃ s o, FiresClean s (.qpop .always .none .none) o ∧ (s.slot o.slot).inst.isSome = true ∧
      zoneBase (s.partition (slotCore o.slot)) < o.l.toNat + 32 ∧ o.l.toNat % 32 = 0) ∧
    (∃ s o, FiresClean s (.qpop .always .none .none) o ∧ (s.slot o.slot).inst.isSome = true ∧
      o.l.toNat + 32 ≤ zoneBase (s.partition (slotCore o.slot)) ∧ o.l.toNat % 32 ≠ 0) ∧
    (∃ s o, FiresClean s (.qpush .always .none .none) o ∧ (s.slot o.slot).inst.isSome = true ∧
      o.l.toNat + 32 ≤ zoneBase (s.partition (slotCore o.slot)) ∧ o.l.toNat % 32 = 0 ∧
      ∃ n < 4, s.wordPoisoned (poolBase (slotCore o.slot) + o.l.toNat + 8 * n) = true) ∧
    (∃ s o, FiresClean s (.qpush .always .none .none) o ∧ (s.slot o.slot).inst.isSome = true ∧
      o.l.toNat + 32 ≤ zoneBase (s.partition (slotCore o.slot)) ∧ o.l.toNat % 32 = 0 ∧
      (∀ n < 4, s.wordPoisoned (poolBase (slotCore o.slot) + o.l.toNat + 8 * n) = false) ∧
      (readQueue s (slotCore o.slot) o.l.toNat).bad (slotNum o.slot) (zoneBase (s.partition (slotCore o.slot))) = true) :=
  ⟨⟨_, _, live_clean State.reset 0 bare _ 0x18000#64 0 0 rfl, rfl, by decide +kernel, by decide +kernel⟩,
    ⟨_, _, live_clean State.reset 0 bare _ 0x1008#64 0 0 rfl, rfl, by decide +kernel, by decide +kernel⟩,
    ⟨_, _, live_clean { queued 1 0 with poison := [0x40000406] } 0 bare _ 0x1000#64 0 0 rfl, rfl, by decide +kernel, by decide +kernel,
      3, by decide, by decide +kernel⟩,
    ⟨_, _, live_clean (queued 1 0) 0 bare _ 0x1020#64 0 0 rfl, rfl, by decide +kernel, by decide +kernel, by decide +kernel,
      by decide +kernel⟩⟩

theorem witness_WorkQueues_commit : MemInv (queued 1 0) ∧ (readQueue (queued 1 0) (slotCore 0) 0x1000).off = 0x1000 + 32 := by decide +kernel

/-- Two pops of one instance become permanent together; while their descriptor is held, neither does. -/
theorem witness_WorkQueues_together :
    let s := (queued 2 0).modSlot 0 fun x => { x with post := [(1, .popped 0x1000 0 1), (1, .popped 0x1000 1 1)] }
    (queueActs (s.slot 0) 1).length = 2 ∧ queueBusy s 0 (queueActs (s.slot 0) 1) = none ∧
      queueBusy { s with words := [(0x20000201, { held := some (16, 1, 0) })] } 0 (queueActs (s.slot 0) 1) ≠ none := by
  decide +kernel

/-- An address space at 0x0200_0000_0000 whose first 2 MiB of global memory are mapped to themselves. -/
def tables : List Host.Cell :=
  memAt 0x20000000010 [0x20000001001#64] ++ memAt 0x20000001000 [0x20000002001#64] ++ memAt 0x20000002000 [0x1000000001F#64]

def translated (s : State) (c : Core) (cells : List Host.Cell) : State :=
  { s with mem := s.mem ++ cells ++ tables, cores := [(0, { c with xlatBase := 0x20000000001#64 })] }

/-- A pool at the start of global memory. -/
theorem witness_WorkQueues_refill :
    let s := translated (queued 0 0x10000000000) {} []
    let q := readQueue s 0 0x1000
    MemInv s ∧ q.bad (slotNum 0) (zoneBase (s.partition 0)) = false ∧ 0x1000 + 32 ≤ zoneBase (s.partition 0) ∧ q.refillDue = true ∧
      s.waits = [] ∧ s.words = [] ∧ refillAddr s (refillWant 0 0 q.pool 8 .add) = .at 0x10000000000 := by
  decide +kernel

/-- The refill of one item of a pool of one, after the answer to its AMADD. -/
def refilling : State :=
  translated (queued 0 (2 ^ 63 + 0x10000000000))
    { refills := [{ slot := 0, desc := 0x1000, pool := 0x10000000000, batch := 1, old := some 0 }] } (memAt 0x10000000008 [1#64, 7#64])

theorem witness_WorkQueues_refilled :
    let r : Refill := { slot := 0, desc := 0x1000, pool := 0x10000000000, batch := 1, old := some 0 }
    MemInv refilling ∧ refillOf refilling 0 0x1000 = some r ∧ r.old = some 0 ∧
      agentRead refilling (.refill 0 0x1000) (refillWant 0 r.slot (r.pool + 8) 8 .load) = .data 1 ∧
      r.failed = none ∧ (loadItems refilling 0 r 0 (min r.batch (1 - 0))).toOption = some [7#64] ∧
      refilling.waits = [] ∧ refilling.words = [] ∧ (readQueue refilling 0 0x1000).off = 0x1000 + 32 ∧ [7#64].length ≤ (readQueue refilling 0 0x1000).cap := by
  decide +kernel

/-! ### Tasks, the graph, deferred actions -/

/-- A graph of two elements that neighbour each other: row pointers 0, 1, 2 and columns 1, 0 in global memory, colours after
them; stall words at 0x4000 and a run list of one entry at 0x5000 of core 0. -/
def aDesc : List Word :=
  [0x200000002#64, 0x10000000000#64, 0x10000000010#64, 0x10000000020#64, BitVec.ofNat 64 (0x4000 + 0x5000 * 2 ^ 17 + 2 ^ 34), 0#64]

def theGraph : List Host.Cell := memAt 0x10000000000 [0x100000000#64, 2#64, 1#64]

/-- Slot 0 in a launch with that graph, its run list with that first word. -/
def graphed (w0 : Word) : State :=
  { translated { State.reset with mem := memAt 0x100005000 [w0] } { launch := 0x30000000000, desc := aDesc, partition := 0x208#64 } theGraph with
    launches := [(0x30000000000, { desc := aDesc, homes := [0], record := [0#64, 0x1000#64] })]
    slots := [(0, { launch := 0x30000000000 })] }

/-- No launch; element 2 of two; a free entry; a full list; and the list of the cluster. -/
theorem witness_TasksAndGraph_post :
    (∃ s o j, FiresClean s (.post .always .none .none 3#2) o ∧ InstIs s o.slot j ∧ (s.slot o.slot).launch = 0) ∧
    (∃ s o j, FiresClean s (.postc .always .none .none 255#8) o ∧ InstIs s o.slot j ∧ o.l.toNat % 2 ^ 32 ≠ 2 ^ 32 - 1 ∧
      ((s.launch (s.slot o.slot).launch).desc.getD 0 0#64).toNat % 2 ^ 32 ≤ o.l.toNat % 2 ^ 32 ∧ o.l.toNat = 2) ∧
    (∃ s o j, FiresClean s (.postc .always .none .none 255#8) o ∧ InstIs s o.slot j ∧
      postList s o.slot (o.l.toNat % 2 ^ 32) = some 0x100005000 ∧ listCap s 0x100005000 = 1 ∧ entryIsFree s 0x100005000 0 = true ∧
      MemInv s ∧ s.waits = [] ∧ s.words = []) ∧
    (∃ s o j, FiresClean s (.post .always .none .none 0#2) o ∧ InstIs s o.slot j ∧
      postList s o.slot (o.l.toNat % 2 ^ 32) = some 0x100005000 ∧ (∀ n < listCap s 0x100005000, entryIsFree s 0x100005000 n = false) ∧
      backingOff s (.node o.slot o.node) = false ∧ backingOff { s with waits := [(.node 0 0, 1, 64)] } (.node o.slot o.node) = true) ∧
    (∃ s o j, FiresClean s (.post .always .none .none 0#2) o ∧ InstIs s o.slot j ∧
      postList s o.slot (o.l.toNat % 2 ^ 32) = some (2 ^ 80) ∧ entryIsFree s (2 ^ 80) 0 = true) :=
  ⟨⟨_, _, _, live_clean State.reset 0 bare _ 0 0 0 rfl, live_inst _ _ _ _ _ _ _, rfl⟩,
    ⟨_, _, _, live_clean (graphed 0) 0 bare _ 2 0 0 rfl, live_inst _ _ _ _ _ _ _, by decide +kernel⟩,
    ⟨_, _, _, live_clean (graphed 0) 0 bare _ 1 0 0 rfl, live_inst _ _ _ _ _ _ _, by decide +kernel⟩,
    ⟨_, _, _, live_clean (graphed 0x4000000000000000) 0 bare _ 1 0 0 rfl, live_inst _ _ _ _ _ _ _, by decide +kernel⟩,
    ⟨_, _, _, live_clean (graphed 0) 0 bare _ 0xFFFFFFFF#64 0 0 rfl, live_inst _ _ _ _ _ _ _, by decide +kernel⟩⟩

theorem witness_TasksAndGraph_join :
    (∃ s o j, FiresClean s (.join .always .none .none) o ∧ InstIs s o.slot j ∧ (s.slot o.slot).join = 0) ∧
    (∃ s o j, FiresClean s (.join .always .none .none) o ∧ InstIs s o.slot j ∧ (s.slot o.slot).join ≠ 0) :=
  ⟨⟨_, _, _, live_clean State.reset 0 bare _ 0 0 0 rfl, live_inst _ _ _ _ _ _ _, rfl⟩,
    ⟨_, _, _, live_clean (State.reset.modSlot 0 fun x => { x with join := 1 }) 0 bare _ 0 0 0 rfl, live_inst _ _ _ _ _ _ _, by decide +kernel⟩⟩

/-- Element 2 is outside the graph; element 1 is in it, with one neighbour, element 0. -/
theorem witness_TasksAndGraph_elem :
    (∃ s o, FiresClean s (.nbr .always .none .none) o ∧ graphOf s o.slot o.l.toNat = none) ∧
    (∃ s o la, FiresClean s (.elem .always .none .none .colour) o ∧ graphOf s o.slot o.l.toNat = some la ∧
      la.homes[o.l.toNat / epc la.desc]? = some 0 ∧ colours la.desc ≠ 0 ∧ graphRead s o.slot o.node (colours la.desc + o.l.toNat) 1 = .data 0) ∧
    (∃ s o la, FiresClean s (.nbrn .always .none .none) o ∧ graphOf s o.slot o.l.toNat = some la ∧
      graphRead s o.slot o.node (rowPtr la.desc + 4 * o.l.toNat) 4 = .data 1 ∧ graphRead s o.slot o.node (rowPtr la.desc + 4 * o.l.toNat + 4) 4 = .data 2) :=
  ⟨⟨_, _, live_clean (graphed 0) 0 bare _ 2 0 0 rfl, by decide +kernel⟩,
    ⟨_, _, _, live_clean (graphed 0) 0 bare _ 1 0 0 rfl, rfl, by decide +kernel, by decide +kernel, by decide +kernel⟩,
    ⟨_, _, _, live_clean (graphed 0) 0 bare _ 1 0 0 rfl, rfl, by decide +kernel, by decide +kernel⟩⟩

/-- The stall word of element 1, whose home is that core, or core 8192, of module 1. -/
theorem witness_TasksAndGraph_stall :
    (∃ s o la, FiresClean s (.elem .always .none .none .stall) o ∧ graphOf s o.slot o.l.toNat = some la ∧
      la.homes[o.l.toNat / epc la.desc]? = some 0 ∧ Quiet s o.slot ∧
      let pa := poolBase 0 + swOff la.desc + 8 * (o.l.toNat % epc la.desc)
      pa / 2 ^ 48 = slotModule o.slot ∧ pa % 8 = 0 ∧ s.wordPoisoned pa = false) ∧
    ∃ s o la, FiresClean s (.elem .always .none .none .stall) o ∧ graphOf s o.slot o.l.toNat = some la ∧
      la.homes[o.l.toNat / epc la.desc]? = some 8192 ∧ Idle s ∧ FreshId s o.slot ∧
      (poolBase 8192 + swOff la.desc + 8 * (o.l.toNat % epc la.desc)) / 2 ^ 48 ≠ slotModule o.slot :=
  ⟨⟨_, _, _, live_clean (graphed 0) 0 bare _ 1 0 0 rfl, rfl, by decide +kernel, ⟨rfl, rfl, rfl, idle_reset ⟨rfl, rfl⟩⟩, by decide +kernel⟩,
    ⟨_, _, { desc := aDesc, homes := [8192], record := [0#64, 0x1000#64] },
      live_clean { graphed 0 with launches := [(0x30000000000, { desc := aDesc, homes := [8192], record := [0#64, 0x1000#64] })] } 0 bare _ 1 0 0 rfl, rfl,
      by decide +kernel, idle_reset ⟨rfl, rfl⟩, fresh_of_all rfl, by decide +kernel⟩⟩

theorem witness_TasksAndGraph_nbr :
    (∃ s o la, FiresClean s (.nbr .always .none .none) o ∧ graphOf s o.slot o.l.toNat = some la ∧
      graphRead s o.slot o.node (rowPtr la.desc + 4 * o.l.toNat) 4 = .data 1 ∧ graphRead s o.slot o.node (rowPtr la.desc + 4 * o.l.toNat + 4) 4 = .data 2 ∧
      2 - 1 ≤ o.r.toNat) ∧
    (∃ s o la, FiresClean s (.nbr .always .none .none) o ∧ graphOf s o.slot o.l.toNat = some la ∧
      graphRead s o.slot o.node (rowPtr la.desc + 4 * o.l.toNat) 4 = .data 0 ∧ graphRead s o.slot o.node (rowPtr la.desc + 4 * o.l.toNat + 4) 4 = .data 1 ∧
      o.r.toNat < 1 - 0 ∧ graphRead s o.slot o.node (colIdx la.desc + 4 * (0 + o.r.toNat)) 4 = .data 1 ∧ 1 ≠ o.l.toNat ∧ 1 < nelem la.desc) :=
  ⟨⟨_, _, _, live_clean (graphed 0) 0 bare _ 1 1 0 rfl, rfl, by decide +kernel, by decide +kernel, by decide +kernel⟩,
    ⟨_, _, _, live_clean (graphed 0) 0 bare _ 0 0 0 rfl, rfl, by decide +kernel, by decide +kernel, by decide +kernel, by decide +kernel,
      by decide +kernel, by decide +kernel⟩⟩

theorem witness_TasksAndGraph_colour :
    (∃ s o, FiresClean s (.colourCur .always .none .none) o) ∧
    (∃ s o la, FiresClean s (.colourSet .always .none .none) o ∧ graphOf s o.slot o.l.toNat = some la ∧ colours la.desc ≠ 0 ∧
      o.r.toNat = 255 ∧ checkWalk s { core := slotCore o.slot, sys := systemSlot o.slot, va := colours la.desc + o.l.toNat, size := 1, use := .store } =
        .at 0x10000000021) :=
  ⟨⟨_, _, live_clean (graphed 0) 0 bare _ 0 0 0 rfl⟩,
    ⟨_, _, _, live_clean (graphed 0) 0 bare _ 1 255 0 rfl, rfl, by decide +kernel, by decide +kernel, by decide +kernel⟩⟩

/-- The last entry of a cluster's list; an entry of the core's; the last program slot of the module; a queue class. -/
theorem witness_ActionsDeferred :
    (∃ s o D a, FiresClean s (.dec .always .none .none) o ∧ deferRule (.dec .always .none .none) = some D ∧ D s o a) ∧
    (∃ s o D a, FiresClean s (.tretry .always .none .none) o ∧ deferRule (.tretry .always .none .none) = some D ∧ D s o a) ∧
    (∃ s o D a, FiresClean s (.park .always .none .none) o ∧ deferRule (.park .always .none .none) = some D ∧ D s o a ∧
      systemSlot o.slot = true) ∧
    (∃ s o D a, FiresClean s (.pwrq .always .none .none) o ∧ deferRule (.pwrq .always .none .none) = some D ∧ D s o a ∧ o.l.toNat = 255) :=
  ⟨⟨_, _, _, _, live_clean (graphed 0) 0 bare _ 0x400FF#64 0 0 rfl, rfl, rfl, by decide +kernel,
      by rw [if_neg (by decide +kernel)]; exact ⟨by decide +kernel, by decide +kernel, 0, by decide, by rfl⟩⟩,
    ⟨_, _, _, _, live_clean (graphed 0) 0 bare _ 0 0 0 rfl, rfl, rfl, by decide +kernel,
      by rw [if_pos (by decide +kernel)]; exact ⟨by rfl, by decide +kernel, by decide +kernel⟩⟩,
    ⟨_, _, _, _, live_clean State.reset 14 bare _ 0x1FFFD#64 0 0 rfl, rfl, ⟨_, ⟨by decide +kernel, by decide +kernel, rfl⟩, rfl⟩, rfl⟩,
    ⟨_, _, _, _, live_clean State.reset 0 bare _ 255 0 0 rfl, rfl, ⟨by decide +kernel, rfl⟩, by decide +kernel⟩⟩

theorem witness_ActionsDeferred_turned :
    (∃ s o, FiresClean s (.tdrop .always .none .none) o ∧ takesRef (.tdrop .always .none .none) = true ∧ ¬RefOk s o.slot o.l) ∧
    (∃ s o, FiresClean s (.wake .always .none .none) o ∧ takesSlot (.wake .always .none .none) = true ∧ systemSlot o.slot = true ∧
      13 < o.l.toNat % 16) ∧
    (∃ s o, FiresClean s (.halts .always .none .none) o ∧ systemSlot o.slot = true ∧ o.l.toNat = 2 ^ 17) ∧
    (∃ s o j, FiresClean s (.eret .always true) o ∧ InstIs s o.slot j ∧ systemSlot o.slot = true ∧ SlotNamed o.slot o.l 13) ∧
    (∃ s o, Fires s (.csync .always .none .none) o) ∧
    (∃ s o, Fires s (.trqpop .always .none .none false) o ∧ systemOnly (.trqpop .always .none .none false) = true ∧ systemSlot o.slot = false) ∧
    (∃ s o, Fires s (.halts .always .none .none) o ∧ actsBeyond (.halts .always .none .none) = true ∧ o.poison = true ∧
      systemSlot o.slot = true) :=
  ⟨⟨_, _, live_clean State.reset 0 bare _ 0x200000000000#64 0 0 rfl, rfl, fun h => absurd h.1 (by decide +kernel)⟩,
    ⟨_, _, live_clean State.reset 14 bare _ 14 0 0 rfl, rfl, rfl, by decide +kernel⟩,
    ⟨_, _, live_clean State.reset 15 bare _ 0x20000#64 0 0 rfl, rfl, by decide +kernel⟩,
    ⟨_, _, _, live_clean State.reset 14 bare _ 13 0x1000#64 0 rfl, live_inst _ _ _ _ _ _ _, rfl, by decide +kernel, by decide +kernel,
      by decide +kernel⟩,
    ⟨_, _, live_fires State.reset 0 bare _ 0 0 0 rfl⟩, ⟨_, _, live_fires State.reset 13 bare _ 0 0 0 rfl, rfl, rfl⟩,
    ⟨_, _, hurt_fires State.reset 14 bare _ 0 0 0 rfl, rfl, rfl, rfl⟩⟩

/-! ### The matrix unit -/

/-- A core with four tiles, two accumulators and the s-registers, all of slot 0; and its memory. -/
def unitCore : Core := { launch := 0x20000000000, partition := 0x90808#64, own := 0#64, sown := 0, pwrGrant := 100 }
def sharedUnit (own : Word) (cells : List Host.Cell) : State := { State.reset with mem := cells, cores := [(0, { unitCore with own := own })] }
def unitState (cells : List Host.Cell) : State := sharedUnit 0#64 cells
def tiledInst (cfg : Tab Word) : Inst := { bare with tcfg0 := cfg }

/-- TCFG of bytes per row, rows and format. -/
def cfgOf (rb rows fmt : Nat) : Word := BitVec.ofNat 64 (rb - 1 + (rows - 1) * 64 + fmt * 2048)

theorem may_start_shared (own : Word) (cells : List Host.Cell) (cfg : Tab Word) (i : Instr) (l r t : Word)
    (units : List (UnitKind × Nat)) (tiles accs : List Nat)
    (h : (units.all (fun u => ownsUnit (sharedUnit own cells) 0 u.1 u.2) &&
      !stagedTooMuch 0 (stages (readyInst (tiledInst cfg) i l r t) tiles accs)) = true) :
    MayStart (live (sharedUnit own cells) 0 (tiledInst cfg) i l r t) i (ops 0 i l r t) (readyInst (tiledInst cfg) i l r t) units tiles accs := by
  simp only [Bool.and_eq_true, List.all_eq_true, Bool.not_eq_true'] at h
  have hc : slotCore (ops 0 i l r t).slot = 0 := by
    show slotCore 0 = 0
    decide
  have hco : (live (sharedUnit own cells) 0 (tiledInst cfg) i l r t).core 0 = { unitCore with own := own } := rfl
  unfold MayStart Quiet
  rw [hc, hco]
  exact ⟨live_clean _ _ _ _ _ _ _ rfl, live_inst _ _ _ _ _ _ _, rfl, fun u hu => h.1 u hu, rfl, rfl, rfl, Nat.le_refl 100, rfl,
    ⟨rfl, rfl, rfl, idle_reset ⟨rfl, rfl⟩⟩, h.2⟩

theorem may_start (cells : List Host.Cell) (cfg : Tab Word) (i : Instr) (l r t : Word) (units : List (UnitKind × Nat)) (tiles accs : List Nat)
    (h : (units.all (fun u => ownsUnit (unitState cells) 0 u.1 u.2) &&
      !stagedTooMuch 0 (stages (readyInst (tiledInst cfg) i l r t) tiles accs)) = true) :
    MayStart (live (unitState cells) 0 (tiledInst cfg) i l r t) i (ops 0 i l r t) (readyInst (tiledInst cfg) i l r t) units tiles accs :=
  may_start_shared 0#64 cells cfg i l r t units tiles accs h

/-- An operation of MayStart, with its state, operands and instance. -/
abbrev Starts (i : Instr) (units : List (UnitKind × Nat)) (tiles accs : List Nat) (P : State → Fired → Inst → Prop) : Prop :=
  ∃ s o j, MayStart s i o j units tiles accs ∧ P s o j

theorem witness_PailTransfers_loads :
    Starts (.tld .always .none 3#3) [(.tile, 3)] [3] [] (fun s o j => strideOk o.r.toNat = true ∧ (tileOf j 3).rb % 8 = 0 ∧
      pailCheck s o.slot o.l.toNat (pailRows o.l.toNat o.r.toNat (tileOf j 3).rows (tileOf j 3).rb) false = none) ∧
    Starts (.accld .always .none 0#3 true) (accUnits 0 true) [] (accsOf 0 true) (fun s o _ => strideOk o.r.toNat = true ∧
      pailCheck s o.slot o.l.toNat (pailRows o.l.toNat o.r.toNat 32 256) false = none) ∧
    Starts (.scld .always .none) [] [] [] (fun s o j => scaleSpan o.r.toNat = some (1024, 7168) ∧
      pailCheck s o.slot o.l.toNat [(o.l.toNat, 1024)] false = none ∧
      (j.staged.bytes.filter fun x => decide (scaleBase (slotCore o.slot) ≤ x.1)).length + 1024 ≤ 1024) :=
  ⟨⟨_, _, _, may_start [] [] _ 0x100#64 64 0 _ _ _ (by decide +kernel), by decide +kernel⟩,
    ⟨_, _, _, may_start [] [] _ 0x100#64 0x918#64 0 _ _ _ (by decide +kernel), by decide +kernel⟩,
    ⟨_, _, _, may_start [] [] _ 0x11800#64 0x4001C00#64 0 _ _ _ (by decide +kernel), by decide +kernel⟩⟩

theorem witness_PailTransfers_stores :
    Starts (.tst .always .none 0#3) [(.tile, 0)] [] [] (fun s o j => strideOk o.r.toNat = true ∧ (tileOf j 0).bad = false ∧
      pailCheck s o.slot o.l.toNat (pailRows o.l.toNat o.r.toNat (tileOf j 0).rows (tileOf j 0).rb) true = none) ∧
    Starts (.scst .always .none) [] [] [] (fun s o _ => scaleSpan o.r.toNat = some (8, 0) ∧
      pailCheck s o.slot o.l.toNat [(o.l.toNat, 8)] true = none) ∧
    Starts (.tzero .always .none 1#3) [(.tile, 1)] [1] [] (fun _ _ _ => True) ∧
    Starts (.accz .always .none 1#3 false) (accUnits 1 false) [] (accsOf 1 false) (fun _ _ _ => True) :=
  ⟨⟨_, _, _, may_start [] [] _ 0x100#64 0 0 _ _ _ (by decide +kernel), by decide +kernel⟩,
    ⟨_, _, _, may_start [] [] _ 0x100#64 0x80000#64 0 _ _ _ (by decide +kernel), by decide +kernel⟩,
    ⟨_, _, _, may_start [] [] _ 0 0 0 _ _ _ (by decide +kernel), trivial⟩, ⟨_, _, _, may_start [] [] _ 0 0 0 _ _ _ (by decide +kernel), trivial⟩⟩

/-- Tile 0 of a scaled format; tile 1 of a reserved one; tiles of S8, 2 × 4 and 4 × 2. -/
theorem witness_TileConversions :
    Starts (.ttrn .always .none 1#3 0#3) [(.tile, 1), (.tile, 0)] [1] [] (fun _ _ j => scaled (tileOf j 0).fmt = true) ∧
    Starts (.ttrn .always .none 1#3 0#3) [(.tile, 1), (.tile, 0)] [1] [] (fun _ _ j => (tileOf j 0).bad = false ∧
      scaled (tileOf j 0).fmt = false ∧ elemBits (tileOf j 1).fmt = 0) ∧
    Starts (.ttrn .always .none 1#3 0#3) [(.tile, 1), (.tile, 0)] [1] [] (fun _ _ j =>
      let ta := tileOf j 0
      let td := tileOf j 1
      ta.bad = false ∧ scaled ta.fmt = false ∧ td.fmt = ta.fmt ∧ td.rows = ta.k ∧ td.rb * 8 = ta.rows * elemBits ta.fmt ∧
        ¬(elemBits ta.fmt = 4 ∧ ta.rows % 2 = 1)) ∧
    Starts (.accrd .always .none 0#3 0#3 .pair (.enabled .rz)) ((.tile, 0) :: accUnits 0 true) [0] []
      (fun _ _ j => 0x11 ≤ (tileOf j 0).fmt) ∧
    Starts (.accrd .always .none 0#3 0#3 .pair (.enabled .rz)) ((.tile, 0) :: accUnits 0 true) [0] []
      (fun _ _ j => (tileOf j 0).bad = false ∧ (tileOf j 0).fmt < 0x11 ∧ (tileOf j 0).k = 32) ∧
    Starts (.tdeq .always .none 1#3 0#3 2#3 0#6) [(.tile, 1), (.tile, 0)] [1] [] (fun _ _ j =>
      let ta := tileOf j 0
      let td := tileOf j 1
      ta.bad = false ∧ td.bad = false ∧ td.fmt = 0x0A ∧ ta.rows = td.rows ∧ 16 * 2 + td.k = ta.k) :=
  ⟨⟨_, _, _, may_start [] [(0, cfgOf 32 2 0x11)] _ 0 0 0 _ _ _ (by decide +kernel), by decide +kernel⟩,
    ⟨_, _, _, may_start [] [(0, cfgOf 4 2 0x0D), (1, cfgOf 2 4 0x15)] _ 0 0 0 _ _ _ (by decide +kernel), by decide +kernel⟩,
    ⟨_, _, _, may_start [] [(0, cfgOf 4 2 0x0D), (1, cfgOf 2 4 0x0D)] _ 0 0 0 _ _ _ (by decide +kernel), by decide +kernel⟩,
    ⟨_, _, _, may_start [] [(0, cfgOf 32 2 0x11)] _ 0 0 0 _ _ _ (by decide +kernel), by decide +kernel⟩,
    ⟨_, _, _, may_start [] [(0, cfgOf 64 32 0x0C)] _ 0 0 0 _ _ _ (by decide +kernel), by decide +kernel⟩,
    ⟨_, _, _, may_start [] [(0, cfgOf 32 2 0x11), (1, cfgOf 16 2 0x0A)] _ 0 0 0 _ _ _ (by decide +kernel), by decide +kernel⟩⟩

/-- Formats that do not pair; E8M23, pairs of E11M52, one whose second half is another slot's, and S8. -/
theorem witness_MatrixProducts_mma :
    Starts (.mma .always .none 0#3 0#3 1#3 0#6) [(.acc, 0), (.tile, 0), (.tile, 1)] [] (accsOf 0 false) (fun _ _ j =>
      (tileOf j 0).bad = false ∧ (tileOf j 1).bad = false ∧ pairOk false (tileOf j 0).fmt (tileOf j 1).fmt = false) ∧
    Starts (.mmas .always .none 0#3 0#3 1#3 0#6) [(.acc, 0), (.tile, 0), (.tile, 1)] [] (accsOf 0 true) (fun s o j =>
      (tileOf j 0).fmt = 1 ∧ mmaCheck false o.node 0 (tileOf j 0) (tileOf j 1) 0#6 = none ∧ ownsUnit s o.slot .acc (0 + 1) = true) ∧
    Starts (.mma .always .none 0#3 0#3 1#3 0#6) [(.acc, 0), (.tile, 0), (.tile, 1)] [] (accsOf 0 true) (fun s o j =>
      (tileOf j 0).fmt = 1 ∧ ownsUnit s o.slot .acc (0 + 1) = false) ∧
    Starts (.mma .always .none 1#3 0#3 1#3 0#6) [(.acc, 1), (.tile, 0), (.tile, 1)] [] (accsOf 1 false) (fun _ o j =>
      (elemInt (tileOf j 0).fmt).isSome = true ∧ mmaCheck false o.node 1 (tileOf j 0) (tileOf j 1) 0#6 = none) ∧
    Starts (.mmak .always .none 0#3 0#3 1#3 0#6) [(.acc, 0), (.tile, 0), (.tile, 1)] [] (accsOf 0 false) (fun _ o j =>
      mmaCheck true o.node 0 (tileOf j 0) (tileOf j 1) 0#6 = none) :=
  ⟨⟨_, _, _, may_start [] [(0, cfgOf 4 2 0x0D)] _ 0 0 0 _ _ _ (by decide +kernel), by decide +kernel⟩,
    ⟨_, _, _, may_start [] [(0, cfgOf 64 32 1), (1, cfgOf 64 32 1)] _ 0 0 0 _ _ _ (by decide +kernel), by decide +kernel⟩,
    ⟨_, _, _, may_start_shared 0x1000000000#64 [] [(0, cfgOf 64 32 1), (1, cfgOf 64 32 1)] _ 0 0 0 _ _ _ (by decide +kernel), by decide +kernel⟩,
    ⟨_, _, _, may_start [] [(0, cfgOf 4 2 0x0D), (1, cfgOf 4 1 0x0D)] _ 0 0 0 _ _ _ (by decide +kernel), by decide +kernel⟩,
    ⟨_, _, _, may_start [] [(0, cfgOf 32 2 0x11), (1, cfgOf 64 2 0x06)] _ 0 0 0 _ _ _ (by decide +kernel), by decide +kernel⟩⟩

theorem witness_MatrixProducts_rows :
    Starts (.topk .always .none 1#3 0#3 true 0#3) [(.tile, 1), (.tile, 0)] [1] [] (fun _ o j => (tileOf j 0).bad = false ∧ o.l.toNat = 32 ∧
      (tileOf j 1).fmt = 0x0C ∧ (tileOf j 0).rows ≤ (tileOf j 1).rows ∧ 2 * o.l.toNat ≤ (tileOf j 1).rb) ∧
    Starts (.topk .always .none 1#3 0#3 true 0#3) [(.tile, 1), (.tile, 0)] [1] [] (fun _ _ j => (tileOf j 0).bad = false ∧
      elemBits (tileOf j 1).fmt = 0) ∧
    Starts (.tred .always .none 1#3 0#3 .max true 0#3) [(.acc, 1), (.tile, 0)] [] [1] (fun _ o j => (tileOf j 0).bad = false ∧
      o.l.toNat = 32) ∧
    Starts (.tred .always .none 1#3 0#3 .sum true 0#3) [(.acc, 1), (.tile, 0)] [] [1] (fun _ o j => (tileOf j 0).bad = false ∧
      o.l.toNat = 31 ∧ elemInt (tileOf j 0).fmt = none) ∧
    Starts (.tred .always .none 1#3 0#3 .min false 0#3) [(.acc, 1), (.tile, 0)] [] [1] (fun _ o j => (tileOf j 0).bad = false ∧
      o.l.toNat < 32 ∧ elemInt (tileOf j 0).fmt = some true) :=
  ⟨⟨_, _, _, may_start [] [(1, cfgOf 64 32 0x0C)] _ 32 0 0 _ _ _ (by decide +kernel), by decide +kernel⟩,
    ⟨_, _, _, may_start [] [(1, cfgOf 64 32 0x1F)] _ 32 0 0 _ _ _ (by decide +kernel), by decide +kernel⟩,
    ⟨_, _, _, may_start [] [] _ 32 0 0 _ _ _ (by decide +kernel), by decide +kernel⟩,
    ⟨_, _, _, may_start [] [] _ 31 0 0 _ _ _ (by decide +kernel), by decide +kernel⟩,
    ⟨_, _, _, may_start [] [(0, cfgOf 4 2 0x0D)] _ 0 0 0 _ _ _ (by decide +kernel), by decide +kernel⟩⟩

/-- The unit is claimed by slot 1; tile 4 does not exist; no power; an operation under way. -/
theorem witness_MatrixUnitShared :
    (∃ s o j, FiresClean s (.tzero .always .none 0#3) o ∧ InstIs s o.slot j ∧ qTurn j o.node = true ∧ ownsUnit s o.slot .tile 0 = true ∧
      (s.core (slotCore o.slot)).claim = some (1, 0) ∧ 1 ≠ o.slot) ∧
    (∃ s o j, FiresClean s (.tzero .always .none 4#3) o ∧ InstIs s o.slot j ∧ qTurn j o.node = true ∧ ownsUnit s o.slot .tile 4 = false) ∧
    (∃ s o j, FiresClean s (.tzero .always .none 0#3) o ∧ InstIs s o.slot j ∧ qTurn j o.node = true ∧ ownsUnit s o.slot .tile 0 = true ∧
      (s.core (slotCore o.slot)).claim = none ∧ (s.core (slotCore o.slot)).claimWait = [] ∧ (s.core (slotCore o.slot)).pwrGrant < 24) ∧
    (∃ s j x, (s.core 0).qbusy = some (0, 0, 0#64, false) ∧ InstIs s 0 j ∧ j.nodes[0]? = some x ∧
      OpenFor (stand j 0 .fired) (.data 0#64 false) x.form.t) :=
  ⟨⟨_, _, _, live_clean { State.reset with cores := [(0, { unitCore with claim := some (1, 0) })] } 0 bare _ 0 0 0 rfl, live_inst _ _ _ _ _ _ _, rfl,
      by decide +kernel, rfl, by decide⟩,
    ⟨_, _, _, live_clean (unitState []) 0 bare _ 0 0 0 rfl, live_inst _ _ _ _ _ _ _, rfl, by decide +kernel⟩,
    ⟨_, _, _, live_clean { State.reset with cores := [(0, { unitCore with pwrGrant := 23 })] } 0 bare _ 0 0 0 rfl, live_inst _ _ _ _ _ _ _, rfl,
      by decide +kernel, rfl, rfl, by decide⟩,
    ⟨{ held 0 { bare with nodes := [{ word := 0x82000000, st := .waiting }] } with cores := [(0, { qbusy := some (0, 0, 0#64, false) })] }, _, _,
      rfl, rfl, rfl, trivial⟩⟩

/-- The last multiple of 8 below 0x18000, spans that end at the pail and one byte beyond it. -/
theorem witness_MatrixUnitShared_pail :
    (∃ x ∈ [(8, 0x18000)], x.2 ≠ 0 ∧ zoneBase (State.reset.partition (slotCore 0)) < x.1 + x.2) ∧
    ¬(∃ x ∈ [(8, zoneBase (State.reset.partition (slotCore 0)) - 8)], x.2 ≠ 0 ∧ zoneBase (State.reset.partition (slotCore 0)) < x.1 + x.2) ∧
    0x17FF8 < 0x18000 ∧ 0x17FF8 % 8 = 0 ∧ 0x17FF9 % 8 ≠ 0 := by
  decide +kernel

/-! ### The Separator -/

/-- A record at 0x100 of the pail whose header says 1, and s-register 0 of dimension `d` with 1.0 in both places of its
diagonal (`one`), or 0. -/
def sepCells (one : Bool) (d : Nat) : List Host.Cell :=
  memAt 0x1000001D8 [0x100000000#64] ++
    memAt 0x100013C00 [BitVec.ofNat 64 (if one then 0x3F800000 else 0), 0#64, 0#64, BitVec.ofNat 64 (if one then 0x3F80000000000000 / 2 ^ 24 * 2 ^ 24 else 0)] ++
    memAt 0x100013CA8 [BitVec.ofNat 64 d]

theorem sreg_of_cells : sregAddr (unitState []) 0 0 = 0x100013C00 := by decide +kernel

theorem witness_RecordsAndBlocks_records :
    Starts (.gld .always .none 0#2 true) [(.sreg, 0)] [] [] (fun s o _ => RecordAt s o false 0x100000100 1) ∧
    Starts (.gst .always .none 0#2) [(.sreg, 0)] [] [] (fun s o j => RecordAt s o true 0x100000100 1 ∧ (readSreg s j 0 0).d ≤ 6) ∧
    Starts (.gshift .always .none) [] [] [] (fun s o _ => RecordAt s o true 0x100000100 1) ∧
    Starts (.gzero .always .none 3#2 6#3) [(.sreg, 3)] [] [] (fun _ _ _ => True) ∧
    Starts (.gchk .always .none) [] [] [] (fun s o _ => RecordAt s o false 0x100000100 1) :=
  ⟨⟨_, _, _, may_start (sepCells true 1) [] _ 0x100#64 0 0 _ _ _ (by decide +kernel), by unfold RecordAt; decide +kernel⟩,
    ⟨_, _, _, may_start (sepCells true 6) [] _ 0x100#64 0 0 _ _ _ (by decide +kernel), by unfold RecordAt; decide +kernel⟩,
    ⟨_, _, _, may_start (sepCells true 1) [] _ 0x100#64 0 0 _ _ _ (by decide +kernel), by unfold RecordAt; decide +kernel⟩,
    ⟨_, _, _, may_start [] [] _ 0 0 0 _ _ _ (by decide +kernel), trivial⟩,
    ⟨_, _, _, may_start (sepCells true 1) [] _ 0x100#64 0 0 _ _ _ (by decide +kernel), by unfold RecordAt; decide +kernel⟩⟩

theorem witness_RecordsAndBlocks_blocks :
    Starts (.gacc .always .none 0#2 1#2) [(.sreg, 0), (.sreg, 1)] [] [] (fun s _ j => (readSreg s j 0 0).d ≠ (readSreg s j 0 1).d) ∧
    Starts (.gacc .always .none 0#2 1#2) [(.sreg, 0), (.sreg, 1)] [] [] (fun s _ j => (readSreg s j 0 0).d = (readSreg s j 0 1).d) ∧
    Starts (.gdamp .always .none 0#2 true) [(.sreg, 0)] [] [] (fun s o j => RecordAt s o false 0x100000100 1 ∧
      valueOf fmtE8M23 ((s.slot o.slot).sepBeta.toNat % 2 ^ 32) = .fin false 0 (-149) ∧ (readSreg s j 0 0).d ≠ 1) ∧
    Starts (.gdamp .always .none 0#2 true) [(.sreg, 0)] [] [] (fun s o j => RecordAt s o false 0x100000100 1 ∧
      valueOf fmtE8M23 ((s.slot o.slot).sepBeta.toNat % 2 ^ 32) = .fin false 0 (-149) ∧ (readSreg s j 0 0).d = 1) :=
  ⟨⟨_, _, _, may_start (sepCells true 1) [] _ 0 0 0 _ _ _ (by decide +kernel), by decide +kernel⟩,
    ⟨_, _, _, may_start (sepCells true 0) [] _ 0 0 0 _ _ _ (by decide +kernel), by decide +kernel⟩,
    ⟨_, _, _, may_start (sepCells true 2) [] _ 0x100#64 0 0 _ _ _ (by decide +kernel), by unfold RecordAt; decide +kernel⟩,
    ⟨_, _, _, may_start (sepCells true 1) [] _ 0x100#64 0 0 _ _ _ (by decide +kernel), by unfold RecordAt; decide +kernel⟩⟩

/-- β between 0 and 1, above 1, negative, and NaN. -/
theorem witness_RecordsAndBlocks_beta :
    (valueOf fmtE8M23 0x3F000000 ≠ .nan ∧ (valueOf fmtE8M23 0x3F000000).neg? = false ∧ (valueOf fmtE8M23 0x3F000000).order (.fin false 1 0) ≠ .gt) ∧
    ((valueOf fmtE8M23 0x3F800001).neg? = false ∧ (valueOf fmtE8M23 0x3F800001).order (.fin false 1 0) = .gt) ∧
    (valueOf fmtE8M23 0xBF800000 ≠ .nan ∧ (valueOf fmtE8M23 0xBF800000).neg? = true) ∧ valueOf fmtE8M23 0x7FC00000 = .nan := by
  decide +kernel

/-- There is a chain of eliminations. -/
theorem witness_Elimination_chain (x : Info) (hd : x.d ≤ 2) : ∃ f, ElimChain x 0 f := by
  obtain ⟨d, lam, eta⟩ := x
  match d, hd with
  | 0, _ => exact ⟨fun _ => ⟨0, lam, eta⟩, rfl, fun k _ h => absurd h (by simp)⟩
  | 1, _ =>
    refine ⟨fun n => if n = 0 then elimStep ⟨1, lam, eta⟩ 0 else ⟨1, lam, eta⟩, rfl, fun k _ h => ?_⟩
    obtain rfl : k = 0 := by simpa using h
    rfl
  | 2, _ =>
    refine ⟨fun n => if n = 0 then elimStep (elimStep ⟨2, lam, eta⟩ 1) 0 else if n = 1 then elimStep ⟨2, lam, eta⟩ 1 else ⟨2, lam, eta⟩, rfl,
      fun k _ h => ?_⟩
    have hk : k = 0 ∨ k = 1 := by simp at h; omega
    obtain rfl | rfl := hk <;> rfl

/-- GELIM of two variables: M of 0 (R249), and down to one with a pivot of 1.0, and with one of 0. -/
theorem witness_Elimination_gelim :
    Starts (.gelim .always .none 0#2 2#3) [(.sreg, 0)] [] [] (fun s _ j => (readSreg s j 0 0).d ≤ 6 ∧ (readSreg s j 0 0).d ≤ (2#3).toNat) ∧
    ∀ one, Starts (.gelim .always .none 0#2 1#3) [(.sreg, 0)] [] [] (fun s o j => (readSreg s j 0 0).d = 2 ∧
      ∃ f, ElimChain (readSreg s j 0 0) 1 f ∧ pivotBad (slotEps s o.slot) ((f (1 + 1)).l 1 1) = !one ∧
        ∀ k, 1 ≤ k → k < 2 → k = 1) := by
  refine ⟨⟨_, _, _, may_start (sepCells true 2) [] _ 0 0 0 _ _ _ (by decide +kernel), by decide +kernel⟩, fun one => ?_⟩
  refine ⟨_, _, _, may_start (sepCells one 2) [] _ 0 0 0 _ _ _ (by cases one <;> decide +kernel), by cases one <;> decide +kernel, ?_⟩
  have hp : pivotBad (slotEps (live (unitState (sepCells one 2)) 0 (tiledInst []) (.gelim .always .none 0#2 1#3) 0 0 0) 0)
      ((readSreg (live (unitState (sepCells one 2)) 0 (tiledInst []) (.gelim .always .none 0#2 1#3) 0 0 0)
        (readyInst (tiledInst []) (.gelim .always .none 0#2 1#3) 0 0 0) 0 0).l 1 1) = !one := by cases one <;> decide +kernel
  have hd : (readSreg (live (unitState (sepCells one 2)) 0 (tiledInst []) (.gelim .always .none 0#2 1#3) 0 0 0)
      (readyInst (tiledInst []) (.gelim .always .none 0#2 1#3) 0 0 0) 0 0).d = 2 := by cases one <;> decide +kernel
  obtain ⟨f, hf⟩ := witness_Elimination_chain _ (Nat.le_of_eq hd)
  have h2 := hf.1
  rw [hd] at h2
  exact ⟨f, ⟨hf.1, fun k _ h => hf.2 k (Nat.zero_le k) h⟩, by rw [h2]; exact hp, fun k _ _ => by omega⟩

/-- GSOLVE of one variable. -/
theorem witness_Elimination_gsolve :
    Starts (.gsolve .always .none 0#2) [(.sreg, 0)] [] [] (fun s o j => ∃ (f : Nat → Info) (xs : Nat → Nat × Bool),
      let x := readSreg s j 0 0
      x.d ≤ 6 ∧ 0 < x.d ∧ ElimChain x 0 f ∧ (∀ k < x.d, pivotBad (slotEps s o.slot) ((f (k + 1)).l k k) = false) ∧
      ∀ r < x.d,
        let e := f (r + 1)
        xs r = ((roundTo fmtE8M23 .rne (Val.div (sumVals .rne (valueOf fmtE8M23 (e.h r).1 :: (List.range r).map fun q =>
            (Val.mul (valueOf fmtE8M23 (e.l r q).1) (valueOf fmtE8M23 (xs q).1)).1.negate)).1
            (valueOf fmtE8M23 (e.l r r).1))).bits,
          (e.h r).2 || (e.l r r).2 || (List.range r).any fun q => (e.l r q).2 || (xs q).2)) := by
  refine ⟨_, _, _, may_start (sepCells true 1) [] _ 0 0 0 _ _ _ (by decide +kernel), ?_⟩
  have hp : pivotBad (slotEps (live (unitState (sepCells true 1)) 0 (tiledInst []) (.gsolve .always .none 0#2) 0 0 0) 0)
      ((readSreg (live (unitState (sepCells true 1)) 0 (tiledInst []) (.gsolve .always .none 0#2) 0 0 0)
        (readyInst (tiledInst []) (.gsolve .always .none 0#2) 0 0 0) 0 0).l 0 0) = false := by decide +kernel
  have hd : (readSreg (live (unitState (sepCells true 1)) 0 (tiledInst []) (.gsolve .always .none 0#2) 0 0 0)
      (readyInst (tiledInst []) (.gsolve .always .none 0#2) 0 0 0) 0 0).d = 1 := by decide +kernel
  obtain ⟨f, hf⟩ := witness_Elimination_chain _ (Nat.le_trans (Nat.le_of_eq hd) (by decide))
  have h1 := hf.1
  rw [hd] at h1
  refine ⟨f, fun _ => ((roundTo fmtE8M23 .rne (Val.div (sumVals .rne [valueOf fmtE8M23 ((f 1).h 0).1]).1
    (valueOf fmtE8M23 ((f 1).l 0 0).1))).bits, ((f 1).h 0).2 || ((f 1).l 0 0).2 || false), ?_⟩
  refine ⟨by rw [hd]; decide, by rw [hd]; decide, hf, ?_, ?_⟩
  all_goals
    rw [hd]
    intro k hk
    obtain rfl : k = 0 := by omega
  · rw [h1]
    exact hp
  · rfl

/-! ### Actions after commit -/

/-- Slot 14 is about to perform an action; slot 0 is `x`. -/
def due (a : Action) (x : Slot) (s : State) : State := { s with slots := [(0, x), (14, { post := [(1, a)] })] }

theorem due_due (a : Action) (x : Slot) (s : State) : Due (due a x s) 14 1 a := ⟨rfl, [], rfl⟩

theorem witness_ActionsAct_threads :
    (∃ s, Due s 14 1 (.park 0) ∧ (s.slot 0).life = .fetch ∧ (s.slot 0).halt = .none ∧ (s.slot 0).parkAtBoundary = false ∧ (s.slot 0).inst = none) ∧
    (∃ s, Due s 14 1 (.park 0) ∧ (s.slot 0).life = .free) ∧
    (∃ s, Due s 14 1 (.wake 0) ∧ (s.slot 0).life = .fetch ∧ (s.slot 0).halt = .parked) ∧
    (∃ s, Due s 14 1 (.wake 0) ∧ (s.slot 0).halt = .none ∧ (s.slot 0).parkAtBoundary = false) ∧
    (∃ s, Due s 14 1 (.halts 0) ∧ (s.slot 0).life = .fetch) ∧
    (∃ s, Due s 14 1 (.eret 0 (some 0x1000)) ∧ (s.slot 0).life = .fetch ∧ (s.slot 0).record = none ∧ (s.slot 0).halt = .fatal) ∧
    (∃ s, Due s 14 1 (.eret 0 none) ∧ (s.slot 0).halt ≠ .fatal ∧ (s.slot 0).halt ≠ .software) :=
  ⟨⟨_, due_due _ { life := .fetch } State.reset, rfl, rfl, rfl, rfl⟩, ⟨_, due_due _ {} State.reset, rfl⟩,
    ⟨_, due_due _ { life := .fetch, halt := .parked } State.reset, rfl, rfl⟩, ⟨_, due_due _ { life := .fetch } State.reset, rfl, rfl⟩,
    ⟨_, due_due _ { life := .fetch } State.reset, rfl⟩, ⟨_, due_due _ { life := .fetch, halt := .fatal } State.reset, rfl, rfl, rfl⟩,
    ⟨_, due_due _ {} State.reset, by decide, by decide⟩⟩

/-- A cluster with one translation; an entry of the registry at the start of tier 2. -/
theorem witness_ActionsAct_system :
    (∃ s, Due s 14 1 (.pwrq 255)) ∧ (∃ s, Due s 14 1 .csync) ∧
    (∃ s, Due s 14 1 (.tlbi 0 0x10000 3 .die) ∧ Scope.die ∈ [Scope.clus, .die, .mod] ∧ ∃ p ∈ s.clusters, p.2.tlb ≠ []) ∧
    (∃ s, Due s 14 1 (.seal 0x20000000000 0x20000000000) ∧ 0x20000000000 % 64 = 0 ∧ Idle s ∧
      ∀ n < 7, s.wordPoisoned (0x20000000000 + 8 * n) = false) ∧
    (∃ s, Due s 14 1 (.seal 0x20000000000 0x20000000000) ∧ Idle s ∧ s.wordPoisoned (0x20000000000 + 8 * 6) = true ∧
      ∀ i < 6, s.wordPoisoned (0x20000000000 + 8 * i) = false) ∧
    ∃ s : State, (s.slot 14).post = (1, .sealed 7) :: [] ∧ s.acc? 14 7 = none ∧
      (s.modSlot 14 fun x => { x with accs := [{ rsvAcc with id := 7 }] }).acc? 14 7 ≠ none :=
  ⟨⟨_, due_due _ {} State.reset⟩, ⟨_, due_due _ {} State.reset⟩,
    ⟨_, due_due _ {} { State.reset with
        clusters := [(0, { tlb := [{ asid := 3, g := false, level := 1, vpn := 1, pa := 0x10000, w := true, x := true, u := true }] })] },
      by decide, _, .head _, by decide⟩,
    ⟨_, due_due _ {} State.reset, rfl, idle_reset ⟨rfl, rfl⟩, by decide +kernel⟩,
    ⟨_, due_due _ {} { State.reset with poison := [0x800000000C] }, idle_reset ⟨rfl, rfl⟩, by decide +kernel, by decide +kernel⟩,
    due (.sealed 7) {} State.reset, rfl, by decide +kernel, by decide +kernel⟩

/-- Slot 0 of that launch is about to perform an action; entry 0 of its list has that first word, and the stall word of
element 0 that value. -/
def acting (w0 sw : Word) (a : Action) : State :=
  { graphed w0 with
    mem := memAt 0x100004000 [sw] ++ (graphed w0).mem, slots := [(0, { launch := 0x30000000000, post := [(1, a)] })] }

theorem acting_due (w0 sw : Word) (a : Action) : Due (acting w0 sw a) 0 1 a := ⟨rfl, [], rfl⟩

/-- A POST into the reserved entry; a WAITING entry of COUNT 1 and a READY one of COUNT 0; a failed task whose element is
quarantined. -/
theorem witness_ActionsAct_tasks :
    (Due (acting 0 0 (.post 0x100005000 0 1 0x1000 7 3)) 0 1 (.post 0x100005000 0 1 0x1000 7 3) ∧
      MemInv (acting 0 0 (.post 0x100005000 0 1 0x1000 7 3))) ∧
    (∀ w0 ∈ [0x2000000100000000#64, 0x4000000000000000#64], ∀ a ∈ [Action.dec 0#64, .prio 0#64 3], Due (acting w0 0 a) 0 1 a ∧
      (resolveRef (acting w0 0 a) 0 0 0).toOption = some (0x100005000, 0) ∧ (readEntry (acting w0 0 a) 0x100005000 0).st ≠ 0 ∧ MemInv (acting w0 0 a)) ∧
    (∀ w0 ∈ [0x8000000000000000#64, 0x4000000000000000#64], ∀ a ∈ [Action.tretry 0#64, .tdrop 0#64],
      Due (acting w0 0xC000000000000000 a) 0 1 a ∧ (resolveRef (acting w0 0xC000000000000000 a) 0 0 0).toOption = some (0x100005000, 0) ∧
      (readEntry (acting w0 0xC000000000000000 a) 0x100005000 0).st ≠ 0 ∧ MemInv (acting w0 0xC000000000000000 a) ∧
      stallAddr ((acting w0 0xC000000000000000 a).launch 0x30000000000) 0 = some 0x100004000 ∧
      ((acting w0 0xC000000000000000 a).word 0x100004000).toNat / 2 ^ 62 = 3) ∧
    ((readEntry (acting 0x2000000100000000 0 .csync) 0x100005000 0).st = 1 ∧ (readEntry (acting 0x2000000100000000 0 .csync) 0x100005000 0).count = 1 ∧
      (readEntry (acting 0x4000000000000000 0 .csync) 0x100005000 0).count = 0 ∧ (readEntry (acting 0x8000000000000000 0 .csync) 0x100005000 0).st = 4) :=
  ⟨⟨acting_due _ _ _, by decide +kernel⟩, fun _ h _ g => ⟨acting_due _ _ _, by revert h g; simp only [List.mem_cons, List.not_mem_nil, or_false]; rintro (rfl | rfl) (rfl | rfl) <;> decide +kernel⟩,
    fun _ h _ g => ⟨acting_due _ _ _, by revert h g; simp only [List.mem_cons, List.not_mem_nil, or_false]; rintro (rfl | rfl) (rfl | rfl) <;> decide +kernel⟩,
    by decide +kernel⟩

/-- A shared element and a quarantined one, of a running module. -/
def quarantining (sw : Word) : State :=
  { State.reset with
    mem := memAt 0x100004000 [sw], net := [(1, .quarantine 0x30000000000 0)], nextId := 2
    launches := [(0x30000000000, { desc := aDesc, homes := [0] })], modules := [(0, { populated := true, boot := .running })] }

abbrev Quarantines (sw : Word) : Prop :=
    MemInv (quarantining sw) ∧ tabFind (quarantining sw).net 1 = some (.quarantine 0x30000000000 0) ∧
      stallAddr ((quarantining sw).launch 0x30000000000) 0 = some 0x100004000 ∧ arrives (quarantining sw) 1 0 = true ∧
      (quarantining sw).word 0x100004000 = sw

theorem witness_ActionsAct_quarantine : Quarantines 0x4001000000000000#64 ∧ Quarantines 0xC000000000000000#64 := by decide +kernel

/-! ### The fabric -/

/-- A request of slot `k` of a launch that has come to its own module, which runs or is off. -/
def remoted (boot : Boot) (k : Nat) (pa : Nat) : State :=
  { translated State.reset { launch := 0x30000000000, partition := 0x208#64 } [] with
    modules := [(0, { populated := true, boot := boot })], slots := [(k, { launch := 0x30000000000 })]
    net := [(1, .remote 0 7 k 0 { src := .slot k 0, op := .load 8 false, pa := pa })], nextId := 2 }

theorem witness_RemoteRequestsServed :
    (∀ pa ∈ [0x10000000008, 0x108, 0xF0000000000], ∀ k ∈ [0, 14], MemInv (remoted .running k pa) ∧
      tabFind (remoted .running k pa).net 1 = some (.remote 0 7 k 0 { src := .slot k 0, op := .load 8 false, pa := pa }) ∧
      arrives (remoted .running k pa) 1 0 = true ∧
      remoteBefore (remoted .running k pa) k 0 7 { src := .slot k 0, op := .load 8 false, pa := pa } = false ∧
      { src := .slot k 0, op := .load 8 false, pa := pa : Req }.persists = false ∧ blockedAt (remoted .running k pa) { src := .slot k 0, op := .load 8 false, pa := pa } = none) ∧
    arrives (remoted .off 0 0) 1 0 = false ∧ ((remoted .running 0 0).module 0).addRemote = true ∧
      (({ remoted .running 0 0 with modules := [(0, { populated := true, boot := .running, addRemote := false })] } : State).module 0).addRemote = false ∧
    (∃ f, checkRemote (remoted .running 0 0x108) 0 0 (.load 8 false) 0x108 = .fault f) ∧
    checkRemote (remoted .running 0 0) 0 0 (.load 8 false) 0x10000000008 = .at 0x10000000008 ∧
    checkRemote (remoted .running 14 0) 14 0 (.load 8 false) 0xF0000000000 = .at 0xF0000000000 :=
  ⟨by decide +kernel, by decide +kernel, by decide +kernel, by decide +kernel, ⟨_, rfl⟩, by decide +kernel, by decide +kernel⟩

/-- Slot 0 of a launch with queues, about to send entry 0, whose header names LEN 7 and core 0; with a reserved bit or not,
and with its last payload word poisoned or not. -/
def injecting (reserved : Bool) (poison : List Nat) : State :=
  { State.reset with
    mem := memAt 0x100014800 [BitVec.ofNat 64 (7 * 2 ^ 26 + if reserved then 2 ^ 31 else 0), 1#64], poison := poison
    cores := [(0, { launch := 0x30000000000, partition := 0x400000208#64 })]
    slots := [(0, { launch := 0x30000000000, post := [(1, .inj 0 0)] })] }

theorem witness_MessagesPass_inject :
    (∀ b p, (b, p) ∈ [(false, []), (true, []), (false, [0x4000520E])] → ((injecting b p).slot 0).post = [(1, .inj 0 0)] ∧
      ((injecting b p).slot 0).accs = [] ∧ Idle (injecting b p) ∧
      poolBase (slotCore 0) + queueBase ((injecting b p).partition (slotCore 0)) + 64 * 0 = 0x100014800 ∧
      ((injecting b p).word 0x100014800).toNat / 2 ^ 26 % 8 = 7) ∧
    ((injecting false []).word 0x100014800).toNat / 2 ^ 29 % 8 = 0 ∧ ((injecting true []).word 0x100014800).toNat / 2 ^ 29 % 8 ≠ 0 ∧
    (∀ n ≤ 7, (injecting true []).wordPoisoned (0x100014800 + 8 * n) = false) ∧
    (∃ n ≤ 7, (injecting false [0x4000520E]).wordPoisoned (0x100014800 + 8 * n) = true) := by
  refine ⟨?_, by decide +kernel⟩
  simp only [List.mem_cons, List.not_mem_nil, or_false, Prod.mk.injEq]
  rintro b p (⟨rfl, rfl⟩ | ⟨rfl, rfl⟩ | ⟨rfl, rfl⟩) <;> exact ⟨rfl, rfl, idle_reset ⟨rfl, rfl⟩, by decide +kernel, by decide +kernel⟩

/-- A packet of slot 0 at core 0, which is of the launch, has queues and a free entry, or not. -/
def arriving (launch part : Nat) (rcv : Tab RcvSt) : State :=
  { State.reset with
    modules := [(0, { populated := true, boot := .running })], slots := [(0, {})]
    cores := [(0, { launch := launch, partition := BitVec.ofNat 64 part, rcv := rcv })]
    net := [(1, .packet 0 0 0 0 0 0 0 0x4000000#64 [7])], nextId := 2 }

theorem witness_MessagesPass_arrival :
    (∀ l p r, (l, p, r) ∈ [(0, 0x400000208, []), (5, 0x208, []), (5, 0x400000208, [(0, RcvSt.full)]), (5, 0x400000208, [])] →
      MemInv (arriving l p r) ∧ tabFind (arriving l p r).net 1 = some (.packet 0 0 0 0 0 0 0 0x4000000#64 [7]) ∧
      arrives (arriving l p r) 1 (0 / 8192) = true ∧ packetBefore (arriving l p r) 1 0 0 = false ∧ 0 ≤ (arriving l p r).now) ∧
    sameLaunch (arriving 0 0x400000208 []) ((arriving 0 0x400000208 []).core 0).launch ((arriving 0 0x400000208 []).core 0).launch = false ∧
    (sameLaunch (arriving 5 0x208 []) 5 5 = true ∧ hasQueues (arriving 5 0x208 []) 0 = false) ∧
    hasQueues (arriving 5 0x400000208 []) 0 = true ∧
    tabGet ((arriving 5 0x400000208 [(0, .full)]).core 0).rcv ((arriving 5 0x400000208 []).core 0).rcvNext .empty ≠ .empty ∧
    tabGet ((arriving 5 0x400000208 []).core 0).rcv ((arriving 5 0x400000208 []).core 0).rcvNext .empty = .empty := by
  refine ⟨?_, by decide +kernel⟩
  simp only [List.mem_cons, List.not_mem_nil, or_false, Prod.mk.injEq]
  rintro l p r (⟨rfl, rfl, rfl⟩ | ⟨rfl, rfl, rfl⟩ | ⟨rfl, rfl, rfl⟩ | ⟨rfl, rfl, rfl⟩) <;> decide +kernel

/-- Core 0 with a full receive entry 3. -/
def received : State := { State.reset with cores := [(0, { rcv := [(3, .full)], rcvOrder := [3] })] }

theorem witness_MessagesPass_receive :
    (∃ s o j, FiresClean s (.rcvpTake .always .none .none) o ∧ InstIs s o.slot j ∧
      ∀ e ∈ (s.core (slotCore o.slot)).rcvOrder, e ∈ (s.core (slotCore o.slot)).rcvClaimed) ∧
    (∃ s o j, FiresClean s (.rcvpTake .always .none .none) o ∧ InstIs s o.slot j ∧
      (s.core (slotCore o.slot)).rcvOrder = [] ++ 3 :: [] ∧ 3 ∉ (s.core (slotCore o.slot)).rcvClaimed) ∧
    (∃ s, Due s 14 1 (.rcvTaken 3)) ∧
    (∀ st ∈ [RcvSt.taken, .full], ∃ s, Due s 14 1 (.rcvFree 3) ∧ Rising (s.core (slotCore 14)).rcv ∧
      tabGet (s.core (slotCore 14)).rcv 3 .empty = st) :=
  ⟨⟨_, _, _, live_clean State.reset 0 bare _ 0 0 0 rfl, live_inst _ _ _ _ _ _ _, by decide +kernel⟩,
    ⟨_, _, _, live_clean received 0 bare _ 0 0 0 rfl, live_inst _ _ _ _ _ _ _, by decide +kernel⟩,
    ⟨_, due_due _ {} State.reset⟩,
    fun st _ => ⟨_, due_due _ {} { State.reset with cores := [(0, { rcv := [(3, st)] })] },
      by show Rising [(3, st)]; simp [Rising], rfl⟩⟩

/-- Slot 0 in a launch of two levels: two instances of domain 0, and the element level. -/
def ranked (task : Option TaskInfo) : State :=
  { State.reset with
    slots := [(0, { launch := 0x30000000000, ranks := [1], task := task })]
    launches := [(0x30000000000, { record := [1#64, 0, 0, 0, 0, 0, 0, 0, 0x200000000#64, 0x1E0000000#64] })] }

theorem witness_RanksAndLinks :
    (∃ s o, Fires s (.rank .always .none .none .rank 0#3) o ∧ (s.slot o.slot).launch = 0) ∧
    (∃ s o, Fires s (.rank .always .none .none .size 2#3) o ∧ (s.launch (s.slot o.slot).launch).nlevm1 < (2#3).toNat) ∧
    (∃ s o, Fires s (.rank .always .none .none .size 0#3) o ∧ (s.slot o.slot).launch ≠ 0 ∧
      (0#3).toNat ≤ (s.launch (s.slot o.slot).launch).nlevm1 ∧ levelDomain ((s.launch (s.slot o.slot).launch).level (0#3).toNat) ≠ 7) ∧
    (∃ s o x, Fires s (.rank .always .none .none .index 1#3) o ∧ (s.slot o.slot).launch ≠ 0 ∧
      levelDomain ((s.launch (s.slot o.slot).launch).level (1#3).toNat) = 7 ∧ (s.slot o.slot).task = some x ∧ x.element = some 9) ∧
    (∃ s o, Fires s (.rank .always .none .none .index 1#3) o ∧ (s.slot o.slot).launch ≠ 0 ∧
      levelDomain ((s.launch (s.slot o.slot).launch).level (1#3).toNat) = 7 ∧ (s.slot o.slot).task = none) ∧
    (8 ≤ 8 ∧ 47 % 64 ≠ 31 ∧ 47 % 64 < 48) ∧ 48 ≤ 48 % 64 :=
  ⟨⟨_, _, live_fires State.reset 0 bare _ 0 0 0 rfl, rfl⟩, ⟨_, _, live_fires (ranked none) 0 bare _ 0 0 0 rfl, by decide +kernel⟩,
    ⟨_, _, live_fires (ranked none) 0 bare _ 0 0 0 rfl, by decide +kernel⟩,
    ⟨_, _, { list := 0, entry := 0, handle := 0, element := some 9 },
      live_fires (ranked (some { list := 0, entry := 0, handle := 0, element := some 9 })) 0 bare _ 0 0 0 rfl, by decide +kernel⟩,
    ⟨_, _, live_fires (ranked none) 0 bare _ 0 0 0 rfl, by decide +kernel⟩, by decide, by decide⟩

theorem witness_CollectivesReduce_coll :
    (∃ s o j, FiresClean s (.coll .always .none false .s64 .add 7#3) o ∧ InstIs s o.slot j ∧ s.phaseOf o.slot (7#3).toNat = none) ∧
    (∃ s o j, FiresClean s (.coll .always .none true .e8m23 .max 2#3) o ∧ InstIs s o.slot j ∧ s.phaseOf o.slot (2#3).toNat ≠ none) ∧
    (∃ s o j x, FiresClean s (.coll .always (.to .left 1#5) false .s64 .min 2#3) o ∧ InstIs s o.slot j ∧
      s.phaseOf o.slot (2#3).toNat ≠ none ∧ o.node ≠ (1#5).toNat ∧ j.nodes[(1#5).toNat]? = some x ∧
      x.instr = some (.put .always 63#6) ∧ x.left = none ∧ x.st = .idle ∧ j.hasReg 63 = false ∧ (tabGet j.regs0 63 {}).pending = false) :=
  ⟨⟨_, _, _, live_clean (phased false) 0 bare _ 0 0 0 rfl, live_inst _ _ _ _ _ _ _, by decide +kernel⟩,
    ⟨_, _, _, live_clean (phased false) 0 bare _ 0 0 0 rfl, live_inst _ _ _ _ _ _ _, by decide +kernel⟩,
    ⟨_, _, _, _, live_clean (phased false) 0 { bare with nodes := [{ word := 0x0200003F }] } _ 7 0 0 rfl, live_inst _ _ _ _ _ _ _,
      by decide +kernel, by decide +kernel, rfl, rfl, rfl, rfl, rfl, rfl⟩⟩

/-- A result for register 5 of slot 0, complete or an error. -/
def collected (bad : Bool) : State :=
  { State.reset with
    slots := [(0, { regs := [(5, { pending := true })], collPending := [(1, 5)] })], net := [(3, .collective 2 1)], nextId := 4
    collectives := [(2, { ctx := 0, k := 0, ready := true, error := bad, result := 9#64
                          vals := [{ tag := 1, slot := 0, core := 0, number := 1, ty := .s64, op := .add, mode := .rne, v := 9#64 }] })] }

theorem witness_CollectivesReduce_result : ∀ bad, tabFind (collected bad).net 3 = some (.collective 2 1) ∧
    ∃ x v, tabFind (collected bad).collectives 2 = some x ∧ collHolder (collected bad) 1 = some (0, 5) ∧
      (((collected bad).slot 0).reg 5).pending = true ∧ v ∈ x.vals ∧ v.tag = 1 ∧ (∀ w ∈ x.vals, w.tag = 1 → w = v) ∧
      v.number = tabGet ((collected bad).core v.core).timeline 6 0 + 1 :=
  fun _ => ⟨rfl, _, _, rfl, by rfl, rfl, .head _, rfl, by simp, rfl⟩

/-! ### Traps -/

/-- Slot 0 with those pending traps, at a block boundary. -/
def trapped (ts : List Trap) (life : Life) : State := { State.reset with slots := [(0, { life := life, pending := ts })] }

def divTrap : Trap := { cause := 0x02, addr := 0, info := 0, origin := 0 }
def copyTrap (seq : Nat) : Trap := { cause := 0x0B, addr := 0, info := 0, origin := 2, seq := seq }

theorem witness_TrapsTaken_take :
    TakenFirst ((trapped [copyTrap 7, divTrap, copyTrap 6] .fetch).slot 0) (copyTrap 6) ∧
    (let sl := (trapped [copyTrap 7, divTrap, copyTrap 6] .fetch).slot 0;
      sl.inst = none ∧ sl.life ≠ .free ∧ sl.life ≠ .killed ∧ sl.halt = .none ∧ sl.record = none) ∧
    ((trapped [] .fetch).slot 0).pending = [] := by
  unfold TakenFirst
  decide +kernel

/-- The record of slot 0 on its way to the queue of its die, which holds that many; the replayed or the other kind. -/
def recording (tail : Nat) (on latched replay : Bool) : State :=
  { State.reset with
    dies := [(0, { tqBase := if on then 0x30000000001#64 else 0#64, tqTail := tail, latched := latched })]
    slots := [(0, { life := .fetch, record := some { divTrap with replay := replay } })]
    net := [(1, .record 0 0 [0xFFFFFFFF00000000#64, 0#64, 0#64, 0#64] replay true)], nextId := 2 }

theorem witness_TrapsTaken_queue :
    ∀ tail ∈ [1015, 1016, 1023, 1024], ∀ on latched replay,
      MemInv (recording tail on latched replay) ∧
      RecordReady (recording tail on latched replay) 1 0 0 [0xFFFFFFFF00000000#64, 0#64, 0#64, 0#64] replay ∧
      [0xFFFFFFFF00000000#64, 0#64, 0#64, 0#64] = [((recording tail on latched replay).slot 0).trapCause,
        ((recording tail on latched replay).slot 0).trapAddr, ((recording tail on latched replay).slot 0).trapBlock,
        ((recording tail on latched replay).slot 0).trapInfo] ∧
      ((recording tail on latched replay).die 0).occupancy = tail := by
  have h (tail on latched replay) : RecordReady (recording tail on latched replay) 1 0 0 [0xFFFFFFFF00000000#64, 0#64, 0#64, 0#64] replay :=
    ⟨rfl, rfl, rfl, rfl, by cases on <;> cases latched <;> cases replay <;> rfl, idle_reset ⟨rfl, rfl⟩, _, rfl⟩
  intro tail ht on latched replay
  refine ⟨?_, h _ _ _ _, by cases on <;> cases latched <;> cases replay <;> rfl, ?_⟩ <;>
    (revert ht; simp only [List.mem_cons, List.not_mem_nil, or_false]; rintro (rfl | rfl | rfl | rfl) <;> cases on <;> cases latched <;> cases replay <;> decide +kernel)

/-- A task of slot 0 with a fatal trap: it holds element 0 exclusively and element 1 shared. -/
def failing : State :=
  { recording 0 true false false with
    mem := memAt 0x100004000 [0x8000000000000001#64, 0x4001000000000000#64] ++ memAt 0x100005000 [0x6000000000000000#64]
    cores := [(0, { launch := 0x30000000000, desc := aDesc })], launches := [(0x30000000000, { desc := aDesc, homes := [0] })]
    slots := [(0, { life := .fetch, launch := 0x30000000000, record := some divTrap
                    task := some { list := 0x100005000, entry := 0, handle := 0, element := some 0, held := [0, 1] } })] }

theorem witness_TrapsTaken_task :
    (MemInv failing ∧ tabFind failing.net 1 = some (.record 0 0 [0xFFFFFFFF00000000#64, 0#64, 0#64, 0#64] false true) ∧
      (failing.slot 0).record = some divTrap ∧ divTrap.replay = false ∧ divTrap.cause ≠ 0x09 ∧ (failing.slot 0).accs = [] ∧
      (failing.slot 0).post = [] ∧ (failing.slot 0).members = [] ∧ (failing.slot 0).handlerFile = none ∧
      (failing.slot 0).task = some { list := 0x100005000, entry := 0, handle := 0, element := some 0, held := [0, 1] } ∧
      stallAddr (failing.launch (failing.slot 0).launch) 0 = some 0x100004000 ∧
      stallAddr (failing.launch (failing.slot 0).launch) 1 = some 0x100004008 ∧ 0x100004008 / 2 ^ 48 = 0 / 16 / 8192 ∧
      ringPlace failing 0 (failing.die 0).tqTail = 0x30000000000 ∧
      [(0x100004000, 8), (0x100004008, 8), (0x100005000, 24), (0x30000000000, 32)].Pairwise (fun a b => a.1 + a.2 ≤ b.1 ∨ b.1 + b.2 ≤ a.1) ∧
      stallParts (failing.word 0x100004000).toNat = (2, 0, 0, 1) ∧ stallParts (failing.word 0x100004008).toNat = (1, 1, 0, 0)) ∧
    Idle failing :=
  ⟨by decide +kernel, idle_reset ⟨rfl, rfl⟩⟩

/-! ### The handler thread -/

/-- Die 0 of a running module with a record in its queue and a handler at 0x2000 on core 0. -/
def handling (x : Die) : State :=
  { State.reset with modules := [(0, { populated := true, boot := .running })], dies := [(0, x)] }

theorem witness_HandlersRun_start :
    (let s := handling { tqHandler := 0x2001#64, tqTail := 1 };
      (s.die 0).tqHandler.toNat % 2 = 1 ∧ (s.die 0).occupancy ≠ 0 ∧ (s.die 0).handler = false ∧ (s.module (0 / 4)).boot = .running ∧
      (s.slot 15).life = .free) ∧
    ((handling { tqHandler := 0x2000#64, tqTail := 1 }).die 0).tqHandler.toNat % 2 ≠ 1 ∧
    (let s := { handling { tqTail := 512 } with slots := [(0, { halt := .replay true })] };
      0 / 16 / 2048 = 0 ∧ answers s 0 = true ∧ (∃ sl, (0, sl) ∈ s.slots) ∧ (s.slot 0).halt = .replay true ∧ (s.die 0).occupancy = 512) ∧
    answers State.reset 0 = false := by
  refine ⟨by decide +kernel, by decide +kernel, ⟨by decide +kernel, by decide +kernel, ⟨_, .head _⟩, by decide +kernel, by decide +kernel⟩, by decide +kernel⟩

theorem witness_HandlersRun_trqpop :
    ∀ x ∈ [({ latched := true } : Die), { latched := false }, { latched := true, latchClaim := true }, { tqTail := 1 }, { tqTail := 1, claims := [0] }],
      ∀ b, ∃ o j, FiresClean (live (handling x) 14 bare (.trqpop .always .none .none b) 0x100 0 0) (.trqpop .always .none .none b) o ∧
        InstIs (live (handling x) 14 bare (.trqpop .always .none .none b) 0x100 0 0) o.slot j ∧ systemSlot o.slot = true ∧
        Idle (live (handling x) 14 bare (.trqpop .always .none .none b) 0x100 0 0) ∧ o.l.toNat % 32 = 0 ∧ slotCore o.slot / 2048 = 0 ∧
        pailCheck (live (handling x) 14 bare (.trqpop .always .none .none b) 0x100 0 0) o.slot o.l.toNat [(o.l.toNat, 32)] true = none := by
  intro x hx b
  refine ⟨_, _, live_clean (handling x) 14 bare _ 0x100 0 0 rfl, live_inst _ _ _ _ _ _ _, rfl, idle_reset ⟨rfl, rfl⟩, ?_⟩
  revert hx
  simp only [List.mem_cons, List.not_mem_nil, or_false]
  rintro (rfl | rfl | rfl | rfl | rfl) <;> cases b <;> decide +kernel

theorem witness_HandlersRun_dies :
    (({ latched := true } : Die).latchClaim = false ∧ ({ latched := true } : Die).latch.length = 4) ∧
    ({ tqTail := 1, claims := [0] } : Die).claimable = none ∧ ({ tqTail := 1 } : Die).claimable = some 0 ∧
    (∃ s, Due s 14 1 (.trqpop 0x100 0 true 0)) ∧ (∃ s, Due s 14 1 (.trqpop 0x100 0 false 0)) :=
  ⟨by decide +kernel, by decide +kernel, by decide +kernel, ⟨_, due_due _ {} State.reset⟩, ⟨_, due_due _ {} State.reset⟩⟩

/-- Core 0 with tier-2 mapped to itself: a leaf of 1 GiB. -/
def keyed (poison : List Nat) : State :=
  { State.reset with
    mem := memAt 0x20000000020 [0x20000001001#64] ++ memAt 0x20000001000 [0x2000000001F#64], poison := poison
    cores := [(0, { xlatBase := 0x20000000001#64 })] }

/-- A registry entry there, clean or with its last word poisoned. -/
theorem witness_HandlersRun_kreg :
    (∀ p ∈ [[], [0x8000000800 + 14]], ∃ s o j, FiresClean s (.kregCheck .always .none .none) o ∧ InstIs s o.slot j ∧ systemSlot o.slot = true ∧
      Quiet s o.slot ∧ s.poison = p ∧
      checkWalk s { core := slotCore o.slot, sys := true, va := o.l.toNat, size := 64, use := .keyRead } = .at 0x20000002000) ∧
    (∀ n < 8, (keyed []).wordPoisoned (0x20000002000 + 8 * n) = false) ∧
    (keyed [0x8000000800 + 14]).wordPoisoned (0x20000002000 + 8 * 7) = true := by
  refine ⟨?_, by decide +kernel, by decide +kernel⟩
  simp only [List.mem_cons, List.not_mem_nil, or_false]
  rintro p (rfl | rfl)
  · exact ⟨_, _, _, live_clean (keyed []) 14 bare _ 0x20000002000#64 0 0 rfl, live_inst _ _ _ _ _ _ _, rfl, quiet_of (by decide +kernel), rfl, by decide +kernel⟩
  · exact ⟨_, _, _, live_clean (keyed [0x8000000800 + 14]) 14 bare _ 0x20000002000#64 0 0 rfl, live_inst _ _ _ _ _ _ _, rfl, quiet_of (by decide +kernel), rfl,
      by decide +kernel⟩

/-! ### Power, control space, boot -/

/-- One cycle before the first period of a die ends, and at its end. -/
theorem witness_PowerAndControlSpace_due :
    (let s := { State.reset with modules := [(0, { populated := true, boot := .running })], now := 40000 };
      ((s.module (0 / 4)).boot = .running ∨ (s.module (0 / 4)).boot = .frozen) ∧ ((s.die 0).periods + 1) * 40000 ≤ s.now - (s.module (0 / 4)).bootAt) ∧
    (let s := { State.reset with modules := [(0, { populated := true, boot := .running })], now := 39999 };
      ¬((s.die 0).periods + 1) * 40000 ≤ s.now - (s.module (0 / 4)).bootAt) ∧
    (({ State.reset with dies := [(0, { throttle := some 200000 })] }.die 0).throttle = some 200000) ∧
    (212499 < min 212500 ((State.reset.die 0).dcap.toNat % 2 ^ 18) ∧ ¬212500 < min 212500 ((State.reset.die 0).dcap.toNat % 2 ^ 18)) ∧
    delivers State.reset 0 0 = false ∧ answers State.reset 0 = false ∧
    answers { State.reset with modules := [(0, { populated := true, boot := .frozen })] } 0 = true ∧
    registerAt State.reset (0x4000000 * 4) = none ∧
    delivers { State.reset with modules := [(0, { populated := true, boot := .running })] } 0 0 = true ∧
    State.reset.unitPoisoned (0x4000000 * 4) = false := by
  decide +kernel

/-- The first word of the registers of core 0 is g0 of slot 0, the next one g1; the last register of the slot is g63. -/
theorem witness_PowerAndControlSpace_registers :
    let u := (poolBase 0 + regBase (State.reset.partition 0)) / 4
    registerAt State.reset (u * 4) = some (0, 0) ∧ registerAt State.reset ((u + 2) * 4) = some (0, 1) ∧ (1 : Nat) ≠ 0 ∧
      ((State.reset.slot 0).reg 1).poison = false := by
  decide +kernel

theorem witness_PowerAndControlSpace_space :
    (∀ off ∈ [0x7F0, 0x100000, 0x13FFF8, 0x200000, 0x200318, 0x200380, 0x300000, 0x500018, 0x501000, 0x501FF8],
      off % 8 = 0 ∧ ∃ w, spaceMask (expertPower State.reset 0) off = some w) ∧
    (∀ off ∈ [0x18, 0x7F8, 0x200008, 0x200310, 0x200340, 0x200358], off % 8 = 0 ∧ spaceFixed off) ∧
    (0xEFFFFFFFFF8 % 2 ^ 48 / 2 ^ 40 ≠ 0xF ∧ 0x10000000000 % 2 ^ 48 / 2 ^ 40 ≠ 0xF ∧ 0xF0000000004 % 8 ≠ 0) := by
  have h : expertPower State.reset 0 = false := rfl
  rw [h]
  refine ⟨?_, ?_, by decide⟩
  · simp only [List.mem_cons, List.not_mem_nil, or_false]
    rintro off (rfl | rfl | rfl | rfl | rfl | rfl | rfl | rfl | rfl | rfl) <;> exact ⟨rfl, _, rfl⟩
  · unfold spaceFixed
    decide

theorem witness_PowerAndControlSpace_queues :
    (let s := { State.reset with modules := [(0, { queues := [(63, { records := List.replicate 255 0x20000000000 })] })] };
      (63 < 64 ∧ 0x3FFFFFFFF80 % 128 = 0 ∧ 0x20000000000 ≤ 0x3FFFFFFFF80 ∧ 0x3FFFFFFFF80 < 0x40000000000 ∧
        (tabGet (s.module 0).queues 63 {}).records.length < 256)) ∧
    (let s := { State.reset with modules := [(0, { queues := [(63, { records := List.replicate 256 0x20000000000 })] })] };
      256 ≤ (tabGet (s.module 0).queues 63 {}).records.length) ∧
    (0x20000000040 % 128 ≠ 0 ∧ 0x1FFFFFFFF80 < 0x20000000000 ∧ 0x40000000000 ≤ 0x40000000000) ∧
    (let v := 0x0001020000001001;
      MemInv State.reset ∧ State.reset.waits = [] ∧ State.reset.words = [] ∧ v % 2 = 1 ∧ v / 2 ^ 48 % 2 ^ 16 * 4096 = 4096 ∧ regionOf (v / 2 ^ 12 % 2 ^ 36 * 2 ^ 12) = some .tier2) ∧
    (0x0000020000001001 / 2 ^ 48 % 2 ^ 16 * 4096 = 0 ∧ 0x0001020000001000 % 2 = 0) := by
  decide +kernel

/-- Module 0 with this boot state, those faults at boot, and its watchdog armed to 10 ms, in that cycle. -/
def booting (x : Module) (now : Nat) : State := { State.reset with modules := [(0, { x with populated := true })], now := now }

theorem witness_ModulesBootAndFreeze_boot :
    (∀ x ∈ [({ boot := .off } : Module), { boot := .failed 5 }], MemInv (booting x 0) ∧ ((booting x 0).module 0).populated = true ∧
      ((booting x 0).module 0).boot ≠ .running ∧ ((booting x 0).module 0).boot ≠ .frozen ∧ ((booting x 0).module 0).bootFaults = []) ∧
    (∀ n ∈ [1, 5], 1 ≤ n ∧ n ≤ 5 ∧ n ∈ ((booting { bootFaults := [n, 7] } 0).module 0).bootFaults ∧
      ∀ k, k < n → k ∉ ((booting { bootFaults := [n, 7] } 0).module 0).bootFaults) ∧
    (¬((booting { boot := .running } 0).module 0).boot ≠ .running) ∧
    transferred (List.replicate 0x1F0 0#8) = true ∧ transferred (List.replicate 0x1EF 0#8) = false ∧ transferred [] = false ∧
    (imageStands State.reset 0 = true ∧ (State.reset.module 0).boot ≠ .frozen ∧ imageVerified State.reset 0 = false) := by
  refine ⟨by decide +kernel, ?_, by decide +kernel, by decide +kernel, by decide +kernel, by decide +kernel, by decide +kernel⟩
  simp only [List.mem_cons, List.not_mem_nil, or_false]
  rintro n (rfl | rfl)
  · decide +kernel
  · refine ⟨by decide, by decide, by decide +kernel, fun k hk => ?_⟩
    simp [booting, State.module, tabGet, tabFind]
    omega

theorem witness_ModulesBootAndFreeze_freeze :
    let x : Module := { boot := .running, watchdog := 0x8000000000000009#64 }
    (let s := booting x 40000000;
      (s.module 0).boot = .running ∧ (s.module 0).watchdog.getLsbD 63 = true ∧
      (s.module 0).watchAt + max 10 ((s.module 0).watchdog.toNat % 2 ^ 16) * 4000000 ≤ s.now) ∧
    (let s := booting x 39999999; s.now < (s.module 0).watchAt + max 10 ((s.module 0).watchdog.toNat % 2 ^ 16) * 4000000) ∧
    (State.reset.module 0).watchdog.getLsbD 63 = false ∧ (State.reset.module 0).boot ≠ .running := by
  decide +kernel

/-- A valid entry of the path table of one hop over that port, which delivers at its far end. -/
def pathOver (port : Nat) : Word := BitVec.ofNat 64 (2 ^ 63 + 2 ^ 36 + 63 * (2 ^ 6 + 2 ^ 12 + 2 ^ 18 + 2 ^ 24 + 2 ^ 30) + port)

/-- Module 1 with that boot state, its path to module 0, which runs and knows those peers as frozen since then. -/
def peering (boot : Boot) (peers : Tab Nat) (now : Nat) (slots : Tab Slot) : State :=
  { State.reset with
    modules := [(0, { populated := true, boot := .running, frozenPeers := peers }),
                (1, { populated := true, boot := boot, rebooted := true, registryLen := 1
                      paths := [(0, pathOver 30)] })]
    slots := slots, now := now }

theorem witness_ModulesBootAndFreeze_peers :
    (let s := peering .frozen [] 0 [];
      Rising (s.module 0).frozenPeers ∧ (s.module 1).boot = .frozen ∧ slotsParked s 1 = true ∧ delivers s 1 0 = true ∧
      tabFind (s.module 0).frozenPeers 1 = none) ∧
    slotsParked (peering .frozen [] 0 [(131072, { inst := some bare })]) 1 = false ∧
    (let s := peering .running [(1, 5)] 0 []; Rising (s.module 0).frozenPeers ∧ (s.module 1).boot = .running ∧ delivers s 1 0 = true) := by
  refine ⟨⟨by simp [peering, State.module, tabGet, tabFind, Rising], by decide +kernel⟩, by decide +kernel,
    ⟨by simp [peering, State.module, tabGet, tabFind, Rising], by decide +kernel⟩⟩

/-- A frozen module: with no launch, and with one whose registry entry is missing, which has a thread and an instance. -/
theorem witness_ModulesBootAndFreeze_adopt :
    (let s := peering .frozen [] 9 [(131072, { task := some { list := 0, entry := 0, handle := 0, start := 4 } })];
      (s.module 1).boot = .frozen ∧ (s.module 1).rebooted = true ∧ (131072 / 16 / 8192 = 1) ∧
      ∀ p ∈ s.launches, p.1 / 2 ^ 48 = 1 → p.2.running = true → reAdopted s p.1 p.2 = true) ∧
    (let la := 2 ^ 48 + 0x30000000000; let l : Launch := { running := true };
      let s := { peering .frozen [] 9 [(131072, { launch := la, life := .fetch })] with
        launches := [(la, l)] };
      (s.module 1).boot = .frozen ∧ (s.module 1).rebooted = true ∧ s.launches = [(la, l)] ∧ la / 2 ^ 48 = 1 ∧ l.running = true ∧ reAdopted s la l = false ∧ Rising s.slots ∧
        (131072, { launch := la, life := .fetch }) ∈ s.slots ∧ 131072 % 16 < 14) := by
  refine ⟨⟨by decide +kernel, by decide +kernel, by decide, fun _ h => nomatch h⟩,
    ⟨by decide +kernel, by decide +kernel, rfl, by decide, rfl, by decide +kernel, by simp [peering, Rising], .head _, by decide⟩⟩

theorem witness_ModulesBootAndFreeze_lost :
    (∀ now ∈ [8000000004, 8000000005], tabFind ((peering .frozen [(1, 5)] now []).module 0).frozenPeers 1 = some 5) ∧
    ¬(8000000004 : Nat) ≥ 5 + 8000000000 ∧ 5 + 8000000000 ≤ (8000000005 : Nat) ∧ Rising (peering .frozen [(1, 5)] 0 []).words ∧
    Rising ((peering .frozen [(1, 5)] 0 []).module 0).frozenPeers := by
  refine ⟨by decide +kernel, by decide, by decide, by simp [peering, State.reset, Rising], by simp [peering, State.module, tabGet, tabFind, Rising]⟩

/-! ### Launches -/

theorem reserved_of {r : Nat × State} (h : r.1 = 0) : ∃ u, r = (0, u) := by
  match r, h with
  | (0, u), _ => exact ⟨u, rfl⟩

/-- A record of one level, one core or 33 modules, with that LCTRL and that partition; LSTAT last. -/
def aRecord (ctrl part level lstat : Nat) : List Word :=
  [BitVec.ofNat 64 ctrl, 0x1000#64, BitVec.ofNat 64 part, 0#64, 0#64, 0#64, 0#64, BitVec.ofNat 64 lstat, BitVec.ofNat 64 level]

def oneCore : Nat := 0x120000000
def manyModules : Nat := 0x2180000000

/-- Module 0, which runs, with that record in its only queue, the last of the lowest class, and the record's entry of the context registry. -/
def deciding (r : List Word) (ring : Word) (launches : Tab Launch) (poison : List Nat) : State :=
  { State.reset with
    modules := [(0, { populated := true, boot := .running, queues := [(63, { records := [0x30000000000], ring := ring })] })]
    mem := memAt 0x27FFF000000 [0x30000000000#64, 0x20000000001#64, 5#64] ++ memAt 0x30000000000 r
    launches := launches, poison := poison }

/-- What each clause assumes in common. -/
abbrev Decides (s : State) : Prop :=
  MemInv s ∧ (s.module 0).boot = .running ∧ (tabGet (s.module 0).queues 63 {}).records = 0x30000000000 :: [] ∧
    (∀ p < 64, p ≠ 63 → (tabGet (s.module 0).queues p {}).records = []) ∧
    s.waits = [] ∧ s.words = []

abbrev Runs (s : State) : Prop :=
  (tabFind s.launches 0x30000000000).isSome = true ∨ (s.word (0x30000000000 + 0x38)).toNat / 2 ^ 60 = 1
abbrev Poisoned (s : State) : Prop := ∃ i < 16, s.wordPoisoned (0x30000000000 + 8 * i) = true
abbrev whyOf (s : State) : Nat := recordWhy s 0 0x30000000000 ((List.range 16).map fun i => s.word (0x30000000000 + 8 * i))

theorem witness_LaunchesDecided_class :
    (∀ q < 64, (tabGet (State.reset.module 0).queues q {}).records = []) ∧
    (let s := { State.reset with modules := [(0, { decisions := 6, queues := [(31, { records := [0x30000000000] })] })] };
      (s.module 0).decisions % 8 ≠ 7 ∧ (∃ q, q / 16 = 1 ∧ (tabGet (s.module 0).queues q {}).records ≠ []) ∧
      ∀ q, q / 16 < 1 → (tabGet (s.module 0).queues q {}).records = []) := by
  refine ⟨by decide +kernel, by decide +kernel, ⟨31, by decide, by decide +kernel⟩, fun q hq => ?_⟩
  have h : q ≠ 31 := by omega
  simp [State.module, tabGet, tabFind, h]

abbrev RefusedAs (s : State) (why : Nat) : Prop := Decides s ∧ ¬Runs s ∧ ¬Poisoned s ∧ whyOf s = why

/-- The record that stands in memory, and where its levels are placed. -/
abbrev recordOf (s : State) : List Word := (List.range 16).map fun i => s.word (0x30000000000 + 8 * i)
def placedOf (s : State) : Option (List (List Span)) :=
  placeAll s 0 ((levelWords (recordOf s)).filter fun e => !levelIsElement e) [placeRoot 0 (levelDomain ((levelWords (recordOf s)).headD 0)) none]

/-- What is read for that record of one core, its only instance, and the part that module 0 carries. -/
def readsOne : Launch := { record := aRecord 0 0x208 oneCore 0 ++ List.replicate 7 0#64, base := 0x20000000001#64, asid := 5#64 }
def oneUnit : List (List Span) := [[{ index := [0], lo := 0, n := 14 }]]
def onePart (origin queue : Nat) : Launch := { readsOne with queue := queue, origin := origin, threads := [(0, [0])], cores := [0] }

theorem witness_LaunchesDecided_refused :
    (∀ ring ∈ [0#64, 0x20000000000#64], Decides (deciding (aRecord 0 0x208 oneCore 0) ring [(0x30000000000, {})] []) ∧
      Runs (deciding (aRecord 0 0x208 oneCore 0) ring [(0x30000000000, {})] [])) ∧
    (Decides (deciding (aRecord 0 0x208 oneCore (2 ^ 60)) 0 [] []) ∧ Runs (deciding (aRecord 0 0x208 oneCore (2 ^ 60)) 0 [] [])) ∧
    (Decides (deciding (aRecord 0 0x208 oneCore 0) 0 [] [0xC00000001E]) ∧ ¬Runs (deciding (aRecord 0 0x208 oneCore 0) 0 [] [0xC00000001E]) ∧
      Poisoned (deciding (aRecord 0 0x208 oneCore 0) 0 [] [0xC00000001E])) ∧
    RefusedAs (deciding (aRecord 8 0x208 oneCore 0) 0 [] []) 5 ∧ RefusedAs (deciding (aRecord 0 0x209 oneCore 0) 0 [] []) 1 ∧
    RefusedAs (deciding (aRecord 0 0x208 0 0) 0 [] []) 2 ∧ RefusedAs (deciding (aRecord 0 0x208 manyModules 0) 0 [] []) 0 ∧
    placedOf (deciding (aRecord 0 0x208 manyModules 0) 0 [] []) = none := by
  refine ⟨?_, ⟨by decide +kernel, by decide +kernel⟩, ⟨by decide +kernel, by decide +kernel, by decide +kernel⟩, by decide +kernel, by decide +kernel,
    by decide +kernel, by decide +kernel, by decide +kernel⟩
  simp only [List.mem_cons, List.not_mem_nil, or_false]
  rintro ring (rfl | rfl) <;> exact ⟨by decide +kernel, by decide +kernel⟩

/-- The record of one core is taken; with ZONES that no memory holds it is refused with WHY 5. -/
theorem witness_LaunchesDecided_taken :
    (let s := deciding (aRecord 0 0x208 oneCore 0) 0 [] []
    Decides s ∧ ¬Runs s ∧ ¬Poisoned s ∧ whyOf s = 0 ∧ PlainLevels (recordOf s) ∧
      readLaunch s (.unit (2 ^ 40 + 0)) 0 0x30000000000 (recordOf s) = .inr (0, readsOne) ∧ placedOf s = some oneUnit ∧
      ((oneUnit.getLast?.getD []).flatMap fun x => spanModules x.lo x.n).foldl setIns [] = [0] ∧
      ∃ u, reservePart 0x30000000000 (partOf { readsOne with queue := 63, origin := 0, parent := 0, modules := [0], awaiting := [0], homes := [] }
        (levelWords (recordOf s)) oneUnit 0) (addContexts ((contextLevels (recordOf s)).flatMap (contextsOf 0x30000000000 readsOne oneUnit)) s) = (0, u)) ∧
    (let s := deciding ((aRecord 0 0x208 oneCore 0).set 4 0xC0000000000#64) 0 [] []
    RefusedAs s 0 ∧ (match readLaunch s (.unit (2 ^ 40 + 0)) 0 0x30000000000 (recordOf s) with
      | .inr (why, _) => why == 5
      | .inl _ => false) = true) := by
  refine ⟨⟨by decide +kernel, by decide +kernel, by decide +kernel, by decide +kernel, by unfold PlainLevels; decide +kernel, by decide +kernel,
    by decide +kernel, by decide +kernel, ?_⟩, by decide +kernel, by decide +kernel⟩
  exact reserved_of (by decide +kernel)

/-- Four units, of which two are taken one stride apart from unit 3 on; and the two lowest free ones. -/
theorem witness_LaunchesDecided_picked :
    pickUnits 1 4 2 3 (fun _ => true) = some [3, 1] ∧ pickUnits 0 4 2 0 (fun j => j != 1) = some [0, 2] := by decide +kernel

theorem witness_LaunchesDecided_part : (∀ u ∈ oneUnit.getLast?.getD [], u.n ≠ 0) ∧
    MemInv (deciding [] 0 [] []) ∧ ∃ u, reservePart 0x30000000000 (onePart 0 63) (deciding [] 0 [] []) = (0, u) :=
  ⟨by decide +kernel, by decide +kernel, reserved_of (by decide +kernel)⟩

theorem witness_LaunchesDecided_records :
    (∀ c ∈ [2 ^ 3, 2 ^ 23, 2 ^ 25, 2 ^ 31, 2 ^ 36, 2 ^ 47], RecordMalformed (aRecord c 0x208 oneCore 0)) ∧
    RecordMalformed ((aRecord 0 0x208 oneCore 0).set 6 0x1000000000000#64) ∧
    (∀ c ∈ [7, 2 ^ 24, 2 ^ 32, 2 ^ 48], ¬RecordMalformed (aRecord c 0x209 oneCore 0)) ∧
    ¬PartitionGood 0x209 ∧ ¬PartitionGood 0x1208 ∧ ¬PartitionGood 0x20208 ∧ ¬PartitionGood 0x200000208 ∧ PartitionGood 0x208 ∧
      PartitionGood 0x420211008 := by
  unfold RecordMalformed PartitionGood
  dsimp only
  refine ⟨by decide +kernel, by decide +kernel, by decide +kernel, ?_, ?_, ?_, ?_, ⟨by decide, by decide, by decide, ⟨1, by decide⟩, ⟨0, by decide⟩, by decide⟩,
    ⟨by decide, by decide, by decide, ⟨8, by decide⟩, ⟨8, by decide⟩, by decide⟩⟩ <;>
  · rintro ⟨-, -, _, ⟨_, _, _⟩, ⟨_, _, _⟩, -, _, -⟩
    omega

/-! ### Launches of two modules -/

/-- Module 0, which runs or not, with that message; module 1 runs, and each has a path to the other. -/
def joined (boot : Boot) (m : Msg) (launches : Tab Launch) : State :=
  { State.reset with
    modules := [(0, { populated := true, boot := boot, paths := [(4, pathOver 0)] }),
                (1, { populated := true, boot := .running, paths := [(0, pathOver 30)] })]
    mem := memAt 0x27FFF000000 [0x30000000000#64, 0x20000000001#64, 5#64]
    net := [(1, m)], nextId := 2, launches := launches }

/-- The record of module 1 and its bytes as they travel. -/
def farRecord : Nat := 0x1030000000000
def recordBytes (level : Nat) : List Byte :=
  ((aRecord 0 0x208 level 0) ++ List.replicate 7 0#64).flatMap fun w => (List.range 8).map fun i => w.extractLsb' (8 * i) 8

def reserving (level : Nat) : Msg := .reserve farRecord 0 [] [(0, [0])] [0] [] (recordBytes level)
def asked (level : Nat) (launches : Tab Launch) : State := joined .running (reserving level) launches

def written (level : Nat) : State := writeMem (unitWriter 0) 0x30000000000 (recordBytes level) (asked level [])

theorem witness_LaunchesRun_reserve :
    (let s := joined .running (.reserve 0x30000000000 2 [] [] [] [] []) [(0x30000000000, { awaiting := [1, 2] })];
      MemInv s ∧ tabFind s.net 1 = some (.reserve 0x30000000000 2 [] [] [] [] []) ∧ (s.module 2).populated = false ∧
      tabFind s.launches 0x30000000000 = some { awaiting := [1, 2] } ∧ 2 ∈ [1, 2] ∧ ∃ x ∈ [1, 2], x ≠ 2) ∧
    (let s := joined (.failed 5) (reserving oneCore) []; MemInv s ∧ tabFind s.net 1 = some (reserving oneCore) ∧ (s.module 0).populated = true ∧
      arrives s 1 0 = false) ∧
    (let s := asked oneCore [(partAt farRecord 0, {})];
      MemInv s ∧ tabFind s.net 1 = some (reserving oneCore) ∧ arrives s 1 0 = true ∧ (s.module 0).boot = .running ∧
      tabFind s.launches (partAt farRecord 0) ≠ none) ∧
    (∀ level ∈ [oneCore, 0], let s := asked level [];
      MemInv s ∧ tabFind s.net 1 = some (reserving level) ∧ arrives s 1 0 = true ∧
      (s.module 0).boot = .running ∧ tabFind s.launches (partAt farRecord 0) = none ∧ s.waits = [] ∧ s.words = []) ∧
    whyOf (written 0) = 2 ∧ whyOf (written oneCore) = 0 ∧
    readLaunch (written oneCore) (.msg 1) 0 0x30000000000 (recordOf (written oneCore)) = .inr (0, readsOne) ∧
    (reservePart (partAt farRecord 0) { readsOne with queue := 64, origin := 1, homes := [], threads := [(0, [0])], cores := [0], nest := [] }
      (written oneCore)).1 = 0 := by
  decide +kernel

theorem witness_LaunchesRun_answer :
    (∀ why ∈ [0, 4], ∀ l ∈ [({ awaiting := [1, 2] } : Launch), { awaiting := [1], modules := [0, 1], record := aRecord 0 0x208 oneCore 0 },
        { awaiting := [1], refused := true, modules := [0, 1], queue := 64 }],
      let s := joined .running (.reserveAnswer 0x30000000000 1 why) [(0x30000000000, l)];
      MemInv s ∧ tabFind s.net 1 = some (.reserveAnswer 0x30000000000 1 why) ∧ tabFind s.launches 0x30000000000 = some l ∧ 1 ∈ l.awaiting ∧
        arrives s 1 0 = true ∧ NoRing s 0 l.queue ∧ s.waits = [] ∧ s.words = []) ∧
    (∀ l, Rising (joined .running (.reserveAnswer 0x30000000000 1 0) [(0x30000000000, l)]).launches) ∧
    (∀ e ∈ levelWords (aRecord 0 0x208 oneCore 0), levelNest e = false ∧ levelIsElement e = false) ∧
    arrives (joined (.failed 5) (.reserveAnswer 0x30000000000 1 0) []) 1 0 = false := by
  refine ⟨?_, fun l => by simp [joined, Rising], by decide +kernel, by decide +kernel⟩
  unfold NoRing
  decide +kernel

/-- The part of module 0 of that launch: two threads on core 0. -/
def myPart : Launch :=
  { origin := 1, record := aRecord 0 0x208 oneCore 0, threads := [(0, [0, 0]), (1, [0, 1])], cores := [0] }

theorem alone_of {s : State} {la : Nat} {l m : Launch} (hs : s.launches = [(la, m)]) (hp : l.parent = 0) (h0 : la ≠ 0) : Alone s la l := by
  refine ⟨hp, by rw [hs]; simp [tabFind, Ne.symm h0], ?_⟩
  rw [hs]
  intro p h _
  cases List.mem_singleton.mp h
  rfl

theorem witness_LaunchesRun_start :
    (let s := joined .running (.start farRecord 0 [0, 1] []) [(partAt farRecord 0, myPart)];
      MemInv s ∧ tabFind s.net 1 = some (.start farRecord 0 [0, 1] []) ∧ arrives s 1 0 = true ∧ (s.module 0).boot = .running ∧
      s.waits = [] ∧ s.words = [] ∧ myPart.nest = [] ∧ myPart.ended = 0 ∧ myPart.total = 0 ∧
      tabFind s.launches (partAt farRecord 0) = some myPart ∧ (0, [0, 0]) ∈ myPart.threads ∧ ∀ q ∈ myPart.threads, q.1 = 0 → q = (0, [0, 0])) ∧
    (let s := joined .running (.start farRecord 0 [0, 1] []) [(partAt farRecord 0, myPart)]; Alone s (partAt farRecord 0) myPart ∧ Rising s.launches) ∧
    PlainLevels myPart.record ∧
    tabFind (joined .running (.start farRecord 0 [0, 1] []) []).launches (partAt farRecord 0) = none ∧
    (∀ run, let s := joined .running (.release_ farRecord 0) [(partAt farRecord 0, { myPart with running := run })];
      tabFind s.net 1 = some (.release_ farRecord 0) ∧ arrives s 1 0 = true ∧ myPart.origin = farRecord / 2 ^ 48 % 2 ^ 13 ∧
      tabFind s.launches (partAt farRecord 0) = some { myPart with running := run }) ∧
    ∀ l, Rising (joined .running (.release_ farRecord 0) [(partAt farRecord 0, l)]).launches := by
  refine ⟨by decide +kernel, ⟨alone_of rfl rfl (by decide), by simp [joined, Rising]⟩, by unfold PlainLevels; decide +kernel, by decide +kernel, by decide +kernel, fun l => by simp [joined, Rising]⟩

/-- A report of one of two parts, and of the last. -/
theorem witness_LaunchesRun_ended :
    ∀ rep ∈ [[0, 1], [1]], ∀ killed, let l : Launch := { reports := rep, ended := 2 };
      let s := joined .running (.ended 0x30000000000 1 3 killed) [(0x30000000000, l)];
      MemInv s ∧ Rising s.launches ∧ Idle s ∧ tabFind s.net 1 = some (.ended 0x30000000000 1 3 killed) ∧
      arrives s 1 (0x30000000000 / 2 ^ 48 % 2 ^ 13) = true ∧ tabFind s.launches 0x30000000000 = some l ∧ Alone s 0x30000000000 l ∧
      NoRing s (0x30000000000 / 2 ^ 48 % 2 ^ 13) 0 ∧ 2 + 0 + 3 < 2 ^ 48 := by
  intro rep hr killed
  refine ⟨?_, by simp [joined, Rising], idle_reset ⟨rfl, rfl⟩, ?_, ?_, rfl, alone_of rfl rfl (by decide), rfl, by decide⟩ <;>
    (revert hr; simp only [List.mem_cons, List.not_mem_nil, or_false]; rintro (rfl | rfl) <;> cases killed <;> decide +kernel)

/-! ### The Parlour -/

theorem ok_of {α : Type} {x : Except BallEnd α} {a : α} (h : x.toOption = some a) : x = .ok a := by
  cases x <;> simp_all [Except.toOption]

def failure (x : Except BallEnd (List Nat)) : Option BallEnd :=
  match x with
  | .ok _ => none
  | .error e => some e

theorem error_of {x : Except BallEnd (List Nat)} {e : BallEnd} (h : failure x = some e) : x = .error e := by
  cases x <;> simp_all [failure]

/-- The graph of `graphed` on a module that runs, with that LCTRL, one entry in the run list, and these slots and words. -/
def parlour (ctrl : Nat) (w0 : Word) (graph : List Host.Cell) (d : List Word) (homes : List Nat) : State :=
  { translated { State.reset with mem := memAt 0x100005000 [w0] } { launch := 0x30000000000, desc := d, partition := 0x208#64 } graph with
    launches := [(0x30000000000, { desc := d, homes := homes, record := [BitVec.ofNat 64 ctrl, 0x1000#64], base := 0x20000000001#64, running := true
                                   colourTasks := if ctrl = 2 ^ 24 then [(0x100005000, 0)] else [] })]
    modules := [(0, { populated := true, boot := .running })] }

/-- What each clause assumes in common, and that entry 0 is the next task. -/
abbrev Dispatches (s : State) : Prop :=
  MemInv s ∧ (s.module 0).boot = .running ∧ (s.core 0).attempt = none ∧ (s.core 0).desc ≠ [] ∧ s.waits = [] ∧ s.words = [] ∧
    (s.launch (s.core 0).launch).killed = false
abbrev mayStart (s : State) (n : Nat) : Prop :=
  if (s.launch (s.core 0).launch).byColour then inPhase s (s.core 0).launch 0x100005000 n = true else tabFind (s.core 0).refused n = none

theorem free_worker {s : State} (h : (s.core 0).launch ≠ 0) (f : (s.slot 0).life = .free)
    (e : ∀ e ∈ levelWords (s.launch (s.core 0).launch).record, levelIsElement e = false) : FreeWorker s 0 0 :=
  ⟨h, rfl, by decide, ⟨f, fun ⟨x, hx, hy⟩ => by simp [e x hx] at hy⟩, fun _ _ hx => absurd hx (Nat.not_lt_zero _)⟩

theorem next_task {s : State} (cap : listCap s 0x100005000 = 1) (st : (readEntry s 0x100005000 0).st = 2) (may : mayStart s 0) :
    NextTask s (fabricNow s (0 / 8192)) 0x100005000 0 (readEntry s 0x100005000 0) (mayStart s) :=
  ⟨by omega, rfl, st, may, fun m hm _ _ => .inl (by omega)⟩

/-- Colour dispatch, and none. -/
theorem witness_ParlourDispatches_next :
    ∀ ctrl ∈ [0, 2 ^ 24], let s := parlour ctrl 0x4000000000000001#64 theGraph aDesc [0];
      Dispatches s ∧ FreeWorker s 0 0 ∧ coreList (s.core 0).desc 0 = 0x100005000 ∧
      NextTask s (fabricNow s (0 / 8192)) 0x100005000 0 (readEntry s 0x100005000 0) (mayStart s) ∧
      (s.launch (s.core 0).launch).byColour = decide (ctrl = 2 ^ 24) := by
  simp only [List.mem_cons, List.not_mem_nil, or_false]
  rintro ctrl (rfl | rfl) <;>
    exact ⟨by decide +kernel, free_worker (by decide +kernel) rfl (by decide +kernel), by decide +kernel,
      next_task (by decide +kernel) (by decide +kernel) (by decide +kernel), by decide +kernel⟩

/-- 257 rising ids, two bytes each that are not 0, as columns from 0x7000 of the own pail of core 0 on. -/
def colId (j : Nat) : Nat := 1 + j % 255 + 256 * (1 + j / 255)

def columns : Nat → Nat → List Host.Cell
  | 0, _ => []
  | n + 1, j => (0x100007000 + 4 * j, BitVec.ofNat 8 (1 + j % 255)) :: (0x100007001 + 4 * j, BitVec.ofNat 8 (1 + j / 255)) :: columns n (j + 1)

theorem columns_above (n : Nat) : ∀ j a, a < 0x100007000 + 4 * j → memGet (columns n j) a = 0#8 := by
  cases n with
  | zero => exact fun _ _ _ => rfl
  | succ n => exact fun j a h => by simp only [columns, memGet]; rw [if_neg (by omega), if_pos h]

theorem columns_get (n : Nat) : ∀ j i, j ≤ i → i < j + n →
    memGet (columns n j) (0x100007000 + 4 * i) = BitVec.ofNat 8 (1 + i % 255) ∧
    memGet (columns n j) (0x100007000 + 4 * i + 1) = BitVec.ofNat 8 (1 + i / 255) ∧
    memGet (columns n j) (0x100007000 + 4 * i + 1 + 1) = 0#8 ∧ memGet (columns n j) (0x100007000 + 4 * i + 1 + 1 + 1) = 0#8 := by
  induction n with
  | zero => intro j i h g; omega
  | succ n ih =>
    intro j i h g
    simp only [columns, memGet]
    obtain rfl | hi := Nat.eq_or_lt_of_le h
    · refine ⟨by rw [if_pos rfl], by rw [if_neg (by omega), if_neg (by omega), if_pos (by omega)], ?_, ?_⟩ <;>
        rw [if_neg (by omega), if_neg (by omega), if_neg (by omega), if_neg (by omega)] <;> exact columns_above n _ _ (by omega)
    · obtain ⟨h0, h1, h2, h3⟩ := ih (j + 1) i hi (by omega)
      refine ⟨?_, ?_, ?_, ?_⟩ <;> rw [if_neg (by omega), if_neg (by omega), if_neg (by omega), if_neg (by omega)] <;> assumption

/-- Element 0 has those neighbours. -/
def wide : State :=
  { parlour (2 ^ 32) 0x4000000000000000#64 [] (((aDesc.set 0 0x100001000#64).set 1 0x6000#64).set 2 0x7000#64) [0] with
    mem := memAt 0x100005000 [0x4000000000000000#64] ++ memAt 0x100006000 [0x10100000000#64] ++ columns 257 0 }

theorem wide_byte (a : Nat) (ha : 0x100007000 ≤ a) : wide.byte a = memGet (columns 257 0) a := by
  show memGet ((0x100005007, 0x40#8) :: (0x100006004, 1#8) :: (0x100006005, 1#8) :: columns 257 0) a = _
  simp only [memGet]
  rw [if_neg (by omega), if_neg (by omega), if_neg (by omega), if_neg (by omega), if_neg (by omega), if_neg (by omega)]

theorem wide_at : ∀ j < 257, checkWalk wide { core := 0, sys := true, va := 0x7000 + 4 * j, size := 4, use := .load } = .at (0x100007000 + 4 * j) := by
  decide +kernel

theorem wide_column (j : Nat) (h : j < 257) : ballRead wide 0 0 (0x7000 + 4 * j) = .ok (colId j) := by
  obtain ⟨h0, h1, h2, h3⟩ := columns_get 257 0 j (Nat.zero_le _) (by omega)
  have hr : wide.readN (0x100007000 + 4 * j) 4 = colId j := by
    simp only [State.readN, State.bytesAt, leNat]
    rw [wide_byte _ (by omega), wide_byte _ (by omega), wide_byte _ (by omega), wide_byte _ (by omega), h0, h1, h2, h3]
    simp only [BitVec.toNat_ofNat, colId]
    omega
  unfold ballRead agentRead
  rw [wide_at j h]
  exact congrArg Except.ok hr

theorem wide_ids (n : Nat) : ∀ j, j + n = 257 → ∀ last, (∀ l, last = some l → l < colId j) →
    ballIds wide 0 (wide.core 0).desc 0 257 n j last = .ok ((List.range' j n).map colId) := by
  induction n with
  | zero => exact fun _ _ _ _ => rfl
  | succ n ih =>
    intro j hj last hl
    have hc : colIdx (wide.core 0).desc + 4 * j = 0x7000 + 4 * j := rfl
    have he : nelem (wide.core 0).desc = 0x1000 := rfl
    have hz : 0 < colId j ∧ colId j < 0x1000 := by simp only [colId]; omega
    have hn : ∀ l, some (colId j) = some l → l < colId (j + 1) := fun l h => by cases h; simp only [colId]; omega
    unfold ballIds
    rw [if_neg (by omega), hc, wide_column j (by omega)]
    simp only [ih (j + 1) (by omega) (some (colId j)) hn, he]
    rw [if_neg]
    · rw [List.range'_succ]
      rfl
    · cases last with
      | none => simp; omega
      | some l => simp [hl l rfl]; omega

theorem setIns_last (v : Nat) : ∀ l : List Nat, (∀ x ∈ l, x < v) → setIns l v = l ++ [v]
  | [], _ => rfl
  | k :: t, h => by
    have := h k (.head _)
    rw [setIns, if_neg (by omega), if_neg (by omega), setIns_last v t fun x hx => h x (.tail _ hx)]
    rfl

theorem wide_ball (n : Nat) : ∀ j l, (∀ x ∈ l, x < colId j) → ((List.range' j n).map colId).foldl setIns l = l ++ (List.range' j n).map colId := by
  induction n with
  | zero => intro j l _; simp
  | succ n ih =>
    intro j l h
    rw [List.range'_succ, List.map_cons, List.foldl_cons, setIns_last _ l h, ih]
    · simp
    · have hs : colId j < colId (j + 1) := by simp only [colId]; omega
      intro x hx
      rcases List.mem_append.1 hx with hx | hx
      · exact Nat.lt_trans (h x hx) hs
      · exact List.mem_singleton.1 hx ▸ hs

theorem wide_large : 256 < ((((List.range' 0 257).map colId).filter fun v => !setHas [0] v).foldl setIns [0]).length := by
  rw [List.filter_eq_self.2, wide_ball 257 0 [0] (by simp [colId]), List.length_append, List.length_map, List.length_range']
  · decide
  · intro v hv
    obtain ⟨j, -, rfl⟩ := List.mem_map.1 hv
    simp [setHas, colId]

theorem grow_large {s : State} {c e : Nat} {d : List Word} {vs : List Nat} (h : neighbours s c d e = .ok vs)
    (hl : 256 < ((vs.filter fun v => !setHas [e] v).foldl setIns [e]).length) : ballFrom s c d 1 [e] [e] = .error .large := by
  unfold ballFrom growBall
  rw [h]
  simp only []
  rw [if_pos hl]

/-- Its ball is too large. -/
theorem witness_ParlourDispatches_large :
    MemInv wide ∧ (wide.module 0).boot = .running ∧ (wide.core 0).attempt = none ∧ (wide.core 0).desc ≠ [] ∧
      (wide.launch (wide.core 0).launch).radius = 1 ∧ FreeWorker wide 0 0 ∧ coreList (wide.core 0).desc 0 = 0x100005000 ∧
      NextTask wide (fabricNow wide (0 / 8192)) 0x100005000 0 (readEntry wide 0x100005000 0) (mayStart wide) ∧
      ballFrom wide 0 (wide.core 0).desc 1 [0] [0] = .error .large := by
  refine ⟨by decide +kernel, rfl, rfl, by decide +kernel, by decide +kernel, free_worker (by decide +kernel) rfl (by decide +kernel), by decide +kernel,
    next_task (by decide +kernel) (by decide +kernel) (by decide +kernel), ?_⟩
  have h : neighbours wide 0 (wide.core 0).desc 0 = .ok ((List.range' 0 257).map colId) := by
    have lo : ballRead wide 0 0 (rowPtr (wide.core 0).desc + 4 * 0) = .ok 0 := ok_of (by decide +kernel)
    have hi : ballRead wide 0 0 (rowPtr (wide.core 0).desc + 4 * 0 + 4) = .ok 257 := ok_of (by decide +kernel)
    unfold neighbours
    rw [lo, hi]
    simp only []
    rw [if_neg (by decide)]
    exact wide_ids 257 0 rfl none (fun _ h => nomatch h)
  exact grow_large h wide_large

def ownGraph : List Host.Cell := memAt 0x10000000000 [0x100000000#64, 2#64, 0#64]

/-- A ball of one; a list that fails, of an element homed here and of one homed on module 1. -/
theorem witness_ParlourDispatches_balls :
    (∃ b, ballFrom (parlour 0 0x4000000000000001#64 theGraph aDesc [0]) 0 aDesc 0 [1] [1] = .ok b) ∧
    (∀ h ∈ [0, 8192], let s := parlour (2 ^ 32) 0x4000000000000000#64 ownGraph aDesc [h];
      Dispatches s ∧ (s.launch (s.core 0).launch).radius = 1 ∧ ballFrom s 0 aDesc 1 [0] [0] = .error (.fails 0 2) ∧
      ∀ pa, stallAddr (s.launch (s.core 0).launch) 0 = some pa → pa + 8 ≤ 0x100005000 + 32 * 0 ∨ 0x100005000 + 32 * 0 + 24 ≤ pa) := by
  refine ⟨⟨_, rfl⟩, ?_⟩
  simp only [List.mem_cons, List.not_mem_nil, or_false]
  rintro h (rfl | rfl) <;> refine ⟨by decide +kernel, by decide +kernel, error_of (by decide +kernel), fun pa hp => ?_⟩
  · cases hp.symm.trans (show _ = some 0x100004000 by decide +kernel)
    decide
  · cases hp.symm.trans (show _ = some 0x1000100004000 by decide +kernel)
    decide

/-- Core 0 without a graph, of a cluster with that list. -/
def unbound (l : Tab ListEntry) : State :=
  { State.reset with modules := [(0, { populated := true, boot := .running })], cores := [(0, { launch := 0x30000000000 })]
                     clusters := [(0, { list := l })] }

/-- No bound task: the list of the cluster has one for the launch, or none. -/
theorem witness_ParlourDispatches_cluster :
    (∀ l, MemInv (unbound l) ∧ (unbound l).core 0 = { launch := 0x30000000000 } ∧ ((unbound l).module 0).boot = .running ∧ FreeWorker (unbound l) 0 0) ∧
    (let s := unbound [(255, { w0 := 0x4000000000000000#64, launch := 0x30000000000 })];
      NextTask s 0 (2 ^ 80 + 0 / 16) 255 { w0 := 0x4000000000000000#64, launch := 0x30000000000 }
        (fun m => (readEntry s (2 ^ 80 + 0 / 16) m).launch = 0x30000000000)) ∧
    ∀ n < 256, (readEntry (unbound [(255, { w0 := 0x4000000000000000#64, launch := 5 })]) (2 ^ 80 + 0 / 16) n).st = 2 →
      (readEntry (unbound [(255, { w0 := 0x4000000000000000#64, launch := 5 })]) (2 ^ 80 + 0 / 16) n).launch ≠ 0x30000000000 := by
  have h : ∀ m < 256, (readEntry (unbound [(255, { w0 := 0x4000000000000000#64, launch := 0x30000000000 })]) (2 ^ 80 + 0 / 16) m).st = 2 → m = 255 := by
    decide +kernel
  exact ⟨fun l => ⟨(by show MemInv State.reset; decide +kernel), rfl, rfl, free_worker (s := unbound l) (by show (0x30000000000 : Nat) ≠ 0; decide) rfl (by show ∀ e ∈ levelWords [], levelIsElement e = false; decide +kernel)⟩,
    ⟨by decide +kernel, by decide +kernel, by decide +kernel, by decide +kernel, fun m hm hs _ => .inl (h m hm hs)⟩, by decide +kernel⟩

theorem witness_ParlourDispatches_rest :
    (older 65540 (65540 - 16384) (65540 - 16385) = false ∧ older 65540 0 65540 = true ∧ older 65540 0 (65540 - 16383) = true) ∧
    (let s := parlour 0 0x4000000000000001#64 theGraph aDesc [0];
      ({ s with launches := [(0x30000000000, { desc := aDesc, killed := true })] }.launch (s.core 0).launch).killed = true) ∧
    (ballFrom (parlour 0 0 theGraph aDesc [0]) 0 aDesc 0 [1] [1] = .ok [1] ∧ ballFrom (parlour 0 0 theGraph aDesc [0]) 0 aDesc 1 [1] [1] = .ok [0, 1]) ∧
    (∀ now ∈ [3999, 4000], let s := { State.reset with cores := [(0, { refused := [(0, 4000)] })], now := now };
      tabFind (s.core 0).refused 0 = some 4000) ∧ Rising ({ State.reset with cores := [(0, { refused := [(0, 4000)] })] }.core 0).refused :=
  ⟨by decide, rfl, ⟨rfl, ok_of (by decide +kernel)⟩, by decide +kernel, by simp [State.core, tabGet, tabFind, Rising]⟩

/-! ### Stall words -/

/-- Each state of a stall word, its shared count at the ends of its range, and a page older, younger or none. -/
theorem witness_HoldsTaken_words :
    (∀ st ∈ [0, 1, 2, 3], ∀ count ∈ [0, 1, 16382, 16383], ∀ page ∈ [0, 50, 70],
      stallWord st count page 7 < 2 ^ 64 ∧ stallParts (stallWord st count page 7) = (st, count, page, 7)) ∧
    older 100 50 60 = true ∧ older 100 70 60 = false := by
  decide +kernel

/-- Core 0 asks for element `e` of the ball 0, 1, of which `g` has been granted; the elements are homed on core `h`; its slots, and the stall word of
element `e`. -/
def asking (m : Msg) (e : Nat) (g : List Nat) (h : Nat) (slots : Tab Slot) (sw : Word) : State :=
  { State.reset with
    mem := memAt (h / 8192 * 2 ^ 48 + 0x100004000 + 8 * e) [sw]
    cores := [(0, { launch := 0x30000000000, desc := aDesc, partition := 0x208#64, attempt := some { entry := 0, ball := [0, 1], granted := g, waiting := [e] } })]
    launches := [(0x30000000000, { desc := aDesc, homes := [h] })], slots := slots, net := [(1, m)], nextId := 2
    modules := [(0, { populated := true, boot := .running, paths := [(4, pathOver 0)] }), (1, { populated := true, boot := .running })] }

/-- The request of core 0 for element `e`. -/
def request (e : Nat) (x : StallOp) : Msg := .stall 0 0 60 9 [(e, x)]

abbrev Asks (s : State) (e : Nat) (x : StallOp) (g : List Nat) (pa : Nat) : Prop :=
  MemInv s ∧ tabFind s.net 1 = some (request e x) ∧ (s.core 0).attempt = some { entry := 0, ball := [0, 1], granted := g, waiting := [e] } ∧
    stallAddr (s.launch (s.core 0).launch) e = some pa ∧ arrives s 1 (pa / 2 ^ 48) = true

def busy : Tab Slot := (List.range 14).map fun k => (k, { life := .fetch })

theorem busy_none {s : State} (h : ∀ k < 14, (s.slot k).life ≠ .free) : ∀ k, ¬FreeWorker s 0 k :=
  fun k ⟨_, h0, h1, f, _⟩ => h k (by omega) f.1

/-- Another module's element; a refusal of the first; a grant of the first, and of the last with a free worker slot or without. -/
theorem witness_HoldsTaken_requests :
    (∀ x ∈ [StallOp.takeX, .takeS], Asks (asking (request 0 x) 0 [] 8192 [] 0) 0 x [] 0x1000100004000 ∧
      ((asking (request 0 x) 0 [] 8192 [] 0).core (coreOfPool 0x1000100004000)).lent.length < 256) ∧
    (Asks (asking (request 0 .takeX) 0 [] 0 [] 0x8000000000000005#64) 0 .takeX [] 0x100004000 ∧
      (let s := asking (request 0 .takeX) 0 [] 0 [] 0x8000000000000005#64;
        swTakeX (fabricNow s 0) 60 (ageTime s 0 (0x100004000 / 8) (0x8000000000000005 / 2 ^ 32 % 2 ^ 16)) 9 0x8000000000000005).1 = false) ∧
    (∀ x ∈ [StallOp.takeX, .takeS], Asks (asking (request 0 x) 0 [] 0 [] 0) 0 x [] 0x100004000 ∧ ([0, 1] : List Nat) = [] ++ 0 :: [1]) ∧
    (∀ slots ∈ [[], busy], Asks (asking (request 1 .takeS) 1 [0] 0 slots 0) 1 .takeS [0] 0x100004008 ∧ ([0, 1] : List Nat) = [0] ++ 1 :: []) ∧
    (swTakeX 0 60 0 9 0).1 = true ∧ (swTakeS 0 60 0 0).1 = true ∧ 0x100004008 + 8 ≤ 0x100005000 ∧
    FreeWorker (asking (request 1 .takeS) 1 [0] 0 [] 0) 0 0 ∧ ∀ k, ¬FreeWorker (asking (request 1 .takeS) 1 [0] 0 busy 0) 0 k :=
  ⟨by decide +kernel, by decide +kernel, by decide +kernel, by decide +kernel, by decide +kernel, by decide +kernel, by decide,
    free_worker (by decide +kernel) rfl (by decide +kernel), busy_none (by decide +kernel)⟩

/-- No route; an attempt that waits for nothing. -/
theorem witness_HoldsTaken_dropped :
    (let s := { asking (request 0 .takeX) 0 [] 8192 [] 0 with modules := [(0, { populated := true, boot := .running })] };
      tabFind s.net 1 = some (request 0 .takeX) ∧ stallAddr (s.launch (s.core 0).launch) 0 = some 0x1000100004000 ∧
      arrives s 1 (0x1000100004000 / 2 ^ 48) = false) ∧
    (let s := asking (request 0 .takeX) 1 [] 0 [] 0;
      tabFind s.net 1 = some (request 0 .takeX) ∧ arrives s 1 (0x100004000 / 2 ^ 48) = true ∧
      ∀ a, (s.core 0).attempt = some a → a.entry ≠ 0 ∨ a.waiting ≠ [0]) :=
  ⟨by decide +kernel, by decide +kernel, by decide +kernel, fun a h => by cases (h : some _ = some a); exact .inr (by decide)⟩

/-- The answer to the last request, and to the first. -/
theorem witness_HoldsTaken_answers :
    (∀ g ∈ [[], [0]], ∀ refused, let s := asking (.stallAnswer 0 0 [1] refused) 1 g 8192 [] 0;
      MemInv s ∧ tabFind s.net 1 = some (.stallAnswer 0 0 [1] refused) ∧ arrives s 1 (0 / 8192) = true ∧
      (s.core 0).attempt = some { entry := 0, ball := [0, 1], granted := g, waiting := [1] }) ∧
    (let s := asking (.stallAnswer 0 0 [0] false) 0 [] 8192 [] 0;
      MemInv s ∧ tabFind s.net 1 = some (.stallAnswer 0 0 [0] false) ∧ ([0, 1] : List Nat) = [] ++ [0] ++ [1]) ∧
    FreeWorker (asking (.stallAnswer 0 0 [1] false) 1 [0] 8192 [] 0) 0 0 ∧
    (let s := asking (.stallAnswer 0 7 [1] false) 1 [] 8192 [] 0;
      tabFind s.net 1 = some (.stallAnswer 0 7 [1] false) ∧ ∀ a, (s.core 0).attempt = some a → a.entry ≠ 7) :=
  ⟨by decide +kernel, by decide +kernel, free_worker (by decide +kernel) rfl (by decide +kernel), by decide +kernel,
    fun a h => by cases (h : some _ = some a); decide⟩

/-- Module 1 gives back a shared hold on the stall word of element 0 of core 0: one that it was granted, or not. -/
theorem witness_HoldsTaken_given :
    ∀ lent ∈ [[(0x100004000, 1)], []], let s : State := { asking (.drops 8192 0 [0x100004000]) 0 [] 0 [] 0x4004000000000000#64 with
        cores := [(0, { lent := lent })] };
      MemInv s ∧ tabFind s.net 1 = some (.drops 8192 0 [0x100004000]) ∧ arrives s 1 0 = true ∧
        ((0x100004000, 8192 / 8192) ∈ (s.core (coreOfPool 0x100004000)).lent ↔ lent ≠ []) := by
  decide +kernel

/-- The end of a task that holds its own element, or another. -/
theorem witness_HoldsTaken_release :
    (∀ v ∈ [0, 1], let x : TaskInfo := { list := 0x100005000, entry := 0, handle := 0, element := some 0, held := [v] };
      let s := { asking (request 0 .takeX) v [] 0 [(0, { launch := 0x30000000000, life := .ending none, task := some x })] 0x8000000000000000#64 with net := [] };
      MemInv s ∧ (s.slot 0).task = some x ∧ x.held = [v] ∧ v < 2 ^ 32 - 1 ∧
      stallAddr (s.launch (s.slot 0).launch) v = some (0x100004000 + 8 * v)) ∧
    MayEnd { launch := 0x30000000000, life := .ending none } none ∧ (State.reset.slot 0).task = none ∧
    ∀ r, ¬MayEnd { task := some { list := 0, entry := 0, handle := 0 } } r :=
  ⟨by decide +kernel, ⟨rfl, rfl, rfl, rfl, rfl, rfl, rfl, rfl, rfl⟩, rfl, fun _ h => nomatch h.1⟩

/-! ### Colours, timeouts, ends -/

def colourLaunch (colour : Nat) (tasks : List (Nat × Nat)) : Launch :=
  { desc := aDesc, homes := [0], record := [0x1000000#64, 0x1000#64], base := 0x20000000001#64, running := true, colour := colour, colourTasks := tasks }

/-- A task of an element of colour 0, the latest phase of that colour less 1; a phase under way; no task. -/
theorem witness_ColoursAndTimeouts_colour :
    (∀ c ∈ [0, 1, 256], let s := { graphed 0x4000000000000001#64 with launches := [(0x30000000000, colourLaunch c [])] };
      let l := colourLaunch c []; let i := (256 - c) % 256;
      tabFind s.launches 0x30000000000 = some l ∧ l.origin = 0x30000000000 / 2 ^ 48 ∧ l.running = true ∧ l.byColour = true ∧ l.colourTasks = [] ∧
      colouredTasks s 0x30000000000 = some [((0x100005000, 0), 0)] ∧ i < 256 ∧ 0 = (l.colour + i) % 256 ∧ ∀ n < i, 0 ≠ (l.colour + n) % 256) ∧
    (colourLaunch 1 [(0x100005000, 0)]).colourTasks ≠ [] ∧
    colouredTasks { graphed 0 with launches := [(0x30000000000, colourLaunch 0 [])] } 0x30000000000 = some [] := by
  decide +kernel

/-- A task in a slot with that DEADLINE, from cycle 0 on. -/
def deadlined (word : Word) (now : Nat) (inst : Option Inst) : State :=
  { State.reset with
    slots := [(0, { life := .run, deadline := word, inst := inst, task := some { list := 0, entry := 0, handle := 0 } })], now := now }

/-- LIMIT 1 with a fallback block and without, at a boundary, in an instance that has completed and in another; one cycle less. -/
theorem witness_ColoursAndTimeouts_deadline :
    ((0x0001000000001000#64).toNat / 2 ^ 48 = 1 ∧ (0x0001000000000000#64).toNat / 2 ^ 48 = 1 ∧ 0 + 1 * 4000 ≤ 4000 ∧ ¬0 + 1 * 4000 ≤ 3999) ∧
    (∀ w now inst, ((deadlined w now inst).slot 0).deadline = w ∧ (deadlined w now inst).now = now ∧ ((deadlined w now inst).slot 0).life = .run ∧
      ((deadlined w now inst).slot 0).inst = inst ∧ ((deadlined w now inst).module (slotModule 0)).boot = .off ∧
      ((deadlined w now inst).slot 0).task = some { list := 0, entry := 0, handle := 0 }) ∧
    bare.complete = false ∧ { bare with exit := some (.done, 0) }.complete = true :=
  ⟨⟨rfl, rfl, by decide, by decide⟩, fun _ _ _ => ⟨rfl, rfl, rfl, rfl, rfl, rfl⟩, rfl, rfl⟩

def farAcc (committed : Bool) (st : AccSt) : Acc :=
  { id := 3, inst := 1, lsid := 0, node := 0, kind := .holding, ordered := false, op := .load 8 false, va := 0x10000000000, remote := some 1
    st := st, committed := committed }

/-- An access of module 1, which is not there; a message and a request for a stall word to it. -/
theorem witness_ColoursAndTimeouts_fabric :
    (∀ c, findAcc (withAcc (farAcc c .sent)) 3 = some (0, farAcc c .sent) ∧ (farAcc c .sent).remote = some 1 ∧ (farAcc c .sent).st = .sent ∧
      Silent (withAcc (farAcc c .sent)) (0 / 16) 1 (farAcc c .sent).sentAt (accStranded (withAcc (farAcc c .sent)) 0 3)) ∧
    (farAcc true .ready).st ≠ .sent ∧
    (findAcc (flying (.packet 0 8192 0 0 0 0 0 0#64 [])) 1 = none ∧ tabFind (flying (.packet 0 8192 0 0 0 0 0 0#64 [])).net 1 = some (.packet 0 8192 0 0 0 0 0 0#64 []) ∧
      Silent (flying (.packet 0 8192 0 0 0 0 0 0#64 [])) (0 / 16) (8192 / 8192) 0 (noRoute (flying (.packet 0 8192 0 0 0 0 0 0#64 [])) 1)) ∧
    (let s := { asking (request 0 .takeX) 0 [] 8192 [] 0 with modules := [(0, { populated := true, boot := .running })] };
      findAcc s 1 = none ∧ tabFind s.net 1 = some (request 0 .takeX) ∧ stallAddr (s.launch (s.core 0).launch) 0 = some 0x1000100004000 ∧
      0x1000100004000 / 2 ^ 48 ≠ 0 / 8192 ∧ (s.core 0).attempt = some { entry := 0, ball := [0, 1], waiting := [0] } ∧
      Silent s 0 (0x1000100004000 / 2 ^ 48) 0 (noRoute s 1)) :=
  ⟨fun c => ⟨by cases c <;> decide +kernel, rfl, rfl, .inl (by cases c <;> decide +kernel)⟩, by decide, ⟨by decide +kernel, by decide +kernel, .inl (by decide +kernel)⟩,
    ⟨by decide +kernel, by decide +kernel, by decide +kernel, by decide, rfl, .inl (by decide +kernel)⟩⟩

/-- FAB.TMO has its reset value of 3000 ms: the last cycle of it, and the next. -/
theorem witness_ColoursAndTimeouts_silent :
    let s (now : Nat) : State := { joined .running (.phaseRelease 0) [] with now := now }
    ¬Silent (s 11999999999) 0 1 0 false ∧ Silent (s 12000000000) 0 1 0 false ∧ Silent (s 11999999999) 0 1 0 true ∧
      noRoute { s 0 with routes := [(1, { core := 0, dst := 1, va := 0, ports := [] })] } 1 = true := by
  unfold Silent
  decide +kernel

/-- The DONE of a thread of a launch, of a child of slot 1, and of a thread in a barrier. -/
def ended (sl : Slot) (k : Nat) : State :=
  { State.reset with
    slots := [(k, { sl with life := .ending none })], launches := [(0x30000000000, {})]
    mem := memAt 0x10000000000 [0x0000000200000002#64] }

theorem witness_ThreadsEnd_threads :
    (∀ r, ¬MayEnd (State.reset.slot 0) r) ∧
    (∀ p ∈ [none, some 1], let s := ended { launch := 0x30000000000, parent := p } 0;
      MemInv s ∧ (s.slot 0).collPending = [] ∧ s.waits = [] ∧ s.words = [] ∧ (s.slot 0).task = none ∧ (s.slot 0).members = [] ∧
      (s.slot 0).parent = p ∧ systemSlot 0 = false ∧ tabFind s.launches (s.slot 0).launch = some {} ∧ 0 + 1 + 0 < 2 ^ 48) ∧
    (let s := ended { members := [{ addr := 0x10000000000 }] } 14;
      MemInv s ∧ (s.slot 14).task = none ∧ (s.slot 14).members = [{ addr := 0x10000000000 }] ∧ objectPoisoned s 0x10000000000 = false ∧
      systemSlot 14 = true ∧ (s.slot 14).parent = none) ∧
    MayEnd { life := .ending none } none ∧ MayEnd { life := .ending (some 9#64) } (some 9#64) :=
  ⟨(fun _ h => nomatch (h.1 : Life.free = .ending _)), by decide +kernel, by decide +kernel, ⟨rfl, rfl, rfl, rfl, rfl, rfl, rfl, rfl, rfl⟩, ⟨rfl, rfl, rfl, rfl, rfl, rfl, rfl, rfl, rfl⟩⟩

/-- The DONE or REPOST of a task of a core's list, and of a cluster's. -/
def endedTask (list : Nat) (r : Option Word) : State :=
  { graphed 0x6000000000000001#64 with
    slots := [(0, { life := .ending r, launch := 0x30000000000, task := some { list := list, entry := 0, handle := 0 } })]
    clusters := [(0, { list := [(0, { w0 := 0x6000000000000001#64, launch := 0x30000000000 })] })] }

abbrev EndsTask (list : Nat) (r : Option Word) : Prop :=
  MemInv (endedTask list r) ∧ ((endedTask list r).slot 0).collPending = [] ∧ (endedTask list r).waits = [] ∧ (endedTask list r).words = [] ∧
    ((endedTask list r).slot 0).task = some { list := list, entry := 0, handle := 0 } ∧ ((endedTask list r).slot 0).members = [] ∧
    ((endedTask list r).slot 0).parent = none ∧ systemSlot 0 = false ∧
    (2 ^ 80 ≤ list ∨ 0x30000000000 + 0x38 + 8 ≤ list + 32 * 0 ∨ list + 32 * 0 + 24 ≤ 0x30000000000 + 0x38)

theorem witness_ThreadsEnd_tasks :
    (EndsTask 0x100005000 none ∧ EndsTask 0x100005000 (some 9#64) ∧ EndsTask (2 ^ 80) none ∧ EndsTask (2 ^ 80) (some 9#64)) ∧
    (∀ list r, Rising ((endedTask list r).cluster 0).list) ∧ ∀ list r, MayEnd ((endedTask list r).slot 0) r :=
  ⟨by decide +kernel, fun _ _ => by simp [endedTask, State.cluster, tabGet, tabFind, Rising], fun _ _ => ⟨rfl, rfl, rfl, rfl, rfl, rfl, rfl, rfl, rfl⟩⟩

/-- Slot 0 of a core of a launch, with that action due, and the other core 1. -/
def leaving (a : Action) (slots : Tab Slot) (free : Nat) : State :=
  { State.reset with
    cores := [(0, { launch := free }), (1, { launch := 0x30000000000 })], slots := (0, { life := .fetch, launch := 0x30000000000, post := [(1, a)] }) :: slots }

theorem free_slot {s : State} {c k : Nat} (h : (s.core c).launch ≠ 0) (hk : k / 16 = c ∧ k % 16 < 14 ∧ (s.slot k).life = .free)
    (e : ∀ n < 16, c * 16 + n < k → (s.slot (c * 16 + n)).life ≠ .free) : FreeSlot s c k :=
  ⟨h, hk.1, hk.2.1, hk.2.2, fun x hx hl => by
    have := e (x % 16) (by omega) (by omega)
    rwa [show c * 16 + x % 16 = x by omega] at this⟩

theorem witness_ThreadsEnd_children :
    (let s := leaving (.spawn 0x2000 7) [] 0x30000000000;
      (s.slot 0).post = [(1, .spawn 0x2000 7)] ∧ (s.slot 0).accs = [] ∧ (s.slot 0).life ≠ .free ∧ (s.slot 0).life ≠ .killed ∧ FreeSlot s (0 / 16) 1) ∧
    (let s := leaving (.spawn 0x2000 7) [] 0; ∀ n, ¬FreeSlot s (0 / 16) n) ∧
    (∀ c ∈ [0, 1], ((leaving (.migr c) [] 0x30000000000).slot 0).post = [(1, .migr c)] ∧ ((leaving (.migr c) [] 0x30000000000).slot 0).accs = []) ∧
    (let s := leaving (.migr 1) [] 0x30000000000;
      (s.slot 0).copies = [] ∧ (s.slot 0).unretired = [] ∧ (s.slot 0).pending = [] ∧ (s.slot 0).record = none ∧ (s.slot 0).halt = .none ∧ FreeSlot s 1 16) :=
  ⟨⟨rfl, rfl, by decide +kernel, by decide +kernel, free_slot (by decide +kernel) (by decide +kernel) (by decide +kernel)⟩,
    fun _ h => h.1 (by decide +kernel), by decide +kernel, ⟨rfl, rfl, rfl, rfl, rfl, free_slot (by decide +kernel) (by decide +kernel) (by decide +kernel)⟩⟩

/-! ### Invariants -/

/-- At reset memory has its canonical form, and a step follows. -/
theorem witness_MemoryStaysCanonical : ∃ s t : State, MemInv s ∧ step s = .next t := ⟨State.reset, _, by decide +kernel, rfl⟩

/-- An ADD that fires, and a POST that reserves an entry. -/
theorem witness_InstancesWaitForCommit :
    (∃ (s t : State) (i : Instr), i.encode ≠ none ∧ exec i s = .next t ∧ (∀ p a b y, i ≠ .post p a b y) ∧ (∀ p a b c, i ≠ .postc p a b c) ∧
      ∀ j, (s.slot s.focus.slot).inst = some j → ∀ p ∈ j.actions, ∀ l n e b a y, p.2 ≠ .post l n e b a y) ∧
    ∃ (s t : State) (i : Instr), i.encode ≠ none ∧ exec i s = .next t ∧ (∃ p a b y, i = .post p a b y) ∧ NoTurns s ∧ MemInv s ∧
      EntryReserved s i 0x100005000 0 := by
  refine ⟨⟨live State.reset 0 bare (.add .always .none .none .w64) 1 2 0, _, .add .always .none .none .w64, by decide, rfl,
      (fun _ _ _ _ h => nomatch h), (fun _ _ _ _ h => nomatch h), fun j hj => ?_⟩,
    ⟨live (graphed 0) 0 bare (.post .always .none .none 0#2) 1 0 0, _, .post .always .none .none 0#2, by decide, rfl,
      ⟨_, _, _, _, rfl⟩, (fun _ h => nomatch h), by decide +kernel,
      ⟨_, rfl, .inr ⟨.inl ⟨_, _, _, _, rfl⟩, _, rfl, by decide +kernel, by decide +kernel⟩⟩⟩⟩
  have h : ((live State.reset 0 bare (.add .always .none .none .w64) 1 2 0).slot 0).inst = some (readyInst bare (.add .always .none .none .w64) 1 2 0) := rfl
  cases h.symm.trans hj
  exact fun _ h => nomatch h
end Sys2Proof.Tests
end

section
namespace Sys2Proof.Machine
open Sys2Proof.Safety

/-! ## The reset state -/

/-- At reset module 0 alone is listed. -/
theorem State.reset_module (m : Nat) : State.reset.module m = if m = 0 then { populated := true } else {} := by
  by_cases h : m = 0
  · subst h; rfl
  · simp [State.module, State.reset, tabGet, tabFind, h]

/-- The tile configurations read their reset value in every slot (R239). -/
theorem readControl_reset_tcfg (k : Nat) : ∀ i < 8, readControl State.reset k (0x10 + i) = some 0x17FF#64 := by
  intro i hi
  obtain rfl | rfl | rfl | rfl | rfl | rfl | rfl | rfl :
    i = 0 ∨ i = 1 ∨ i = 2 ∨ i = 3 ∨ i = 4 ∨ i = 5 ∨ i = 6 ∨ i = 7 := by omega
  all_goals rfl

/-- The watchpoints read as disarmed, their masks full, in every slot (R390). -/
theorem readControl_reset_watch (k : Nat) : ∀ i < 4, readControl State.reset k (0x50 + 2 * i) = some 0#64 ∧
    readControl State.reset k (0x51 + 2 * i) = some 0x0000FFFFFFFFFFF8#64 := by
  intro i hi
  obtain rfl | rfl | rfl | rfl : i = 0 ∨ i = 1 ∨ i = 2 ∨ i = 3 := by omega
  all_goals exact ⟨rfl, rfl⟩

/-- Settles O58: the reset state is one closed state, so each field of it is read off; only the registers that stand many
times over need their index. -/
theorem resetState : Obligations.ResetState := by
  refine ⟨MemInv_reset, rfl, fun a => ⟨rfl, rfl⟩, fun k => rfl, fun m => ?_, fun k p hp => ?_, fun c => ⟨rfl, rfl⟩, fun d => rfl,
    fun c => rfl, fun m => ?_, ?_⟩
  · rw [State.reset_module]
    by_cases h : m = 0 <;> simp [h]
  · simp only [List.mem_append, List.mem_map, List.mem_flatMap, List.mem_range] at hp
    rcases hp with (hp | ⟨i, hi, rfl⟩) | ⟨i, hi, hp⟩
    · simp only [List.mem_cons, List.not_mem_nil, or_false] at hp
      obtain rfl | rfl | rfl | rfl | rfl | rfl | rfl | rfl | rfl | rfl | rfl | rfl | rfl | rfl := hp
      all_goals rfl
    · exact readControl_reset_tcfg k i hi
    · simp only [List.mem_cons, List.not_mem_nil, or_false] at hp
      obtain ⟨ha, hm⟩ := readControl_reset_watch k i hi
      rcases hp with rfl | rfl
      · exact ha
      · exact hm
  · rw [State.reset_module]
    by_cases h : m = 0 <;> simp [h]
  · rfl

/-! ## The checks of R32 -/

/-- R10: a high bit answers PROTECTION with REASON 6 before anything else. -/
theorem checkFlat_of_high {s : State} {w : Want} (h : 2 ^ 48 ≤ w.va) :
    checkFlat s w = some (.fault (addrFault w causeProtection 6 0)) := by
  have hv : w.va / 2 ^ 48 ≠ 0 := by omega
  simp only [checkFlat, if_pos hv]

/-- What the flat checks answer, both address checks answer: that of an access and that of an agent's walk. -/
theorem checkAddr_of_flat {s : State} {w : Want} {c : Checked} (h : checkFlat s w = some c) : checkAddr s w = c := by
  simp [checkAddr, checkRoot, h]

theorem checkWalk_of_flat {s : State} {w : Want} {c : Checked} (h : checkFlat s w = some c) : checkWalk s w = c := by
  simp [checkWalk, checkWith, checkRoot, h]

/-- The low four bits of an address fault's INFO are its REASON (R33). -/
theorem addrFault_reason (w : Want) (cause level : Nat) {reason : Nat} (h : reason < 16) :
    (addrFault w cause reason level).info % 16 = reason := by
  simp only [addrFault, addrInfo]
  omega

/-- Settles O16: the test of bits [63:48] comes first in the flat checks. -/
theorem highAddressBits : Obligations.HighAddressBits := by
  intro s w h
  have hf := checkFlat_of_high (s := s) h
  have hr := addrFault_reason w causeProtection 0 (reason := 6) (by decide)
  exact ⟨⟨_, checkAddr_of_flat hf, rfl, rfl, hr, rfl⟩, ⟨_, checkWalk_of_flat hf, rfl, rfl, hr, rfl⟩⟩

/-- R32: below 2^48 the alignment comes next, before the region is looked at. -/
theorem checkFlat_of_misaligned {s : State} {w : Want} (h : w.va < 2 ^ 48) (ha : w.va % w.size ≠ 0) :
    checkFlat s w = some (.fault (addrFault w causeMisaligned 0xC 0)) := by
  have hv : ¬w.va / 2 ^ 48 ≠ 0 := by omega
  simp only [checkFlat, if_neg hv, if_pos ha]

/-- The sector of control space is the whole of it (R11). -/
theorem regionOf_control {va : Nat} (h : va / 2 ^ 40 = 0xF) : regionOf va = some .control := by
  simp only [regionOf, h]
  rfl

/-- R15: a program-level access to control space answers PROTECTION with REASON 5. -/
theorem checkFlat_of_control {s : State} {w : Want} (h : w.va / 2 ^ 40 = 0xF) (ha : w.va % w.size = 0) (hs : w.sys = false)
    (hu : regionHas w.use .control = true) : checkFlat s w = some (.fault (addrFault w causeProtection 5 0)) := by
  have hv : ¬w.va / 2 ^ 48 ≠ 0 := by omega
  simp only [checkFlat, if_neg hv]
  simp [ha, regionOf_control h, hs, hu]

/-- Settles O17: the alignment is tested second, and the level of control space before its windows. -/
theorem addressChecks : Obligations.AddressChecks := by
  refine ⟨fun s w h ha => ⟨_, checkAddr_of_flat (checkFlat_of_misaligned h ha), rfl, rfl, addrFault_reason _ _ _ (by decide), rfl⟩,
    fun s w _ hc ha hs hu => ⟨_, checkAddr_of_flat (checkFlat_of_control hc ha hs ?_), rfl, addrFault_reason _ _ _ (by decide)⟩⟩
  rcases hu with hu | hu <;> rw [hu] <;> rfl

end Sys2Proof.Machine
end

section
namespace Sys2Proof.Machine
open Sys2Proof.Safety

/-! ## Making a local access -/

/-- The address of a format-M operand, in integers modulo 2^64 (R271). -/
theorem offAddr_eq (n : Nat) (off : Int) (left : Word) : offAddr n off left = ((left.toNat + off * n) % 2 ^ 64).toNat := by
  have h : (left + BitVec.ofInt 64 (off * n)) = BitVec.ofInt 64 (left.toNat + off * n) := by
    rw [BitVec.ofInt_add]
    simp
  rw [offAddr, h, BitVec.toNat_ofInt]
  rfl

/-- The bytes of an atomic's operand (R285). -/
theorem atomicBytes_eq (w : Width) : atomicBytes w = if w = .w64 then 8 else 4 := by cases w <;> rfl

/-- The access that a rule makes of the operands, as it starts. -/
def startRule (R : AccessRule) (o : Fired) : State → State :=
  startAccess o R.lsid.toNat R.kind R.ordered (R.op o) (R.va o)

/-- The instructions of `accessRule` run in the shell of R320 and make the access of their rule. -/
theorem exec_of_accessRule {i : Instr} {R : AccessRule} (h : accessRule i = some R) (s : State) :
    exec i s = .next (memShell i R.pure (startRule R) s) := by
  have hva (x : Fired) : R.va x = offAddr R.unit R.off x.l := (offAddr_eq _ _ _).symm
  have hs : startRule R = fun x => startAccess x R.lsid.toNat R.kind R.ordered (R.op x) (offAddr R.unit R.off x.l) := by
    funext x
    rw [startRule, hva]
  rw [hs]
  simp only [accessRule, holdRule, ← atomicBytes_eq] at h
  split at h <;> cases h <;> rfl

/-- The shell of R320 on an instruction that fires: a poisoned address raises POISON, and so does poisoned data where the
access does not take it. -/
theorem memShell_of_fires {s : State} {i : Instr} {o : Fired} (pure : Bool) (body : Fired → State → State) (h : Fires s i o) :
    memShell i pure body s = if o.lp || (!pure && o.poison) then raise o.slot poisonToken s else body o s :=
  fire_of_fires _ h

theorem memShell_of_mayUse {s : State} {i : Instr} {o : Fired} {R : AccessRule} (body : Fired → State → State) (h : Fires s i o)
    (hu : R.mayUse o) : memShell i R.pure body s = body o s := by
  obtain ⟨hl, hd⟩ := hu
  rw [memShell_of_fires _ _ h]
  rcases hd with hd | hd <;> simp [hl, hd]

theorem memShell_of_not_mayUse {s : State} {i : Instr} {o : Fired} {R : AccessRule} (body : Fired → State → State)
    (h : Fires s i o) (hu : ¬R.mayUse o) : memShell i R.pure body s = raise o.slot poisonedOperand s := by
  have hp : (o.lp || (!R.pure && o.poison)) = true := by
    simp only [AccessRule.mayUse, not_and, not_or] at hu
    cases hl : o.lp
    · simpa using hu hl
    · rfl
  rw [memShell_of_fires _ _ h, if_pos hp]
  rfl

/-- The other memory operations of R320 run in the same shell. -/
theorem exec_in_memShell {i : Instr} {R : AccessRule} (h : accessRule i = some R ∨ releaseRule i = some R ∨ remoteRule i = some R ∨
    ∃ p t l rlx w n, i = .amadd p t l rlx w n ∧ R = amaddRule l rlx w n none) (s : State) :
    ∃ body, exec i s = .next (memShell i R.pure body s) := by
  rcases h with h | h | h | ⟨p, t, l, rlx, w, n, rfl, rfl⟩
  · exact ⟨_, exec_of_accessRule h s⟩
  · unfold releaseRule at h
    split at h <;> cases h <;> exact ⟨_, rfl⟩
  · unfold remoteRule at h
    split at h <;> cases h <;> exact ⟨_, rfl⟩
  · exact ⟨_, rfl⟩

/-- Using a translation notes the use and changes nothing else (R26). -/
theorem useTlb_eq (w : Want) (s : State) : ∃ r, useTlb w s = { s with recent := r } := by
  unfold useTlb
  split
  · exact ⟨s.recent, rfl⟩
  · dsimp only
    split
    · exact ⟨_, rfl⟩
    · exact ⟨s.recent, rfl⟩

/-- The checks of a location look at the accesses of the slot and at the listing of the running block alone. -/
theorem locationCheck_congr {x y : Slot} {i j : Inst} (a : Acc) (hx : x.accs = y.accs) (hi : i.members0 = j.members0) :
    locationCheck x i a = locationCheck y j a := by
  unfold locationCheck
  rw [hx, hi]

/-- A failed check answers its fault, and the block that runs is discarded with it (R184). -/
theorem startRule_fault {s : State} {o : Fired} {R : AccessRule} {f : Trap} (h : checkAddr s (R.want o) = .fault f) :
    startRule R o s = raise o.slot f s := by
  unfold AccessRule.want at h
  simp only [startRule, startAccess, h]

/-- The slot of an instruction that has fired and whose LSID is resolved. -/
theorem firedSlot (k lsid : Nat) (o : Fired) (st : NodeSt) (s : State) (j : Inst) (ho : o.slot = k) (hj : InstIs s k j) :
    (resolveLsid k lsid (setNode o st s)).slot k =
      { s.slot k with inst := some { stand j o.node st with lsids := tabPut j.lsids lsid .fired } } := by
  subst ho
  unfold InstIs at hj
  simp [resolveLsid, setNode, hj, stand, Inst.modNode]

/-- A change of one slot is a change of that slot alone. -/
theorem onlySlot_modSlot (s : State) (k : Nat) (f : Slot → Slot) : OnlySlot k s (s.modSlot k f) :=
  ⟨fun _ h => State.modSlot_slot_other s f h, ⟨rfl, rfl, rfl⟩, rfl, rfl, rfl, rfl, rfl, rfl, rfl, rfl, rfl, rfl, rfl, rfl, rfl,
    rfl, rfl, rfl, rfl, rfl, rfl, rfl⟩

theorem onlySlot_modInst (s : State) (k : Nat) (f : Inst → Inst) : OnlySlot k s (s.modInst k f) := onlySlot_modSlot s k _

/-- The note of a translation's use is none of what `OnlySlot` speaks of. -/
theorem onlySlot_recent (s : State) (k : Nat) (r : Tab (List TlbEntry)) : OnlySlot k s { s with recent := r } :=
  ⟨fun _ _ => rfl, ⟨rfl, rfl, rfl⟩, rfl, rfl, rfl, rfl, rfl, rfl, rfl, rfl, rfl, rfl, rfl, rfl, rfl, rfl, rfl, rfl, rfl, rfl, rfl,
    rfl⟩

theorem onlySlot_trans {k : Nat} {s t u : State} (h : OnlySlot k s t) (g : OnlySlot k t u) : OnlySlot k s u := by
  obtain ⟨h0, hm, h⟩ := h
  obtain ⟨g0, gm, g⟩ := g
  refine ⟨fun m e => (g0 m e).trans (h0 m e), sameMemory_trans hm gm, ?_⟩
  simp only [g, h, and_self]

/-- An access enters: the checks of its location passed, it stands last in its slot, and a BARJ or a BARX changes the listing. -/
theorem enterAcc_of_check {k : Nat} {a : Acc} {s : State} {i : Inst} (hi : (s.slot k).inst = some i)
    (hc : locationCheck (s.slot k) i a = none) (hst : a.st = .ready) (hf : ∀ b ∈ (s.slot k).accs, b.id ≠ a.id) :
    OnlySlot k s (enterAcc k a s) ∧ (enterAcc k a s).slot k = { s.slot k with
      accs := (s.slot k).accs ++ [a], inst := some { i with members0 := listed a.op a.pa i.members0 } } := by
  have hk : (s.slot k).accs.filter (fun b => b.id != a.id) = (s.slot k).accs :=
    List.filter_eq_self.2 fun b hb => by simpa using hf b hb
  have ha : { a with st := .ready } = a := by rw [← hst]
  simp only [enterAcc, hi, hc, ha]
  cases hop : a.op
  case barj | barx => exact ⟨onlySlot_trans (onlySlot_modSlot s k _) (onlySlot_modInst _ k _), by simp [hi, hk, listed]⟩
  all_goals exact ⟨onlySlot_modSlot s k _, by simp [hi, hk, listed]⟩

/-- What firing does to a slot reaches no other. -/
theorem onlySlot_fired (o : Fired) (lsid : Nat) (st : NodeSt) (s : State) :
    OnlySlot o.slot s (resolveLsid o.slot lsid (setNode o st s)) :=
  onlySlot_trans (onlySlot_modInst s o.slot _) (onlySlot_modInst _ o.slot _)

/-- Where the checks give a location, the access is entered. -/
theorem startRule_at {s : State} {o : Fired} {R : AccessRule} {j : Inst} {pa : Nat} (hj : InstIs s o.slot j)
    (h : checkAddr s (R.want o) = .at pa) (hc : locationCheck (s.slot o.slot) j (R.acc o s j pa) = none) (hf : FreshId s o.slot) :
    Entered s (startRule R o s) o j (R.acc o s j pa) := by
  obtain ⟨r, hr⟩ := useTlb_eq (R.want o) s
  unfold AccessRule.want at h hr
  simp only [startRule, startAccess, h, hr]
  have hinst : (s.slot o.slot).inst = some j := hj
  simp only [hinst]
  let u : State := { s with recent := r, nextId := s.nextId + 1 }
  have hfs := firedSlot o.slot R.lsid.toNat o (if R.kind = .commitTime then .fired else .waiting) u j rfl hj
  have hc' : locationCheck ((resolveLsid o.slot R.lsid.toNat (setNode o (if R.kind = .commitTime then .fired else .waiting) u)).slot
      o.slot) { stand j o.node (if R.kind = .commitTime then .fired else .waiting) with lsids := tabPut j.lsids R.lsid.toNat .fired }
      (R.acc o s j pa) = none := by
    rw [← hc, hfs]
    exact locationCheck_congr _ rfl rfl
  obtain ⟨ho, hs⟩ := enterAcc_of_check (by rw [hfs]) hc' rfl (by rw [hfs]; exact hf)
  refine ⟨onlySlot_trans (onlySlot_trans (onlySlot_recent { s with nextId := s.nextId + 1 } _ r) (onlySlot_fired o _ _ u)) ho, ?_⟩
  rw [hfs] at hs
  exact hs

/-- The entry just written is listed. -/
theorem mem_tabPut_self {α : Type} (t : Tab α) (k : Nat) (v : α) : (k, v) ∈ tabPut t k v := by
  induction t with
  | nil => simp [tabPut]
  | cons p t ih =>
    unfold tabPut
    split
    · simp
    · split
      · simp
      · simp [ih]

/-- A walk that has been asked for is listed, by this request or by an earlier one that will serve it (R28). -/
theorem askWalk_listed (core va : Nat) (s : State) : ∃ w ∈ (askWalk core va s).walks, w.2.va = va / 65536 * 65536 ∧
    w.2.cluster = coreCluster core ∧ (w.2.stale = false ∨ w.2.started = false) := by
  unfold askWalk
  dsimp only
  split
  · rename_i h
    obtain ⟨p, hp, h⟩ := List.any_eq_true.1 h
    simp only [Bool.and_eq_true, beq_iff_eq, Bool.or_eq_true, Bool.not_eq_true'] at h
    obtain ⟨⟨⟨hc, _⟩, hv⟩, hs⟩ := h
    exact ⟨p, hp, hv, hc, hs⟩
  · exact ⟨_, mem_tabPut_self _ _ _, rfl, rfl, .inl rfl⟩

/-- Asking for a walk changes the list of walks alone. -/
theorem askWalk_frame (core va : Nat) (s : State) : (askWalk core va s).slots = s.slots ∧ SameMemory s (askWalk core va s) := by
  unfold askWalk
  dsimp only
  split <;> exact ⟨rfl, rfl, rfl, rfl⟩

/-- Where the translation cache misses, the access stands last in its slot and waits for a walk of its page (R27, R184). -/
theorem startRule_miss {s : State} {o : Fired} {R : AccessRule} {j : Inst} (hj : InstIs s o.slot j)
    (h : checkAddr s (R.want o) = .miss) :
    ((startRule R o s).slot o.slot).accs = (s.slot o.slot).accs ++ [{ R.acc o s j 0 with st := .walking }] ∧
    (∃ w ∈ (startRule R o s).walks, w.2.va = R.va o / 65536 * 65536 ∧ w.2.cluster = coreCluster (slotCore o.slot) ∧
      (w.2.stale = false ∨ w.2.started = false)) ∧ SameMemory s (startRule R o s) := by
  have hinst : (s.slot o.slot).inst = some j := hj
  unfold AccessRule.want at h
  simp only [startRule, startAccess, h, hinst]
  generalize hu : State.modSlot _ o.slot _ = u
  obtain ⟨hs, hm⟩ := askWalk_frame (slotCore o.slot) (R.va o) u
  refine ⟨?_, askWalk_listed _ _ u, sameMemory_trans (t := u) (by subst hu; exact ⟨rfl, rfl, rfl⟩) hm⟩
  have hslot : (askWalk (slotCore o.slot) (R.va o) u).slot o.slot = u.slot o.slot := by simp only [State.slot, hs]
  rw [hslot, ← hu, State.modSlot_slot, firedSlot o.slot _ o _ { s with nextId := s.nextId + 1 } j rfl hj]
  rfl

/-- Settles O14: each instruction makes the access of its rule in the shell of R320, and the three answers of the checks of
R32 each have their outcome. -/
theorem localAccesses : Obligations.LocalAccesses := by
  refine ⟨fun s i o j R pa hf hj hr hu hc hl hn => ?_, fun s i o j R hf hj hr hu => ⟨fun f hc => ?_, fun hc => ?_⟩,
    fun s i o R hf hr hu => ?_⟩
  · exact ⟨_, by rw [exec_of_accessRule hr, memShell_of_mayUse _ hf hu], startRule_at hj hc hl hn⟩
  · rw [exec_of_accessRule hr, memShell_of_mayUse _ hf hu, startRule_fault hc]
  · exact ⟨_, by rw [exec_of_accessRule hr, memShell_of_mayUse _ hf hu], startRule_miss hj hc⟩
  · obtain ⟨body, hb⟩ := exec_in_memShell hr s
    rw [hb, memShell_of_not_mayUse body hf hu]

end Sys2Proof.Machine
end

section
namespace Sys2Proof.Machine
open Sys2Proof.Safety

/-! ## Copy instructions and mailboxes -/

/-- A copy instruction queues the request of its rule, in the shell of R334. -/
theorem exec_of_copyRule {i : Instr} {form ctx : Nat} {land reuse : Bool} {l : BitVec 5}
    (h : copyRule i = some (form, land, ctx, reuse, l)) (s : State) :
    exec i s = .next (checkedShell i (queueCopy form land ctx reuse l) s) := by
  unfold copyRule at h
  split at h <;> cases h <;> rfl

/-- The own pail of a core: its low window, or the remote window that names the core (R13). -/
def InOwnPail (c a : Nat) : Prop := a < 0x18000 ∨ 2 ^ 32 + c % 8192 * 2 ^ 17 ≤ a ∧ a < 2 ^ 32 + c % 8192 * 2 ^ 17 + 0x18000

/-- The low window of the own pail (R11). -/
theorem regionOf_own_iff (a off : Nat) : regionOf a = some (.own off) ↔ a < 0x18000 ∧ a = off := by
  unfold regionOf
  dsimp only
  repeat' split
  all_goals simp only [Option.some.injEq, Region.own.injEq, reduceCtorEq, false_iff, not_and]
  all_goals omega

/-- The remote windows (R11). -/
theorem regionOf_remote_iff (a t off : Nat) : regionOf a = some (.remote t off) ↔ 2 ^ 32 ≤ a ∧ a < 0x140000000 ∧
    (a - 2 ^ 32) % 2 ^ 17 < 0x18000 ∧ t = (a - 2 ^ 32) / 2 ^ 17 ∧ off = (a - 2 ^ 32) % 2 ^ 17 := by
  unfold regionOf
  dsimp only
  repeat' split
  all_goals simp only [Option.some.injEq, Region.remote.injEq, reduceCtorEq, false_iff, not_and]
  all_goals omega

/-- The own-pail offset is defined in the own pail alone. -/
theorem ownOffset_isSome_iff (c a : Nat) : (ownOffset c a).isSome = true ↔ InOwnPail c a := by
  unfold InOwnPail ownOffset
  split
  · rename_i off h
    have := (regionOf_own_iff a off).1 h
    simp only [Option.isSome_some, true_iff]
    omega
  · rename_i t off h
    have := (regionOf_remote_iff a t off).1 h
    unfold coreNum
    split
    · simp only [Option.isSome_some, true_iff]
      omega
    · simp only [Option.isSome_none, Bool.false_eq_true, false_iff]
      omega
  · rename_i hown hremote
    simp only [Option.isSome_none, Bool.false_eq_true, false_iff]
    intro h
    by_cases ha : a < 0x18000
    · exact hown a ((regionOf_own_iff a a).2 ⟨ha, rfl⟩)
    · exact hremote _ _ ((regionOf_remote_iff a _ _).2 ⟨by omega, by omega, by omega, rfl, rfl⟩)

/-- Shared memory, tier 2 and CXL are the sectors from 1 to 0xB (R11). -/
theorem regionOf_shared_iff (a : Nat) : (regionOf a = some .global ∨ regionOf a = some .tier2 ∨ regionOf a = some .cxl) ↔
    2 ^ 40 ≤ a ∧ a / 2 ^ 40 ≤ 0xB := by
  unfold regionOf
  dsimp only
  repeat' split
  all_goals simp only [Option.some.injEq, reduceCtorEq, or_false, false_or, or_self, true_iff, false_iff, not_and]
  all_goals omega

theorem regionOf_control_iff (a : Nat) : regionOf a = some .control ↔ a / 2 ^ 40 = 0xF := by
  unfold regionOf
  dsimp only
  repeat' split
  all_goals simp only [Option.some.injEq, reduceCtorEq, true_iff, false_iff]
  all_goals omega

/-- A parameter block lies in the own pail or in the shared sectors (R124). -/
def BlockHeld (c a : Nat) : Prop := InOwnPail c a ∨ 2 ^ 40 ≤ a ∧ a / 2 ^ 40 ≤ 0xB

/-- Where the parameter block's address passes every check, the request is queued and its LSID is resolved. -/
def queuedCopy (form : Nat) (land : Bool) (ctx : Nat) (reuse : Bool) (l : BitVec 5) (o : Fired) (s : State) : State :=
  match (s.slot o.slot).inst with
  | none => s
  | some i => resolveLsid o.slot l.toNat (setNode o .fired (s.modInst o.slot fun x => { x with
      copies := x.copies ++ [{ inst := i.num, lsid := l.toNat, form := form, land := land, ctx := ctx, reuse := reuse
                               pba := o.l.toNat }] }))

/-- An address with a bit above 47 fails the first check of a parameter block (R10, R124). -/
theorem queueCopy_high {form ctx : Nat} {land reuse : Bool} {l : BitVec 5} {o : Fired} {s : State} (h : 2 ^ 48 ≤ o.l.toNat) :
    queueCopy form land ctx reuse l o s = raise o.slot { cause := 0x06, addr := o.l.toNat, info := 6 } s := by
  have hv : o.l.toNat / 2 ^ 48 ≠ 0 := by omega
  simp only [queueCopy, if_pos hv]
  rfl

theorem queueCopy_misaligned {form ctx : Nat} {land reuse : Bool} {l : BitVec 5} {o : Fired} {s : State} (h : o.l.toNat < 2 ^ 48)
    (ha : o.l.toNat % 64 ≠ 0) :
    queueCopy form land ctx reuse l o s = raise o.slot { cause := 0x04, addr := o.l.toNat, info := 0xC } s := by
  have hv : ¬o.l.toNat / 2 ^ 48 ≠ 0 := by omega
  simp only [queueCopy, if_neg hv, if_pos ha]
  rfl

section
variable {form ctx : Nat} {land reuse : Bool} {l : BitVec 5} {o : Fired} {s : State} (h : o.l.toNat < 2 ^ 48)
  (ha : o.l.toNat % 64 = 0)
include h ha

theorem queueCopy_control (hc : o.l.toNat / 2 ^ 40 = 0xF) (hs : systemSlot o.slot = false) :
    queueCopy form land ctx reuse l o s = raise o.slot { cause := 0x06, addr := o.l.toNat, info := 5 } s := by
  have hv : ¬o.l.toNat / 2 ^ 48 ≠ 0 := by omega
  have hal : ¬o.l.toNat % 64 ≠ 0 := fun hn => hn ha
  have hr : regionOf o.l.toNat = some .control ∧ (!systemSlot o.slot) = true := ⟨(regionOf_control_iff _).2 hc, by simp [hs]⟩
  simp only [queueCopy, if_neg hv, if_neg hal, if_pos hr]
  rfl

/-- Past the first three checks it turns on whether the block's place can hold one. -/
theorem queueCopy_placed (hc : o.l.toNat / 2 ^ 40 = 0xF → systemSlot o.slot = true) :
    (¬BlockHeld (slotCore o.slot) o.l.toNat →
      queueCopy form land ctx reuse l o s = raise o.slot { cause := 0x06, addr := o.l.toNat, info := 7 } s) ∧
    (BlockHeld (slotCore o.slot) o.l.toNat → queueCopy form land ctx reuse l o s = queuedCopy form land ctx reuse l o s) := by
  have hv : ¬o.l.toNat / 2 ^ 48 ≠ 0 := by omega
  have hal : ¬o.l.toNat % 64 ≠ 0 := fun hn => hn ha
  have hr : ¬(regionOf o.l.toNat = some .control ∧ (!systemSlot o.slot) = true) := fun ⟨hr, hs⟩ => by
    simp [hc ((regionOf_control_iff _).1 hr)] at hs
  simp only [BlockHeld, ← ownOffset_isSome_iff, ← regionOf_shared_iff, queueCopy, if_neg hv, if_neg hal, if_neg hr]
  cases ho : (ownOffset (slotCore o.slot) o.l.toNat).isSome
  · rcases regionOf o.l.toNat with _ | r
    · exact ⟨fun _ => rfl, fun hb => by simp at hb⟩
    · cases r
      case global | tier2 | cxl => exact ⟨fun hb => by simp at hb, fun _ => rfl⟩
      all_goals exact ⟨fun _ => rfl, fun hb => by simp at hb⟩
  · exact ⟨fun hb => by simp at hb, fun _ => rfl⟩

end

/-- A queued request changes its slot alone: the instruction is done, its LSID resolved, and the request stands last. -/
theorem queuedCopy_slot {form ctx : Nat} {land reuse : Bool} {l : BitVec 5} {o : Fired} {s : State} {j : Inst}
    (hj : InstIs s o.slot j) : OnlySlot o.slot s (queuedCopy form land ctx reuse l o s) ∧
    (queuedCopy form land ctx reuse l o s).slot o.slot = { s.slot o.slot with inst := some { stand j o.node .fired with
      lsids := tabPut j.lsids l.toNat .fired
      copies := j.copies ++ [{ inst := j.num, lsid := l.toNat, form := form, land := land, ctx := ctx, reuse := reuse
                               pba := o.l.toNat }] } } := by
  unfold InstIs at hj
  simp only [queuedCopy, hj]
  refine ⟨onlySlot_trans (onlySlot_modInst s o.slot _) (onlySlot_fired o _ _ _), ?_⟩
  rw [firedSlot o.slot l.toNat o .fired _ _ rfl (show InstIs _ o.slot _ by simp [InstIs, hj]; rfl)]
  simp [stand, Inst.modNode]

/-- An entry of a table with rising keys is found at its key. -/
theorem tabFind_of_mem {α : Type} {t : Tab α} {k : Nat} {v : α} (hr : Rising t) (h : (k, v) ∈ t) : tabFind t k = some v := by
  induction t with
  | nil => cases h
  | cons p t ih =>
    obtain ⟨hp, ht⟩ := List.pairwise_cons.1 hr
    unfold tabFind
    rcases List.mem_cons.1 h with rfl | h
    · simp
    · have hlt : p.1 < k := hp _ h
      rw [if_neg (by omega), if_neg (by omega)]
      exact ih ht h

/-- The older of two mailboxes, the first kept among equals. -/
def olderBox (m : Option (Nat × Mailbox)) (p : Nat × Mailbox) : Option (Nat × Mailbox) :=
  match m with
  | some q => if p.2.order < q.2.order then some p else some q
  | none => some p

/-- A mailbox that every other one follows is the one that the search keeps. -/
theorem foldl_olderBox {x : Nat × Mailbox} (l : List (Nat × Mailbox)) (m : Option (Nat × Mailbox))
    (hl : ∀ q ∈ l, q = x ∨ x.2.order < q.2.order) (hm : ∀ q, m = some q → q = x ∨ x.2.order < q.2.order)
    (hx : x ∈ l ∨ m = some x) : l.foldl olderBox m = some x := by
  induction l generalizing m with
  | nil => exact hx.resolve_left (by simp)
  | cons p l ih =>
    rw [List.foldl_cons]
    have hp := hl p (by simp)
    refine ih _ (fun q hq => hl q (by simp [hq])) (fun q hq => ?_) ?_
    · rcases m with _ | y
      · cases hq
        exact hp
      · simp only [olderBox] at hq
        split at hq <;> cases hq
        · exact hp
        · exact hm _ rfl
    · rcases hx with hx | rfl
      · rcases List.mem_cons.1 hx with rfl | hx
        · right
          rcases m with _ | y
          · rfl
          · simp only [olderBox]
            rcases hm y rfl with rfl | hy
            · simp
            · rw [if_pos hy]
        · exact .inl hx
      · right
        simp only [olderBox]
        rcases hp with rfl | hp
        · simp
        · rw [if_neg (by omega)]

theorem oldestMailbox_eq {co : Core} {m : Nat} {b : Mailbox} (h : OldestBox co m b) : oldestMailbox co = some (m, b) := by
  obtain ⟨_, hmem, hf, ht, hold⟩ := h
  refine foldl_olderBox (x := (m, b)) _ none (fun q hq => ?_) (fun q hq => by cases hq) (.inl ?_)
  · simp only [List.mem_filter, Bool.and_eq_true, Bool.not_eq_true'] at hq
    exact hold q hq.1 hq.2.1 hq.2.2
  · simp [hmem, hf, ht]

/-- No mailbox is full and not taken. -/
theorem oldestMailbox_none {co : Core} (h : ∀ q ∈ co.mailboxes, q.2.full = false ∨ q.2.taken = true) : oldestMailbox co = none := by
  have he : co.mailboxes.filter (fun p => p.2.full && !p.2.taken) = [] := by
    rw [List.filter_eq_nil_iff]
    intro q hq
    rcases h q hq with h | h <;> simp [h]
  simp [oldestMailbox, he]

/-- The model's test of an engine says what R128 and R417 open. -/
theorem engineAllowed_iff (s : State) (c e : Nat) : engineAllowed s c e = true ↔ EngineOpen s c e := by
  have hv : vendorEngine c = c % 2048 / 64 := by
    unfold vendorEngine coreNum
    omega
  simp [engineAllowed, EngineOpen, hv, expertFor, coreModule]

theorem hasTaken_iff (j : Inst) (m : Nat) : j.hasTaken m = true ↔ ∃ n, (n, Action.mbxTaken m) ∈ j.actions := by
  simp [Inst.hasTaken]

/-- A system-level instruction in a program slot raises PROTECTION (R283). -/
theorem systemShell_of_program {s : State} {i : Instr} {o : Fired} (body : Fired → State → State) (h : Fires s i o)
    (hs : systemSlot o.slot = false) : systemShell i body s = raise o.slot { cause := 0x06, addr := 0, info := 5 } s := by
  unfold systemShell
  rw [fire_of_fires _ h]
  simp only [hs, Bool.not_false, if_true]
  rfl

theorem systemShell_of_fires {s : State} {i : Instr} {o : Fired} (body : Fired → State → State) (h : FiresClean s i o)
    (hs : systemSlot o.slot = true) : systemShell i body s = body o s := by
  unfold systemShell
  rw [fire_of_fires _ h.1]
  simp [hs, h.2]

/-- An instruction that waits changes where it stands and nothing else. -/
theorem setNode_slot {s : State} {o : Fired} {j : Inst} (st : NodeSt) (hj : InstIs s o.slot j) :
    OnlySlot o.slot s (setNode o st s) ∧ (setNode o st s).slot o.slot = { s.slot o.slot with inst := some (stand j o.node st) } := by
  unfold InstIs at hj
  exact ⟨onlySlot_modInst s o.slot _, by simp [setNode, hj, stand]⟩

/-- MBXR with a mailbox to take: the mailbox is taken, the instruction done, and the two tokens are sent (R337). -/
theorem mbxrTake_of_oldest {s : State} {o : Fired} {j : Inst} {m : Nat} {b : Mailbox} (t u : Tgt) (hj : InstIs s o.slot j)
    (h : OldestBox (s.core (slotCore o.slot)) m b) :
    ∃ v, mbxrTake t u o.slot o.node s = sendTokens o.slot
        [(t, .data ((s.core (slotCore o.slot)).mbWord m) false), (u, .data (BitVec.ofNat 64 m) false)] v ∧
      SameMemory s v ∧ (v.slot o.slot).inst = some ((stand j o.node .fired).putAction o.node (.mbxTaken m)) ∧
      tabFind (v.core (slotCore o.slot)).mailboxes m = some { b with taken := true } := by
  unfold InstIs at hj
  have hb : tabGet (s.core (slotCore o.slot)).mailboxes m {} = b := by simp [tabGet, tabFind_of_mem h.1 h.2.1]
  simp only [mbxrTake, oldestMailbox_eq h]
  refine ⟨_, rfl, ⟨rfl, rfl, rfl⟩, ?_, ?_⟩
  · simp [hj, stand]
  · simp [tabMod, hb]

theorem mbxrTake_of_none {s : State} {o : Fired} (t u : Tgt)
    (h : ∀ q ∈ (s.core (slotCore o.slot)).mailboxes, q.2.full = false ∨ q.2.taken = true) :
    mbxrTake t u o.slot o.node s = setNode o .waiting s := by
  simp only [mbxrTake, oldestMailbox_none h]
  rfl

/-- MBXW is admitted for a mailbox that the running block has taken, of the four, and an engine that is open to it (R338). -/
theorem exec_mbxw {s : State} {p : Pred} {t u : Tgt} {o : Fired} {j : Inst} (hf : FiresClean s (.mbxw p t u) o)
    (hj : InstIs s o.slot j) (hs : systemSlot o.slot = true) :
    exec (.mbxw p t u) s = .next (if 3 < o.l.toNat ∨ ¬engineAllowed s (slotCore o.slot) o.r.toNat ∨
        ¬j.hasTaken o.l.toNat then raise o.slot (illegalAt o.node) s
      else finish (.mbxw p t u) o (.data 0#64 false)
        (s.modInst o.slot fun x => x.putAction o.node (.mbxw o.l.toNat o.r.toNat))) := by
  unfold InstIs at hj
  show execMbxw p t u s = _
  unfold execMbxw
  rw [systemShell_of_fires _ hf hs]
  simp only [hj]

/-- MBXR in a system slot takes a mailbox, or waits for one (R337). -/
theorem exec_mbxr {s : State} {p : Pred} {t u : Tgt} {o : Fired} (hf : FiresClean s (.mbxr p t u) o)
    (hs : systemSlot o.slot = true) : exec (.mbxr p t u) s = .next (mbxrTake t u o.slot o.node s) := by
  show Host.Outcome.next _ = _
  rw [systemShell_of_fires _ hf hs]

/-- ILLEGAL at an instruction, in numbers (R278). -/
theorem illegalAt_eq (n : Nat) : illegalAt n = { cause := 0x01, addr := 0, info := n * 65536 } := by
  simp [illegalAt, illegalInfo, causeIllegal]

/-- Settles O30: the copy instructions by the order of their checks, the timeline by its counter, and MBXR and MBXW by their
level, then by the mailboxes of the core. -/
theorem copiesQueue : Obligations.CopiesQueue := by
  refine ⟨fun s i o j form land ctx reuse l hf hj hr => ?_, fun s p t u issue c o hf => ?_, fun s p t u c o j n hf hj hn => ?_,
    fun s p t u o j hf hj => ⟨fun hs => ?_, fun hs => ⟨fun hm => ?_, fun m b hm => ?_⟩⟩,
    fun s p t u o j hf hj => ⟨fun hs => ?_, fun hs hl he ht => ?_, fun hs hb => ?_⟩⟩
  · have he : exec i s = .next (queueCopy form land ctx reuse l o s) := by
      rw [exec_of_copyRule hr, checkedShell_of_fires _ hf]
    simp only [he]
    refine ⟨fun h => by rw [queueCopy_high h], fun h ha => by rw [queueCopy_misaligned h ha], fun ha hc hs => ?_,
      fun h ha hb => ?_, fun ha hb => ?_⟩
    · rw [queueCopy_control (by omega) ha hc hs]
    · obtain ⟨hno, -⟩ := queueCopy_placed (form := form) (ctx := ctx) (land := land) (reuse := reuse) (l := l) (s := s) h ha
        (fun hc => hb.elim (fun hl => by omega) fun hu => hu.2 hc)
      rw [hno]
      unfold BlockHeld InOwnPail
      rcases hb with ⟨h1, h2⟩ | ⟨h1, h2⟩ <;> omega
    · have hlt : o.l.toNat < 2 ^ 48 := by rcases hb with (hb | hb) | hb <;> omega
      obtain ⟨-, hyes⟩ := queueCopy_placed (form := form) (ctx := ctx) (land := land) (reuse := reuse) (l := l) (s := s) hlt ha
        (by rcases hb with (hb | hb) | hb <;> omega)
      exact ⟨_, by rw [hyes hb], queuedCopy_slot hj⟩
  · show execTlrd p t u issue c s = _
    unfold execTlrd
    rw [checkedShell_of_fires _ hf]
    rfl
  · have he : exec (.tlwait p t u c) s = execTlwait p t u c s := rfl
    unfold execTlwait at he
    rw [checkedShell_of_fires _ hf] at he
    rw [he]
    refine ⟨fun h => ?_, fun h => ⟨_, ?_, setNode_slot .waiting hj⟩⟩
    · rw [if_pos (by rw [← Core.tl] at hn; omega)]
      subst hn
      rfl
    · rw [if_neg (by rw [← Core.tl] at hn; omega)]
  · show Host.Outcome.next _ = _
    rw [systemShell_of_program _ hf.1 hs]
  · exact ⟨_, by rw [exec_mbxr hf hs, mbxrTake_of_none t u hm], setNode_slot .waiting hj⟩
  · obtain ⟨v, hv, hrest⟩ := mbxrTake_of_oldest t u hj hm
    exact ⟨v, by rw [exec_mbxr hf hs, hv], hrest⟩
  · show Host.Outcome.next _ = _
    rw [systemShell_of_program _ hf.1 hs]
  · have ha : ¬(3 < o.l.toNat ∨ ¬engineAllowed s (slotCore o.slot) o.r.toNat ∨ ¬j.hasTaken o.l.toNat) := by
      rw [engineAllowed_iff, hasTaken_iff]
      simp only [not_or, Classical.not_not]
      exact ⟨by omega, he, ht⟩
    rw [exec_mbxw hf hj hs, if_neg ha]
  · have ha : 3 < o.l.toNat ∨ ¬engineAllowed s (slotCore o.slot) o.r.toNat ∨ ¬j.hasTaken o.l.toNat := by
      rw [engineAllowed_iff, hasTaken_iff, not_exists]
      exact hb
    rw [exec_mbxw hf hj hs, if_pos ha, illegalAt_eq]

end Sys2Proof.Machine
end

section
/-! FABRIC TIMEOUT of a stall-word request (R212), where the descriptor of the launch gives a core no elements. -/

namespace Sys2Proof.Machine

open Sys2Proof.Safety

/-- The attempt of core 0 for its task in entry 0, which has sent its first request. -/
def farAttempt : Attempt := { entry := 0, ball := [2 ^ 45], granted := [], waiting := [2 ^ 45], sentAt := 0 }

/-- Core 0 waits for element 2^45, of a launch with no descriptor: R201 then gives no count of elements to a core, and the
index of the stall word carries its address into module 1, although core 0 is the element's home. -/
def farStall : State :=
  { cores := [(0, { attempt := some farAttempt })]
    launches := [(0, { homes := [0] })]
    net := [(0, .stall 0 0 0 0 [(2 ^ 45, .takeX)])] }

/-- The word that the request names stands in module 1. -/
theorem farStall_addr : stallAddr (farStall.launch (farStall.core 0).launch) (2 ^ 45) = some (2 ^ 48 + 2 ^ 32) := by decide

/-- The event goes by the module of the home, which is the agent's own, and leaves the attempt alone. -/
theorem farStall_stays : exec (.fabricTimeout 0) farStall = .next farStall := rfl

/-- Refutes O56: in `farStall` the module of the stall word's address, 1, is silent and not the agent's own, and yet
FABRIC_TIMEOUT does not refuse the attempt. -/
theorem not_coloursAndTimeouts : ¬ Obligations.ColoursAndTimeouts := by
  unfold Obligations.ColoursAndTimeouts
  rintro ⟨-, -, -, stall⟩
  obtain ⟨-, refused⟩ := stall farStall 0 0 0 0 0 (2 ^ 45) _ .takeX [] farAttempt rfl rfl farStall_addr (by decide) rfl
  obtain ⟨t, ht, gone, -⟩ := refused rfl (.inl (by decide))
  rw [farStall_stays] at ht
  cases ht
  cases gone

end Sys2Proof.Machine
end

section
/-! Bytes, tags and numbers of memory, read after they have been written. -/

namespace Sys2Proof.Machine

open Sys2Proof.Safety

/-! ## Sets of keys -/

theorem setHas_below {lo n : Nat} {t : List Nat} (h : setWfFrom lo t = true) (hn : n < lo) : setHas t n = false := by
  cases t with
  | nil => rfl
  | cons k t =>
    simp only [setWfFrom, Bool.and_eq_true, decide_eq_true_eq] at h
    have : n ≠ k ∧ n < k := by omega
    simp [setHas, this]

theorem setHas_setDel_self {lo : Nat} (t : List Nat) (n : Nat) (h : setWfFrom lo t = true) : setHas (setDel t n) n = false := by
  induction t generalizing lo with
  | nil => rfl
  | cons k t ih =>
    simp only [setWfFrom, Bool.and_eq_true, decide_eq_true_eq] at h
    unfold setDel
    split
    · exact setHas_below h.2 (by omega)
    · split
      · rename_i hne hlt
        simp [setHas, hne, hlt]
      · rename_i hne hge
        simp [setHas, hne, hge, ih h.2]

theorem setHas_setDel_other {lo n m : Nat} (t : List Nat) (h : setWfFrom lo t = true) (hm : m ≠ n) :
    setHas (setDel t n) m = setHas t m := by
  induction t generalizing lo with
  | nil => rfl
  | cons k t ih =>
    simp only [setWfFrom, Bool.and_eq_true, decide_eq_true_eq] at h
    unfold setDel
    split
    · rename_i e
      subst e
      simp only [setHas, hm, if_false]
      split
      · exact setHas_below h.2 (by omega)
      · rfl
    · split
      · rfl
      · simp only [setHas, ih h.2]

/-! ## Tags -/

theorem isFull_setFull_self (s : State) (pa : Nat) (b : Bool) (h : MemInv s) : (s.setFull pa b).isFull pa = b := by
  cases b
  · simp [State.setFull, State.isFull]
  · simp [State.setFull, State.isFull, setHas_setDel_self _ _ h.2.1]

theorem isFull_setFull_other (s : State) {pa a : Nat} (b : Bool) (h : MemInv s) (ha : a / 8 ≠ pa / 8) :
    (s.setFull pa b).isFull a = s.isFull a := by
  cases b
  · simp [State.setFull, State.isFull, setHas_setIns_other _ ha]
  · simp [State.setFull, State.isFull, setHas_setDel_other _ h.2.1 ha]

theorem unitPoisoned_setUnitPoison_self (s : State) (pa : Nat) (p : Bool) (h : MemInv s) :
    (s.setUnitPoison pa p).unitPoisoned pa = p := by
  cases p
  · simp [State.setUnitPoison, State.unitPoisoned, setHas_setDel_self _ _ h.2.2]
  · simp [State.setUnitPoison, State.unitPoisoned]

theorem unitPoisoned_setUnitPoison_other (s : State) {pa a : Nat} (p : Bool) (h : MemInv s) (ha : a / 4 ≠ pa / 4) :
    (s.setUnitPoison pa p).unitPoisoned a = s.unitPoisoned a := by
  cases p
  · simp [State.setUnitPoison, State.unitPoisoned, setHas_setDel_other _ h.2.2 ha]
  · simp [State.setUnitPoison, State.unitPoisoned, setHas_setIns_other _ ha]

/-- A word is poisoned where one of its two units is (R47, R59). -/
theorem wordPoisoned_eq (s : State) (a : Nat) :
    s.wordPoisoned a = (s.unitPoisoned (a / 8 * 8) || s.unitPoisoned (a / 8 * 8 + 4)) := by
  have h1 : a / 8 * 8 / 4 = a / 8 * 2 := by omega
  have h2 : (a / 8 * 8 + 4) / 4 = a / 8 * 2 + 1 := by omega
  simp only [State.wordPoisoned, State.unitPoisoned, h1, h2]

theorem wordPoisoned_setWordPoison_self (s : State) {pa a : Nat} (p : Bool) (h : MemInv s) (ha : a / 8 = pa / 8) :
    (s.setWordPoison pa p).wordPoisoned a = p := by
  have h1 := setUnitPoison_inv s (pa / 8 * 8) p h
  rw [wordPoisoned_eq, ha, State.setWordPoison, unitPoisoned_setUnitPoison_self _ _ _ h1,
    unitPoisoned_setUnitPoison_other _ _ h1 (by omega), unitPoisoned_setUnitPoison_self _ _ _ h, Bool.or_self]

theorem wordPoisoned_setWordPoison_other (s : State) {pa a : Nat} (p : Bool) (h : MemInv s) (ha : a / 8 ≠ pa / 8) :
    (s.setWordPoison pa p).wordPoisoned a = s.wordPoisoned a := by
  have h1 := setUnitPoison_inv s (pa / 8 * 8) p h
  rw [wordPoisoned_eq, State.setWordPoison, unitPoisoned_setUnitPoison_other _ _ h1 (by omega),
    unitPoisoned_setUnitPoison_other _ _ h (by omega), unitPoisoned_setUnitPoison_other _ _ h1 (by omega),
    unitPoisoned_setUnitPoison_other _ _ h (by omega), ← wordPoisoned_eq]

theorem mem_wordsOf {pa n w : Nat} (hn : n ≠ 0) : w ∈ wordsOf pa n ↔ pa / 8 ≤ w ∧ w ≤ (pa + n - 1) / 8 := by
  simp only [wordsOf, hn, if_false, List.mem_map, List.mem_range]
  constructor
  · rintro ⟨i, hi, rfl⟩
    omega
  · rintro ⟨h1, h2⟩
    exact ⟨w - pa / 8, by omega, by omega⟩

/-- Words that are poisoned or cleaned in a row. -/
theorem wordPoisoned_overAll (p : Bool) (ws : List Nat) (s : State) (a : Nat) (h : MemInv s) :
    (overAll (fun w s => s.setWordPoison (w * 8) p) ws s).wordPoisoned a = if a / 8 ∈ ws then p else s.wordPoisoned a := by
  induction ws generalizing s with
  | nil => simp [overAll]
  | cons w ws ih =>
    rw [overAll, ih _ (setWordPoison_inv s (w * 8) p h)]
    by_cases hw : a / 8 = w
    · rw [wordPoisoned_setWordPoison_self s p h (by omega)]
      simp [hw]
    · rw [wordPoisoned_setWordPoison_other s p h (by omega)]
      simp [hw]

/-- Every word that a span touches takes the poison of the span. -/
theorem wordPoisoned_poisonSpan (s : State) {pa n i : Nat} (p : Bool) (h : MemInv s) (hi : i < n) :
    (poisonSpan pa n p s).wordPoisoned (pa + i) = p := by
  have hw : (pa + i) / 8 ∈ wordsOf pa n := (mem_wordsOf (by omega)).mpr (by omega)
  rw [poisonSpan, wordPoisoned_overAll p _ s _ h, if_pos hw]

theorem poisonSpan_mem (pa n : Nat) (p : Bool) (s : State) :
    (poisonSpan pa n p s).mem = s.mem ∧ (poisonSpan pa n p s).empties = s.empties :=
  overAll_keeps (fun t => t.mem = s.mem ∧ t.empties = s.empties) (fun w s => s.setWordPoison (w * 8) p)
    (fun _ _ h => h) (wordsOf pa n) s ⟨rfl, rfl⟩

/-! ## Numbers in memory (R5) -/

theorem natBytes_length (n v : Nat) : (natBytes n v).length = n := by
  induction n generalizing v with
  | zero => rfl
  | succ n ih => simp [natBytes, ih]

theorem natBytes_getD (n v i : Nat) (h : i < n) : (natBytes n v).getD i 0#8 = BitVec.ofNat 8 (v / 256 ^ i) := by
  induction n generalizing v i with
  | zero => omega
  | succ n ih =>
    cases i with
    | zero => simp [natBytes]
    | succ i =>
      rw [natBytes, List.getD_cons_succ, ih _ _ (by omega), Nat.div_div_eq_div_mul, Nat.pow_succ, Nat.mul_comm]

/-- Bytes that are those of a number read as that number. -/
theorem readN_of_bytes {s : State} {pa n x : Nat} (h : ∀ i < n, s.byte (pa + i) = BitVec.ofNat 8 (x / 256 ^ i)) :
    s.readN pa n = x % 256 ^ n := by
  induction n generalizing pa x with
  | zero => simp [State.readN, State.bytesAt, leNat, Nat.mod_one]
  | succ n ih =>
    have h0 := h 0 (by omega)
    have hs : s.readN (pa + 1) n = x / 256 % 256 ^ n := ih fun i hi => by
      have := h (i + 1) (by omega)
      rw [show pa + 1 + i = pa + (i + 1) by omega, this, Nat.pow_succ, Nat.mul_comm, Nat.div_div_eq_div_mul]
    have hb : s.readN pa (n + 1) = (s.byte pa).toNat + 256 * s.readN (pa + 1) n := rfl
    simp only [Nat.add_zero, Nat.pow_zero, Nat.div_one] at h0
    rw [hb, hs, h0, BitVec.toNat_ofNat, show 256 ^ (n + 1) = 256 * 256 ^ n from Nat.pow_succ', Nat.mod_mul]

/-- The bytes of a number that is read. -/
theorem byte_of_readN (s : State) (pa n i : Nat) (h : i < n) :
    s.byte (pa + i) = BitVec.ofNat 8 (s.readN pa n / 256 ^ i) := by
  induction n generalizing pa i with
  | zero => omega
  | succ n ih =>
    have hb : s.readN pa (n + 1) = (s.byte pa).toNat + 256 * s.readN (pa + 1) n := rfl
    have hlt := (s.byte pa).isLt
    cases i with
    | zero =>
      apply BitVec.eq_of_toNat_eq
      rw [hb, BitVec.toNat_ofNat, Nat.add_zero]
      omega
    | succ i =>
      have hd : s.readN pa (n + 1) / 256 ^ (i + 1) = s.readN (pa + 1) n / 256 ^ i := by
        rw [Nat.pow_succ, Nat.mul_comm, ← Nat.div_div_eq_div_mul, hb]
        congr 1
        omega
      rw [hd, show pa + (i + 1) = pa + 1 + i by omega]
      exact ih _ _ (by omega)

theorem readN_lt (s : State) (pa n : Nat) : s.readN pa n < 256 ^ n := by
  rw [readN_of_bytes (x := s.readN pa n) fun i hi => byte_of_readN s pa n i hi]
  exact Nat.mod_lt _ (Nat.pow_pos (by decide))

/-- A number is read in two parts. -/
theorem readN_add (s : State) (pa m n : Nat) : s.readN pa (m + n) = s.readN pa m + 256 ^ m * s.readN (pa + m) n := by
  induction m generalizing pa with
  | zero => simp [State.readN, State.bytesAt, leNat]
  | succ m ih =>
    have hb : ∀ k, s.readN pa (k + 1) = (s.byte pa).toNat + 256 * s.readN (pa + 1) k := fun _ => rfl
    rw [show m + 1 + n = (m + n) + 1 by omega, hb, hb, ih, show pa + (m + 1) = pa + 1 + m by omega, Nat.pow_succ,
      Nat.mul_comm (256 ^ m) 256, Nat.mul_assoc]
    omega

/-- Bytes that are the same read as the same number. -/
theorem readN_congr {s t : State} {pa n : Nat} (h : ∀ i < n, t.byte (pa + i) = s.byte (pa + i)) :
    t.readN pa n = s.readN pa n := by
  rw [readN_of_bytes fun i hi => (h i hi).trans (byte_of_readN s pa n i hi), Nat.mod_eq_of_lt (readN_lt s pa n)]

theorem readN_putN_self (s : State) (pa n v : Nat) (h : MemInv s) : (s.putN pa n v).readN pa n = v % 256 ^ n :=
  readN_of_bytes fun i hi => by
    rw [State.putN, byte_putBytes_self s pa _ i h.1 (by rw [natBytes_length]; exact hi), natBytes_getD n v i hi]

theorem word_putWord_self (s : State) (pa : Nat) (v : Word) (h : MemInv s) : (s.putWord pa v).word pa = v := by
  rw [State.word, State.putWord, readN_putN_self s pa 8 _ h]
  apply BitVec.eq_of_toNat_eq
  have := v.isLt
  rw [BitVec.toNat_ofNat]
  omega

end Sys2Proof.Machine
end

section
/-! What a request does at its point of coherence, where nothing holds its words (R54, R59, R99, R104, R106, R107). -/

namespace Sys2Proof.Machine

open Sys2Proof.Safety

/-! ## States with the same memory -/

theorem byte_of_same {s t : State} (h : SameMemory s t) (a : Nat) : t.byte a = s.byte a := by
  simp only [State.byte, h.1]

theorem readN_of_same {s t : State} (h : SameMemory s t) (a n : Nat) : t.readN a n = s.readN a n :=
  readN_congr fun _ _ => byte_of_same h _

theorem word_of_same {s t : State} (h : SameMemory s t) (a : Nat) : t.word a = s.word a := by
  simp only [State.word, readN_of_same h]

theorem isFull_of_same {s t : State} (h : SameMemory s t) (a : Nat) : t.isFull a = s.isFull a := by
  simp only [State.isFull, h.2.1]

theorem wordPoisoned_of_same {s t : State} (h : SameMemory s t) (a : Nat) : t.wordPoisoned a = s.wordPoisoned a := by
  simp only [State.wordPoisoned, h.2.2]

/-! ## Messages are numbered upward -/

theorem overAll_nextId {α : Type} (f : α → State → State) (hf : ∀ x s, s.nextId ≤ (f x s).nextId) (l : List α) (s : State) :
    s.nextId ≤ (overAll f l s).nextId :=
  overAll_keeps (fun t => s.nextId ≤ t.nextId) f (fun x t h => Nat.le_trans h (hf x t)) l s (Nat.le_refl _)

theorem send_nextId (s : State) (m : Msg) : s.nextId ≤ (s.send m).nextId := Nat.le_succ _

theorem answer_nextId (r : Req) (a : Answer) (s : State) : s.nextId ≤ (answer r a s).nextId := by
  unfold answer
  split <;> exact send_nextId s _

theorem grantTo_nextId (r : Req) (s : State) : s.nextId ≤ (grantTo r s).nextId := by
  unfold grantTo
  split <;> exact Nat.le_refl _

theorem watchWord_nextId (wr : Writer) (pa : Nat) (b : Bool) (s : State) : s.nextId ≤ (watchWord wr pa b s).nextId :=
  overAll_nextId _ (fun p t => overAll_nextId _ (fun q u => by
    split
    · exact send_nextId (u.modCore _ _) _
    · exact Nat.le_refl _) _ t) _ s

theorem scanWaiters_nextId (w : Nat) (rs : List Req) (s : State) : s.nextId ≤ (scanWaiters w rs s).nextId := by
  induction rs generalizing s with
  | nil => exact Nat.le_refl _
  | cons r rs ih =>
    unfold scanWaiters
    dsimp only
    split
    · exact ih s
    · exact Nat.le_trans (answer_nextId r _ (s.setWordQ w _)) (ih _)
    · split
      · exact ih s
      · exact Nat.le_trans (Nat.le_trans (grantTo_nextId r (s.setWordQ w _)) (answer_nextId r _ _)) (ih _)

theorem wroteWord_nextId (wr : Writer) (b change : Bool) (w : Nat) (s : State) :
    s.nextId ≤ (wroteWord wr b change w s).nextId :=
  Nat.le_trans (Nat.le_trans (watchWord_nextId wr (w * 8) b s) (scanWaiters_nextId w _ _)) (scanWaiters_nextId (w - 1) _ _)

theorem writeMem_nextId (wr : Writer) (pa : Nat) (bs : List Byte) (s : State) : s.nextId ≤ (writeMem wr pa bs s).nextId :=
  overAll_nextId _ (fun w t => wroteWord_nextId wr false false w t) _ (s.putBytes pa bs)

theorem poisonSpan_nextId (pa n : Nat) (p : Bool) (s : State) : (poisonSpan pa n p s).nextId = s.nextId :=
  overAll_keeps (fun t => t.nextId = s.nextId) (fun w s => s.setWordPoison (w * 8) p) (fun _ _ h => h) (wordsOf pa n) s rfl

theorem performStore_nextId (wr : Writer) (pa : Nat) (bs : List Byte) (p : Bool) (s : State) :
    s.nextId ≤ (performStore wr pa bs p s).2.nextId := by
  unfold performStore
  dsimp only
  split
  · exact Nat.le_refl _
  · rw [← poisonSpan_nextId pa bs.length p s]
    exact writeMem_nextId wr pa bs _

theorem performBytes_nextId (wr : Writer) (p : Bool) (n pa : Nat) (bs : List Byte) (s : State) :
    s.nextId ≤ (performBytes wr p n pa bs s).nextId := by
  induction n generalizing pa bs s with
  | zero => exact Nat.le_refl _
  | succ n ih =>
    unfold performBytes
    dsimp only
    split
    · exact Nat.le_refl _
    · exact Nat.le_trans (performStore_nextId wr pa _ p s) (ih _ _ _)

/-! ## Answers and places -/

/-- What has just been answered is answered. -/
theorem answered_answer {s t : State} (r : Req) (a : Answer) (h : s.nextId ≤ t.nextId) : Answered s (answer r a t) r a := by
  refine ⟨t.nextId, h, ?_⟩
  unfold answer
  split <;> exact tabFind_tabPut_self _ _ _

theorem setWordQ_words {s : State} {w : Nat} {q : WordQ} (h : q ≠ {}) : (s.setWordQ w q).wordQ w = q := by
  simp [State.setWordQ, State.wordQ, h]

theorem answer_wordQ (r : Req) (a : Answer) (s : State) (w : Nat) : (answer r a s).wordQ w = s.wordQ w := by
  unfold answer
  split <;> rfl

theorem held_grantTo (r : Req) (s : State) : Held (grantTo r s) r := by
  intro k a hs
  have hq : { s.wordQ (r.pa / 8) with held := some (k, r.inst, a) } ≠ ({} : WordQ) := fun e => by
    cases congrArg WordQ.held e
  simp only [grantTo, hs, setWordQ_words hq]

section Serve
variable {r : Req} {s : State}

theorem serveReq_answer {a : Answer} {t : State} (h : performReq r s = (.answer a, t)) : serveReq r s = answer r a t := by
  simp only [serveReq, h]

theorem serveReq_grant {a : Answer} {t : State} (h : performReq r s = (.grant a, t)) :
    serveReq r s = answer r a (grantTo r t) := by
  simp only [serveReq, h]

/-- A request that is answered from what stands in memory. -/
theorem serveReq_reads {a : Answer} (h : performReq r s = (.answer a, s)) :
    SameMemory s (serveReq r s) ∧ Answered s (serveReq r s) r a := by
  rw [serveReq_answer h]
  exact ⟨answer_same r a s, answered_answer r a (Nat.le_refl _)⟩

/-- A request that cannot be served now: NOT_READY, or a place in the waiter list for a park request (R106). -/
theorem serveReq_stays {a : Answer} (h : performReq r s = (.stay, s)) : AnswersWhen r s (serveReq r s) false a := by
  simp only [serveReq, h, AnswersWhen, Bool.false_eq_true, if_false]
  split
  · exact ⟨answer_same r .notReady s, answered_answer r _ (Nat.le_refl _)⟩
  · split
    · refine ⟨⟨rfl, rfl, rfl⟩, ?_⟩
      have hq : { s.wordQ (r.pa / 8) with waiters := (s.wordQ (r.pa / 8)).waiters ++ [r] } ≠ ({} : WordQ) := fun e => by
        simpa using congrArg WordQ.waiters e
      simp [setWordQ_words hq]
    · exact ⟨answer_same r .full s, answered_answer r _ (Nat.le_refl _)⟩

theorem serveReq_answersWhen {c : Bool} {a : Answer} (h : performReq r s = (if c then .answer a else .stay, s)) :
    AnswersWhen r s (serveReq r s) c a := by
  cases c
  · exact serveReq_stays h
  · exact serveReq_reads h

theorem serveReq_grantsWhen {c : Bool}
    (h : performReq r s = (if c then .grant (.grant (s.word (r.pa / 8 * 8))) else .stay, s)) :
    GrantsWhen r s (serveReq r s) c := by
  cases c
  · exact ⟨serveReq_stays h, nofun⟩
  · rw [serveReq_grant h]
    refine ⟨⟨sameMemory_trans (grantTo_same r s) (answer_same r _ _), answered_answer r _ (grantTo_nextId r s)⟩, fun _ k a hs => ?_⟩
    rw [answer_wordQ]
    exact held_grantTo r s k a hs

end Serve

end Sys2Proof.Machine
end

section
/-! Each memory operation at its point of coherence, where nothing holds its words. -/

namespace Sys2Proof.Machine

open Sys2Proof.Safety

/-! ## Stores (R54, R59) -/

theorem storeData_length {n : Nat} (v hi : Word) (h : n ≤ 16) : (storeData n v hi).length = n := by
  simp [storeData, natBytes_length, h]

theorem storeData_getD {n i : Nat} (v hi : Word) (h : n ≤ 16) (hi' : i < n) :
    (storeData n v hi).getD i 0#8 = BitVec.ofNat 8 ((hi.toNat * 2 ^ 64 + v.toNat) / 2 ^ (8 * i)) := by
  have hp : 2 ^ (8 * i) = 256 ^ i := Nat.pow_mul 2 8 i
  have hv := v.isLt
  have ht : (storeData n v hi).getD i 0#8 = (natBytes 8 v.toNat ++ natBytes 8 hi.toNat).getD i 0#8 := by
    simp [storeData, hi']
  rw [ht, hp]
  by_cases h8 : i < 8
  · rw [List.getD_eq_getElem?_getD, List.getElem?_append_left (by rw [natBytes_length]; exact h8),
      ← List.getD_eq_getElem?_getD, natBytes_getD _ _ _ h8]
    apply BitVec.eq_of_toNat_eq
    have hs : 2 ^ 64 = 256 ^ i * 256 ^ (7 - i) * 256 := by
      calc 2 ^ 64 = 256 ^ 7 * 256 := by decide
        _ = 256 ^ (i + (7 - i)) * 256 := by rw [show i + (7 - i) = 7 by omega]
        _ = 256 ^ i * 256 ^ (7 - i) * 256 := by rw [Nat.pow_add]
    rw [BitVec.toNat_ofNat, BitVec.toNat_ofNat, hs, show hi.toNat * (256 ^ i * 256 ^ (7 - i) * 256) + v.toNat =
      v.toNat + 256 ^ i * (hi.toNat * 256 ^ (7 - i) * 256) by ac_rfl,
      Nat.add_mul_div_left _ _ (Nat.pow_pos (by decide))]
    omega
  · rw [List.getD_eq_getElem?_getD, List.getElem?_append_right (by rw [natBytes_length]; omega),
      ← List.getD_eq_getElem?_getD, natBytes_length, natBytes_getD _ _ _ (by omega)]
    have hs : (256 : Nat) ^ i = 2 ^ 64 * 256 ^ (i - 8) := by
      rw [show (2 : Nat) ^ 64 = 256 ^ 8 by decide, ← Nat.pow_add, show 8 + (i - 8) = i by omega]
    rw [hs, ← Nat.div_div_eq_div_mul]
    congr 2
    omega

/-- A store that does not meet poison in a word that it leaves in part: its bytes and its poison are written. -/
theorem performStore_writes {s : State} (wr : Writer) {pa : Nat} {bs : List Byte} (p : Bool) (h : MemInv s)
    (hw : ¬(¬(pa % 8 = 0 ∧ bs.length % 8 = 0) ∧ s.wordPoisoned pa = true)) :
    ∃ t, performStore wr pa bs p s = (.ack, t) ∧ s.nextId ≤ t.nextId ∧ t.empties = s.empties ∧ MemoryBut s t pa bs.length ∧
      (∀ i < bs.length, t.byte (pa + i) = bs.getD i 0#8) ∧ ∀ i < bs.length, t.wordPoisoned (pa + i) = p := by
  have hi := poisonSpan_inv pa bs.length p s h
  obtain ⟨hm, he⟩ := poisonSpan_mem pa bs.length p s
  have hs := writeMem_same wr pa bs (poisonSpan pa bs.length p s)
  have hn := performStore_nextId wr pa bs p s
  have hq : performStore wr pa bs p s = (.ack, writeMem wr pa bs (poisonSpan pa bs.length p s)) := by
    unfold performStore
    exact if_neg hw
  rw [hq] at hn
  refine ⟨_, hq, hn, hs.2.1.trans he, fun a ha => ?_, fun i hl => ?_, fun i hl => ?_⟩
  · rw [writeMem_but wr pa bs _ hi a ha]
    simp only [State.byte, hm]
  · rw [byte_of_same hs, byte_putBytes_self _ pa bs i hi.1 hl]
  · rw [wordPoisoned_of_same hs]
    exact wordPoisoned_poisonSpan s p h hl

theorem performBytes_nil (wr : Writer) (p : Bool) (n pa : Nat) (s : State) : performBytes wr p n pa [] s = s := by
  cases n <;> rfl

/-- A store changes bytes of its span alone, and no full/empty bit. -/
theorem performStore_but (wr : Writer) (pa : Nat) (bs : List Byte) (p : Bool) (s : State) (h : MemInv s) :
    MemoryBut s (performStore wr pa bs p s).2 pa bs.length ∧ (performStore wr pa bs p s).2.empties = s.empties := by
  by_cases hw : ¬(pa % 8 = 0 ∧ bs.length % 8 = 0) ∧ s.wordPoisoned pa = true
  · have e : performStore wr pa bs p s = (poisonedAt s pa, s) := by
      unfold performStore
      exact if_pos hw
    rw [e]
    exact ⟨fun _ _ => rfl, rfl⟩
  · obtain ⟨t, e, -, he, hb, -⟩ := performStore_writes wr p h hw
    rw [e]
    exact ⟨hb, he⟩

theorem performBytes_but (wr : Writer) (p : Bool) (n pa : Nat) (bs : List Byte) (s : State) (h : MemInv s) :
    MemoryBut s (performBytes wr p n pa bs s) pa bs.length ∧ (performBytes wr p n pa bs s).empties = s.empties := by
  induction n generalizing pa bs s with
  | zero => exact ⟨fun _ _ => rfl, rfl⟩
  | succ n ih =>
    obtain ⟨hb, he⟩ := performStore_but wr pa (bs.take (8 - pa % 8)) p s h
    obtain ⟨hb', he'⟩ := ih (pa + (8 - pa % 8)) (bs.drop (8 - pa % 8)) _ (performStore_inv wr pa _ p s h)
    unfold performBytes
    dsimp only
    split
    · exact ⟨fun _ _ => rfl, rfl⟩
    · refine ⟨fun a ha => ?_, he'.trans he⟩
      rw [List.length_take] at hb
      rw [List.length_drop] at hb'
      rcases Nat.le_total bs.length (8 - pa % 8) with hl | hl
      · rw [List.drop_eq_nil_of_le hl, performBytes_nil, hb a (by omega)]
      · rw [hb' a (by omega), hb a (by omega)]

/-! ## AMADD (R104, R327) -/

/-- A word in memory is its low half and its high half. -/
theorem readN_halves (s : State) (b : Nat) : s.readN b 8 = s.readN b 4 + 2 ^ 32 * s.readN (b + 4) 4 ∧
    s.readN b 4 < 2 ^ 32 ∧ s.readN (b + 4) 4 < 2 ^ 32 :=
  ⟨readN_add s b 4 4, readN_lt s b 4, readN_lt s (b + 4) 4⟩

theorem word_toNat (s : State) (b : Nat) : (s.word b).toNat = s.readN b 8 := by
  have := readN_lt s b 8
  rw [State.word, BitVec.toNat_ofNat, Nat.mod_eq_of_lt]
  omega

/-- An aligned part of a word is the whole of it, its low half or its high half. -/
theorem part_cases {w : Width} {pa : Nat} (h : pa % atomBytes w = 0) :
    (w = .w64 ∧ pa / 8 * 8 = pa) ∨ (w = .w32 ∧ pa % 8 = 0 ∧ pa / 8 * 8 = pa) ∨
      (w = .w32 ∧ pa % 8 = 4 ∧ ∃ b, pa = b + 4 ∧ pa / 8 * 8 = b) := by
  cases w with
  | w64 =>
    simp only [atomBytes, if_true] at h
    exact .inl ⟨rfl, by omega⟩
  | w32 =>
    simp only [atomBytes, reduceCtorEq, if_false] at h
    rcases (show pa % 8 = 0 ∨ pa % 8 = 4 by omega) with h8 | h8
    · exact .inr (.inl ⟨rfl, h8, by omega⟩)
    · exact .inr (.inr ⟨rfl, h8, pa - 4, by omega, by omega⟩)

/-- The part of a word that an operation names is what stands at its address. -/
theorem namedPart_word (s : State) {w : Width} {pa : Nat} (h : pa % atomBytes w = 0) :
    namedPart w pa (s.word (pa / 8 * 8)) = BitVec.ofNat 64 (s.readN pa (atomBytes w)) := by
  rcases part_cases h with ⟨rfl, hb⟩ | ⟨rfl, hm, hb⟩ | ⟨rfl, hm, b, rfl, hb⟩
  · rw [hb]
    rfl
  · obtain ⟨h8, h4, h4'⟩ := readN_halves s pa
    have hp : s.readN pa 8 / 2 ^ (8 * (pa % 8 / 4 * 4)) % 2 ^ 32 = s.readN pa 4 := by
      rw [hm]
      omega
    simp only [namedPart, hb, word_toNat, hp]
    rfl
  · obtain ⟨h8, h4, h4'⟩ := readN_halves s b
    have hp : s.readN b 8 / 2 ^ (8 * ((b + 4) % 8 / 4 * 4)) % 2 ^ 32 = s.readN (b + 4) 4 := by
      rw [hm]
      omega
    simp only [namedPart, hb, word_toNat, hp]
    rfl

/-- A word of which a part has been replaced: the part, and the rest of the word. -/
theorem readN_withPart {s t : State} {w : Width} {pa : Nat} {v : Word} (h : pa % atomBytes w = 0)
    (ht : t.readN (pa / 8 * 8) 8 = (withPart w pa (s.word (pa / 8 * 8)) v).toNat) :
    t.readN pa (atomBytes w) = v.toNat % 2 ^ (8 * atomBytes w) ∧
      ∀ a, pa / 8 * 8 ≤ a → a < pa / 8 * 8 + 8 → (a < pa ∨ pa + atomBytes w ≤ a) → t.byte a = s.byte a := by
  have hv := v.isLt
  rcases part_cases h with ⟨rfl, hb⟩ | ⟨rfl, hm, hb⟩ | ⟨rfl, hm, b, rfl, hb⟩
  · rw [hb] at ht ⊢
    simp only [atomBytes, if_true, withPart] at ht ⊢
    exact ⟨by omega, fun a h1 h2 h3 => by omega⟩
  · obtain ⟨s8, s4, s4'⟩ := readN_halves s pa
    obtain ⟨t8, t4, t4'⟩ := readN_halves t pa
    rw [hb] at ht ⊢
    simp only [atomBytes, reduceCtorEq, if_false, withPart, hm, Nat.zero_lt_succ, if_true, BitVec.toNat_ofNat, word_toNat] at ht ⊢
    have hother : t.readN (pa + 4) 4 = s.readN (pa + 4) 4 := by omega
    refine ⟨by omega, fun a h1 h2 h3 => ?_⟩
    rw [show a = pa + 4 + (a - (pa + 4)) by omega, byte_of_readN t (pa + 4) 4 _ (by omega), hother,
      ← byte_of_readN s (pa + 4) 4 _ (by omega)]
  · obtain ⟨s8, s4, s4'⟩ := readN_halves s b
    obtain ⟨t8, t4, t4'⟩ := readN_halves t b
    rw [hb] at ht ⊢
    simp only [atomBytes, reduceCtorEq, if_false, withPart, hm, Nat.lt_irrefl, BitVec.toNat_ofNat, word_toNat] at ht ⊢
    have hother : t.readN b 4 = s.readN b 4 := by omega
    refine ⟨by omega, fun a h1 h2 h3 => ?_⟩
    rw [show a = b + (a - b) by omega, byte_of_readN t b 4 _ (by omega), hother, ← byte_of_readN s b 4 _ (by omega)]

end Sys2Proof.Machine
end

section
/-! Each memory operation at its point of coherence, where nothing holds its words (R54, R59, R99, R104, R106, R107). -/

namespace Sys2Proof.Machine

open Sys2Proof.Safety

theorem performAdd_adds {s : State} (wr : Writer) {w : Width} {pa : Nat} (v : Word) (h : MemInv s) (ha : pa % atomBytes w = 0)
    (hp : s.wordPoisoned pa = false) :
    ∃ t, performAdd wr pa w v s = (.value (BitVec.ofNat 64 (s.readN pa (atomBytes w))) 0#64 false, t) ∧ s.nextId ≤ t.nextId ∧
      t.readN pa (atomBytes w) = (s.readN pa (atomBytes w) + v.toNat) % 2 ^ (8 * atomBytes w) ∧
      MemoryBut s t pa (atomBytes w) ∧ t.empties = s.empties ∧ t.poison = s.poison := by
  let new := withPart w pa (s.word (pa / 8 * 8)) (BitVec.ofNat 64 (s.readN pa (atomBytes w)) + v)
  have hs := writeMem_same wr (pa / 8 * 8) (natBytes 8 new.toNat) s
  have hr : (writeWord wr (pa / 8 * 8) new s).readN (pa / 8 * 8) 8 = new.toNat := by
    have := new.isLt
    rw [writeWord, readN_of_same hs]
    exact (readN_putN_self s _ 8 _ h).trans (Nat.mod_eq_of_lt this)
  obtain ⟨hpart, hrest⟩ := readN_withPart ha hr
  have hb := writeMem_but wr (pa / 8 * 8) (natBytes 8 new.toNat) s h
  rw [natBytes_length] at hb
  refine ⟨writeWord wr (pa / 8 * 8) new s, ?_, writeMem_nextId wr _ _ s, ?_, fun a ho => ?_, hs.2.1, hs.2.2⟩
  · simp only [performAdd, hp, Bool.false_eq_true, if_false, namedPart_word s ha]
    rfl
  · have hsmall : 8 * atomBytes w ≤ 64 := by cases w <;> decide
    rw [hpart, BitVec.toNat_add, BitVec.toNat_ofNat, Nat.mod_mod_of_dvd _ (Nat.pow_dvd_pow 2 hsmall), Nat.add_mod,
      Nat.mod_mod_of_dvd _ (Nat.pow_dvd_pow 2 hsmall), ← Nat.add_mod]
  · by_cases hin : pa / 8 * 8 ≤ a ∧ a < pa / 8 * 8 + 8
    · exact hrest a hin.1 hin.2 ho
    · exact hb a (by omega)

/-! ## The operations one by one -/

/-- The bits of the token of FESTAT (R110). -/
theorem festatBits (a b c d : Bool) :
    let v := BitVec.ofNat 64 (bitField a + bitField b * 2 + bitField c * 4 + bitField d * 8)
    v.toNat < 16 ∧ v.getLsbD 0 = a ∧ v.getLsbD 1 = b ∧ v.getLsbD 2 = c ∧ v.getLsbD 3 = d := by
  revert a b c d
  decide

/-- The answer leaves memory as the operation has left it. -/
theorem memoryBut_answer {s t : State} {lo n : Nat} (r : Req) (a : Answer) (h : MemoryBut s t lo n) :
    MemoryBut s (answer r a t) lo n :=
  fun x hx => (byte_of_same (answer_same r a t) x).trans (h x hx)

section Ops
variable {r : Req} {s : State}

theorem serve_load {n : Nat} {sg : Bool} (ho : r.op = .load n sg) : Performed r s (serveReq r s) := by
  unfold Performed
  simp only [ho]
  refine serveReq_reads ?_
  simp only [performReq, ho]
  by_cases hp : s.wordPoisoned r.pa = true ∨ n = 16 ∧ s.wordPoisoned (r.pa + 8) = true
  · rw [if_pos hp, if_pos (by simpa using hp)]
    rfl
  · rw [if_neg hp, if_neg (by simpa using hp)]
    congr 3
    · exact BitVec.eq_of_toNat_eq (by simp)

theorem serve_store {n : Nat} {v hi : Word} {p : Bool} (h : MemInv s) (ho : r.op = .store n v hi p) :
    Performed r s (serveReq r s) := by
  unfold Performed
  simp only [ho]
  intro hn
  have hl := storeData_length v hi hn
  have hq : performReq r s = (.answer (performStore r.writer r.pa (storeData n v hi) p s).1,
      (performStore r.writer r.pa (storeData n v hi) p s).2) := by
    simp only [performReq, ho]
  by_cases hw : (r.pa % 8 ≠ 0 ∨ n % 8 ≠ 0) ∧ s.wordPoisoned r.pa = true
  · rw [if_pos hw]
    have e : performStore r.writer r.pa (storeData n v hi) p s = (poisonedAt s r.pa, s) := by
      unfold performStore
      exact if_pos (by rw [hl, Decidable.not_and_iff_not_or_not]; exact hw)
    rw [e] at hq
    exact serveReq_reads hq
  · rw [if_neg hw]
    obtain ⟨t, e, hid, he, hb, hd, hz⟩ := performStore_writes r.writer (bs := storeData n v hi) p h
      (by rw [hl, Decidable.not_and_iff_not_or_not (a := r.pa % 8 = 0)]; exact hw)
    rw [e] at hq
    rw [hl] at hb hd hz
    have hs := answer_same r .ack t
    rw [serveReq_answer hq]
    refine ⟨answered_answer r .ack hid, hs.2.1.trans he, memoryBut_answer r .ack hb, fun i hi' => ?_, fun i hi' => ?_⟩
    · rw [byte_of_same hs, hd i hi', storeData_getD v hi hn hi']
    · rw [wordPoisoned_of_same hs, hz i hi']

theorem serve_amadd {w : Width} {v : Word} {g : Option Nat} (h : MemInv s) (ho : r.op = .amadd w v g) :
    Performed r s (serveReq r s) := by
  unfold Performed
  simp only [ho]
  intro ha
  have hq : performReq r s = (.answer (performAdd r.writer r.pa w v s).1, (performAdd r.writer r.pa w v s).2) := by
    simp only [performReq, ho]
  cases hp : s.wordPoisoned r.pa with
  | true =>
    have e : performAdd r.writer r.pa w v s = (poisonedAt s r.pa, s) := by
      simp only [performAdd, hp, if_true]
    rw [e] at hq
    have := serveReq_reads hq
    rwa [poisonedAt, hp] at this
  | false =>
    obtain ⟨t, e, hid, hr, hb, he, hz⟩ := performAdd_adds r.writer v h ha hp
    rw [e] at hq
    have hs := answer_same r (.value (BitVec.ofNat 64 (s.readN r.pa (atomBytes w))) 0#64 false) t
    rw [serveReq_answer hq]
    exact ⟨answered_answer r _ hid, (readN_of_same hs _ _).trans hr, memoryBut_answer r _ hb, hs.2.1.trans he, hs.2.2.trans hz⟩

theorem serve_sete (h : MemInv s) (ho : r.op = .sete) : Performed r s (serveReq r s) := by
  unfold Performed
  simp only [ho]
  have hq : performReq r s = (.answer .ack, writeFull r.writer r.pa false s) := by simp only [performReq, ho]
  rw [serveReq_answer hq]
  have hs : SameMemory (s.setFull r.pa false) (answer r .ack (writeFull r.writer r.pa false s)) :=
    sameMemory_trans (wroteWord_same _ _ _ _ _) (answer_same r .ack _)
  refine ⟨answered_answer r .ack (wroteWord_nextId r.writer true _ (r.pa / 8) (s.setFull r.pa false)), hs.1, hs.2.2, ?_,
    fun a ha => ?_⟩
  · rw [isFull_of_same hs, isFull_setFull_self s r.pa false h]
  · rw [isFull_of_same hs, isFull_setFull_other s false h ha]

theorem serve_stff {v : Word} {p : Bool} (h : MemInv s) (ho : r.op = .stff v p) : Performed r s (serveReq r s) := by
  unfold Performed
  simp only [ho]
  intro _
  have hq : performReq r s = (.answer .ack, writeAndFill r.writer r.pa v p s) := by simp only [performReq, ho]
  have h1 := setWordPoison_inv s r.pa p h
  have h2 := setFull_inv _ r.pa true h1
  rw [serveReq_answer hq]
  have hs : SameMemory (((s.setWordPoison r.pa p).setFull r.pa true).putWord r.pa v)
      (answer r .ack (writeAndFill r.writer r.pa v p s)) :=
    sameMemory_trans (wroteWord_same _ _ _ _ _) (answer_same r .ack _)
  refine ⟨answered_answer r .ack (wroteWord_nextId r.writer false _ (r.pa / 8)
    (((s.setWordPoison r.pa p).setFull r.pa true).putWord r.pa v)), ?_, ?_, ?_, fun a ha => ?_, fun a ha => ?_⟩
  · rw [word_of_same hs, word_putWord_self _ r.pa v h2]
  · rw [isFull_of_same hs]
    exact isFull_setFull_self _ r.pa true h1
  · rw [wordPoisoned_of_same hs]
    exact wordPoisoned_setWordPoison_self s p h rfl
  · rw [byte_of_same hs]
    exact byte_putBytes_other _ r.pa (natBytes 8 v.toNat) a h2.1 (by rw [natBytes_length]; exact ha)
  · rw [isFull_of_same hs]
    exact isFull_setFull_other (s.setWordPoison r.pa p) true h1 ha

theorem serve_festat (ho : r.op = .festat) : Performed r s (serveReq r s) := by
  unfold Performed
  simp only [ho]
  have hq : performReq r s = (.answer (.value (festatToken s r.pa) 0#64 false), s) := by simp only [performReq, ho]
  obtain ⟨hs, ha⟩ := serveReq_reads hq
  obtain ⟨hlt, h0, h1, h2, h3⟩ := festatBits (s.isFull r.pa) (s.wordPoisoned r.pa) (s.wordQ (r.pa / 8)).held.isSome
    ((s.wordQ (r.pa / 8)).queue != [] || (s.wordQ (r.pa / 8)).waiters != [])
  exact ⟨hs, festatToken s r.pa, ha, hlt, h0, h1, h2, by rw [festatToken, h3]; simp⟩

theorem serve_bytes {bs : List Byte} {p : Bool} (h : MemInv s) (ho : r.op = .bytes bs p) : Performed r s (serveReq r s) := by
  unfold Performed
  simp only [ho]
  have hq : performReq r s = (.answer .ack, performBytes r.writer p (bs.length / 8 + 2) r.pa bs s) := by
    simp only [performReq, ho]
  obtain ⟨hb, he⟩ := performBytes_but r.writer p (bs.length / 8 + 2) r.pa bs s h
  rw [serveReq_answer hq]
  exact ⟨answered_answer r .ack (performBytes_nextId _ _ _ _ _ _), memoryBut_answer r .ack hb, (answer_same r .ack _).2.1.trans he⟩

/-! ### Operations that may wait or hold -/

/-- A read that waits for a condition, where poison is answered first. -/
theorem serve_answersWhen {q c : Bool} {a : Answer}
    (h : performReq r s = (if q then .answer (poisonedAt s r.pa) else if c then .answer a else .stay, s)) :
    if q = true then SameMemory s (serveReq r s) ∧ Answered s (serveReq r s) r (poisonedAt s r.pa)
    else AnswersWhen r s (serveReq r s) c a := by
  cases q
  · exact serveReq_answersWhen h
  · exact serveReq_reads h

/-- The same of an operation that is granted the word. -/
theorem serve_grantsWhen {q c : Bool}
    (h : performReq r s = (if q then .answer (poisonedAt s r.pa)
      else if c then .grant (.grant (s.word (r.pa / 8 * 8))) else .stay, s)) :
    if q = true then SameMemory s (serveReq r s) ∧ Answered s (serveReq r s) r (poisonedAt s r.pa)
    else GrantsWhen r s (serveReq r s) c := by
  cases q
  · exact serveReq_grantsWhen h
  · exact serveReq_reads h

/-- An operation that no point of coherence performs as a request leaves memory alone. -/
theorem serve_stay (h : performReq r s = (.stay, s)) : SameMemory s (serveReq r s) := (serveReq_stays (a := .ack) h).1

theorem serve_ldff (ho : r.op = .ldff) : Performed r s (serveReq r s) := by
  unfold Performed
  simp only [ho]
  exact serve_answersWhen (by simp only [performReq, ho]; rfl)

theorem serve_mwait {v : Word} (ho : r.op = .mwait v) : Performed r s (serveReq r s) := by
  unfold Performed
  simp only [ho]
  refine serve_answersWhen ?_
  simp only [performReq, ho, decide_eq_true_eq]
  rfl

theorem barGen_eq (v : Word) : barGen v = v.toNat / 2 ^ 48 := by
  have := v.isLt
  unfold barGen fld
  omega

theorem barBroken_eq (v : Word) : barBroken v = v.getLsbD 63 := by
  rw [barBroken, bitOf, BitVec.getLsbD, Nat.testBit_eq_decide_div_mod_eq]
  rfl

theorem serve_barw {g : Nat} (ho : r.op = .barw g) : Performed r s (serveReq r s) := by
  unfold Performed
  simp only [ho]
  refine serve_answersWhen ?_
  simp only [performReq, ho]
  show (if objectPoisoned s r.pa then Wake.answer (poisonedAt s r.pa)
    else if barGen (s.word (r.pa / 8 * 8)) ≠ g ∨ barBroken (s.word (r.pa + 8)) then
      .answer (.value (barwToken (s.word (r.pa / 8 * 8)) (s.word (r.pa + 8))) 0#64 false) else .stay, s) = _
  simp only [barwToken, barGen_eq, barBroken_eq, Bool.or_eq_true, decide_eq_true_eq, bitField]
  cases (s.word (r.pa + 8)).getLsbD 63 <;> simp

theorem serve_ldsync (ho : r.op = .ldsync) : Performed r s (serveReq r s) := by
  unfold Performed
  simp only [ho]
  exact serve_grantsWhen (by simp only [performReq, ho]; rfl)

theorem serve_stsync {v : Word} {p : Bool} (ho : r.op = .stsync v p) : Performed r s (serveReq r s) := by
  unfold Performed
  simp only [ho]
  refine serve_grantsWhen ?_
  simp only [performReq, ho]
  show (if s.wordPoisoned r.pa then Wake.answer (poisonedAt s r.pa) else if s.isFull r.pa then .stay
    else .grant (.grant (s.word (r.pa / 8 * 8))), s) = _
  cases s.isFull r.pa <;> rfl

end Ops

/-- A request that is served does what its operation does. -/
theorem serveReq_performed (r : Req) (s : State) (h : MemInv s) : Performed r s (serveReq r s) := by
  cases ho : r.op with
  | load n sg => exact serve_load ho
  | store n v hi p => exact serve_store h ho
  | bytes bs p => exact serve_bytes h ho
  | amadd w v g => exact serve_amadd h ho
  | sete => exact serve_sete h ho
  | stff v p => exact serve_stff h ho
  | festat => exact serve_festat ho
  | ldff => exact serve_ldff ho
  | mwait v => exact serve_mwait ho
  | barw g => exact serve_barw ho
  | ldsync => exact serve_ldsync ho
  | stsync v p => exact serve_stsync ho
  | rsv _ | cas _ _ _ | swap _ _ | amin _ _ _ | amax _ _ _ =>
    unfold Performed
    simp only [ho]
    exact serve_grantsWhen (c := true) (by simp only [performReq, ho]; rfl)
  | rel _ _ | reln _ | barj | bara | barx | arm _ | phase _ | zfree _ _ | zrsv _ | breakBar | turn =>
    unfold Performed
    simp only [ho]
    exact serve_stay (by simp only [performReq, ho]; rfl)

end Sys2Proof.Machine
end

section
/-! Requests of other modules at their target (R15, R20, R80, R162, R169). -/

namespace Sys2Proof.Machine

open Sys2Proof.Safety

/-! ## Taking a message out of flight changes no check and no word -/

theorem checkRemote_drop (s : State) (id k m : Nat) (op : MemOp) (va : Nat) :
    checkRemote (s.drop id) k m op va = checkRemote s k m op va := rfl

theorem blockedAt_drop (s : State) (id : Nat) (r : Req) : blockedAt (s.drop id) r = blockedAt s r := rfl

theorem performed_of_drop {s t : State} {id : Nat} {r : Req} (h : Performed r (s.drop id) t) : Performed r s t := by
  have hr (a n : Nat) : (s.drop id).readN a n = s.readN a n := readN_of_same (s := s) (t := s.drop id) ⟨rfl, rfl, rfl⟩ a n
  unfold Performed at h ⊢
  cases ho : r.op <;> simp only [ho, hr] at h ⊢ <;> exact h

/-! ## What a request does that has arrived -/

/-- A request that persists at no point of coherence is admitted as it is. -/
theorem arriveReq_open {r : Req} {s : State} (hp : r.persists = false) (hb : blockedAt s r = none) :
    arriveReq r s = serveReq r s := by
  simp only [arriveReq, hb, admitted, hp, Bool.false_eq_true, if_false]

section Serve
variable {s : State} {k m : Nat} {r : Req} (hrel : ∀ w v, r.op ≠ .rel w v) (hreln : ∀ w, r.op ≠ .reln w)
include hrel hreln

/-- A module that performs no RADD answers UNSUP (R169). -/
theorem remoteServe_unsup (h : (r.op.addend.isSome && !(s.module m).addRemote) = true) :
    remoteServe k m r s = answer r .unsup s := by
  unfold remoteServe
  split
  · exact absurd ‹_› (hrel _ _)
  · exact absurd ‹_› (hreln _)
  · rw [if_pos h]

/-- Any other request is checked at its target (R20, R162). -/
theorem remoteServe_fault {f : Trap} (h : (r.op.addend.isSome && !(s.module m).addRemote) = false)
    (hc : checkRemote s k m r.op r.pa = .fault f) :
    remoteServe k m r s = answer r (.fault (remoteFault m (m * 2 ^ 48 + r.pa) f)) s := by
  unfold remoteServe
  split
  · exact absurd ‹_› (hrel _ _)
  · exact absurd ‹_› (hreln _)
  · rw [h]
    simp only [Bool.false_eq_true, if_false, hc]

theorem remoteServe_at {pa : Nat} (h : (r.op.addend.isSome && !(s.module m).addRemote) = false)
    (hc : checkRemote s k m r.op r.pa = .at pa) :
    remoteServe k m r s = if regionOf (pa % 2 ^ 48) = some .control then s.send (.req { r with pa := pa })
      else arriveReq { r with pa := pa, trans := (remoteAsid s k m).map fun a => (a, r.pa, s.nextId) } s := by
  unfold remoteServe
  split
  · exact absurd ‹_› (hrel _ _)
  · exact absurd ‹_› (hreln _)
  · rw [h]
    simp only [Bool.false_eq_true, if_false, hc]

end Serve

/-- An add is an AMADD. -/
theorem addend_isSome {op : MemOp} (h : op.addend.isSome = true) : ∃ w v g, op = .amadd w v g := by
  cases op with
  | amadd w v g => exact ⟨w, v, g, rfl⟩
  | _ => cases h

theorem remoteFault_info {m va : Nat} {t : Trap} (h : t.cause ≠ 0x07) : (remoteFault m va t).info = t.info + 1024 + m * 65536 := by
  have hn : ¬(t.cause = causePoison ∧ t.info % 16 = 0) := fun hc => h hc.1
  rw [remoteFault, if_neg hn]

theorem remoteFault_cause_addr (m va : Nat) (t : Trap) :
    (remoteFault m va t).cause = t.cause ∧ (remoteFault m va t).addr = va := by
  unfold remoteFault
  split <;> exact ⟨rfl, rfl⟩

section Arrival
variable {s : State} {msg core seq k m : Nat} {r : Req} (hm : tabFind s.net msg = some (.remote core seq k m r))
include hm

theorem remoteArrival_stays (h : arrives s msg m = false ∨ remoteBefore s k m seq r = true) :
    exec (.remoteRequestArrival msg) s = .next s := by
  show execRemoteRequestArrival msg s = _
  simp only [execRemoteRequestArrival, hm]
  exact congrArg _ (if_pos (by simpa using h))

theorem remoteArrival_serves (ha : arrives s msg m = true) (hb : remoteBefore s k m seq r = false) :
    exec (.remoteRequestArrival msg) s = .next (remoteServe k m r (s.drop msg)) := by
  show execRemoteRequestArrival msg s = _
  simp only [execRemoteRequestArrival, hm, ha, hb, Bool.not_true, Bool.or_self, Bool.false_eq_true, if_false]

end Arrival

/-- Settles O44: the packet is served by `remoteServe`, each of whose outcomes is one clause; at an open word of memory it
performs as any request does (`serveReq_performed`). -/
theorem remoteRequestsServed : Obligations.RemoteRequestsServed := by
  unfold Obligations.RemoteRequestsServed
  intro s msg core seq k m r hinv hm
  refine ⟨remoteArrival_stays hm, fun w v g ha hb ho hadd => ?_, fun ha hb hrel hreln hper hadd => ⟨fun f hc => ?_, fun pa hc => ?_⟩⟩
  · rw [remoteArrival_serves hm ha hb, remoteServe_unsup (by simp [ho]) (by simp [ho])]
    · exact ⟨_, rfl, answer_same r .unsup _, answered_answer r .unsup (Nat.le_refl _)⟩
    · rw [ho]
      exact congrArg Bool.not hadd
  all_goals
    have hsup : (r.op.addend.isSome && !((s.drop msg).module m).addRemote) = false := by
      rw [Bool.and_eq_false_iff, Bool.not_eq_false']
      cases hs : r.op.addend.isSome with
      | false => exact .inl rfl
      | true => exact .inr (hadd (addend_isSome hs))
  · obtain ⟨hcause, haddr⟩ := remoteFault_cause_addr m (m * 2 ^ 48 + r.pa) f
    rw [remoteArrival_serves hm ha hb, remoteServe_fault hrel hreln hsup hc]
    exact ⟨_, _, rfl, answer_same r _ _, answered_answer r _ (Nat.le_refl _), hcause, haddr, remoteFault_info⟩
  · rw [remoteArrival_serves hm ha hb, remoteServe_at hrel hreln hsup hc]
    refine ⟨fun hreg hopen => ?_, fun hreg => ?_⟩
    · rw [if_neg hreg]
      exact ⟨_, _, congrArg _ (arriveReq_open hper hopen), performed_of_drop (serveReq_performed _ (s.drop msg) hinv)⟩
    · rw [if_pos hreg]
      exact ⟨_, rfl, ⟨rfl, rfl, rfl⟩, tabFind_tabPut_self _ _ _⟩

end Sys2Proof.Machine
end

section
/-! An ERET at a slot of another module (R378, R381). -/

namespace Sys2Proof.Machine

open Sys2Proof.Safety

/-- The first slot of module 1. -/
def farSlot : Nat := 8192 * 16

/-- Slot 0, in module 0, has committed an ERET of `farSlot`, which holds no thread. -/
def farEret : State := { slots := [(0, { post := [(0, .eret farSlot none)] })] }

/-- The misuse is counted in the module of the slot that the ERET names. -/
theorem farEret_acts : actOne 0 0 (.eret farSlot none) farEret =
    some ((postDone 0 farEret).modModule 1 fun m => { m with taskMisuse := m.taskMisuse + 1 }) := rfl

/-- The module of the slot that has issued it counts nothing. -/
theorem farEret_uncounted : (((postDone 0 farEret).modModule 1 fun m => { m with taskMisuse := m.taskMisuse + 1 }).module
    (slotModule 0)).taskMisuse = (farEret.module (slotModule 0)).taskMisuse := rfl

/-- Refutes O43: an ERET that is a misuse counts in the module of the slot that it names, not in that of its issuer; in
`farEret` these differ. -/
theorem not_actionsAct : ¬ Obligations.ActionsAct := by
  unfold Obligations.ActionsAct
  rintro ⟨⟨-, -, -, eret, -⟩, -⟩
  obtain ⟨-, misuse⟩ := eret farEret 0 0 farSlot none (farEret.slot farSlot) ⟨rfl, [], rfl⟩ (by decide) rfl
  obtain ⟨t, ht, -, -, -, counted⟩ := misuse (.inr (.inr ⟨by decide, by decide⟩))
  rw [farEret_acts] at ht
  cases ht
  rw [farEret_uncounted] at counted
  exact absurd counted (Nat.succ_ne_self _).symm

end Sys2Proof.Machine
end

section
/-! The start of a page walk where its turn at a word ends (R28, R29, R99). -/

namespace Sys2Proof.Machine

open Sys2Proof.Safety

/-- A miss that the walker may take, whose level-4 table lies at the base of tier-2 memory. -/
def openMiss : Walk := { cluster := 0, asid := 0, va := 0, base := 0x20000000000 }

/-- The walk of message number 0 holds the word at address 0 for a turn, and a store of one byte is queued behind it. -/
def turnWalk : State :=
  { walks := [(0, openMiss)]
    words := [(0, { held := some (Source.key (.msg 0), 0, 0)
                    queue := [{ src := .slot 0 0, op := .store 1 1#64 0#64 false, pa := 0 }] })] }

/-- PAGE_WALK_START ends the turn, and the store is performed. -/
theorem turnWalk_starts : ∃ t, exec (.pageWalkStart 0) turnWalk = .next t ∧ t.mem = [(0, 1#8)] := ⟨_, rfl, rfl⟩

/-- Refutes O28: in `turnWalk` no other miss is listed, the walk starts, and memory does not keep its bytes. -/
theorem not_translationsChange : ¬ Obligations.TranslationsChange := by
  unfold Obligations.TranslationsChange
  rintro ⟨start, -⟩
  obtain ⟨-, goes⟩ := start turnWalk 0 openMiss rfl rfl rfl
  obtain ⟨t, ht, ⟨hmem, -⟩, -⟩ := goes (by decide) (by decide) (by decide) (by decide)
  obtain ⟨u, hu, written⟩ := turnWalk_starts
  obtain rfl : u = t := by
    rw [hu] at ht
    injection ht
  rw [hmem] at written
  cases written

end Sys2Proof.Machine
end

section
/-! Corrected errors of a structure that has no counter (R58, R419). -/

namespace Sys2Proof.Machine

open Sys2Proof.Safety

/-- Module 0 keeps a fifth number after the four counters of R419. -/
def fiveCounters : State := { modules := [(0, { ceCounts := [0, 0, 0, 0, 0] })] }

/-- The 4-byte unit at the base of control space, which is no structure of R419. -/
def controlUnit : Nat := 0xF0000000000 / 4

/-- A corrected error there adds to the fifth number. -/
theorem fiveCounters_scrubbed : ∃ t, exec (.patrolScrub controlUnit 1) fiveCounters = .next t ∧
    (t.module (controlUnit * 4 / 2 ^ 48)).ceCounts.getD 4 0 = 1 := ⟨_, rfl, rfl⟩

/-- No counter is given for it. -/
theorem countedAs_controlUnit : countedAs (controlUnit * 4) 4 = false := by decide

/-- Refutes O50: the statement holds every number of the list for a counter of R419, and PATROL_SCRUB counts what has no counter
in the one after them where the list goes on, as in `fiveCounters`. -/
theorem not_powerAndControlSpace : ¬ Obligations.PowerAndControlSpace := by
  unfold Obligations.PowerAndControlSpace
  rintro ⟨⟨-, -, -, scrub, -⟩, -⟩
  obtain ⟨-, ⟨t, ht, -, -, counts⟩, -⟩ := scrub fiveCounters controlUnit
  obtain ⟨u, hu, counted⟩ := fiveCounters_scrubbed
  obtain rfl : u = t := by
    rw [hu] at ht
    injection ht
  rw [counts 4, countedAs_controlUnit] at counted
  cases counted

end Sys2Proof.Machine
end

section
/-! Numbers of the timelines as they retire (R127, R140). -/

namespace Sys2Proof.Machine

open Sys2Proof.Safety

/-- Counting numbers never takes one back. -/
theorem advanceTimeline_le (ctx n : Nat) (c : Core) : c.tl ctx ≤ (advanceTimeline ctx n c).tl ctx := by
  induction n generalizing c with
  | zero => exact Nat.le_refl _
  | succ n ih =>
    unfold advanceTimeline
    dsimp only
    split
    · refine Nat.le_trans (Nat.le_succ _) (Nat.le_trans (Nat.le_of_eq ?_) (ih _))
      simp [Core.tl]
    · exact Nat.le_refl _

@[simp] theorem advanceTimeline_tlerr (ctx n : Nat) (c : Core) : (advanceTimeline ctx n c).tlerr = c.tlerr := by
  induction n generalizing c with
  | zero => rfl
  | succ n ih =>
    unfold advanceTimeline
    dsimp only
    split
    · rw [ih]
    · rfl

/-- A number that is next is counted. -/
theorem advanceTimeline_next {ctx n : Nat} {c : Core} (h : c.retired.contains (ctx, c.tl ctx + 1) = true) :
    c.tl ctx + 1 ≤ (advanceTimeline ctx (n + 1) c).tl ctx := by
  simp only [advanceTimeline, h, if_true]
  refine Nat.le_trans (Nat.le_of_eq ?_) (advanceTimeline_le ctx n _)
  simp [Core.tl]

/-- A core that has noted a number as retired, and the error with which it did (R140). -/
def Core.noted (c : Core) (ctx n : Nat) (ok : Bool) : Core := { c with
  retired := c.retired ++ [(ctx, n)]
  tlerr := if ok then c.tlerr else c.tlerr ||| BitVec.ofNat 64 (2 ^ ctx) }

theorem retireNumber_core (core ctx n : Nat) (ok : Bool) (s : State) : (retireNumber core ctx n ok s).core core =
    advanceTimeline ctx ((s.core core).retired.length + 1) ((s.core core).noted ctx n ok) := by
  simp [retireNumber, Core.noted]

/-- A number that retires with an error sets the bit of its context (R140). -/
theorem retireNumber_tlerr (core ctx n : Nat) (ok : Bool) (s : State) : ((retireNumber core ctx n ok s).core core).tlerr =
    if ok then (s.core core).tlerr else (s.core core).tlerr ||| BitVec.ofNat 64 (2 ^ ctx) := by
  rw [retireNumber_core, advanceTimeline_tlerr]
  rfl

/-- A number that is next on its timeline is counted as it retires (R127). -/
theorem retireNumber_counts {core ctx n : Nat} (ok : Bool) {s : State} (h : n = (s.core core).tl ctx + 1) :
    n ≤ ((retireNumber core ctx n ok s).core core).tl ctx := by
  subst h
  rw [retireNumber_core]
  exact advanceTimeline_next (c := (s.core core).noted ctx _ ok) (by simp [Core.noted, Core.tl])

end Sys2Proof.Machine
end

section
/-! Collectives: COLL, the tree of R170, and the result at a member (R127, R140, R170, R361, R390, R393). -/

namespace Sys2Proof.Machine

open Sys2Proof.Safety

/-! ## COLL (R361) -/

/-- The mode in which a COLL adds. -/
def collMode (rm : Bool) (j : Inst) : Rounding := if rm then fmodeOf j.fpc0 .fpc else .rne

/-- COLL registers its contribution, to be made at commit. -/
def collEnter (o : Fired) (v : BitVec 3) (y : CollTy) (op : CollOp) (mode : Rounding) (reg : Nat) (s : State) : State :=
  setNode o .fired (s.modInst o.slot fun j => j.putAction o.node (.coll v.toNat y op mode o.l reg))

section Coll
variable {s : State} {p : Pred} {t : Tgt} {rm : Bool} {y : CollTy} {op : CollOp} {v : BitVec 3} {o : Fired} {j : Inst}
  (hf : FiresClean s (.coll p t rm y op v) o)
include hf

/-- On a level of which the thread is no live member, COLL raises ILLEGAL. -/
theorem exec_coll_illegal (h : s.phaseOf o.slot v.toNat = none) :
    exec (.coll p t rm y op v) s = .next (raise o.slot (illegalAt o.node) s) := by
  show execColl p t rm y op v s = _
  unfold execColl
  rw [checkedShell_of_fires _ hf]
  simp only [h]

/-- On a level of the thread's it resolves its PUT and registers its contribution. -/
theorem exec_coll (hj : InstIs s o.slot j) (h : s.phaseOf o.slot v.toNat ≠ none) : exec (.coll p t rm y op v) s =
    .next (pendPut o t (fun reg => collEnter o v y op (collMode rm j) (reg.getD 0)) s) := by
  obtain ⟨c, hc⟩ := Option.ne_none_iff_exists'.1 h
  have hm : (if rm then fmodeOf (s.fpc0 o.slot) .fpc else .rne) = collMode rm j := by
    unfold InstIs at hj
    simp only [State.fpc0, hj, collMode]
  show execColl p t rm y op v s = _
  unfold execColl
  rw [checkedShell_of_fires _ hf]
  simp only [hc, hm]
  rfl

end Coll

/-- The contribution changes the slot of its thread alone. -/
theorem collEnter_slot {s : State} {o : Fired} {j : Inst} (v : BitVec 3) (y : CollTy) (op : CollOp) (mode : Rounding) (reg : Nat)
    (hj : InstIs s o.slot j) : OnlySlot o.slot s (collEnter o v y op mode reg s) ∧
    (collEnter o v y op mode reg s).slot o.slot = { s.slot o.slot with
      inst := some (stand (j.putAction o.node (.coll v.toNat y op mode o.l reg)) o.node .fired) } := by
  unfold InstIs at hj
  exact ⟨onlySlot_trans (onlySlot_modInst s o.slot _) (onlySlot_modInst _ o.slot _), by simp [collEnter, setNode, hj, stand]⟩

/-- The running block with a PUT resolved as carrying a pending reply (R361). -/
def pendOn (j : Inst) (n reg : Nat) : Inst :=
  let used := j.modNode n fun y => { y with left := some (.data 0#64 false), st := .fired }
  { used with pends := used.pends ++ [reg] }

/-- Without a PUT there is no register to pend. -/
theorem pendPut_none {s : State} {o : Fired} {j : Inst} (go : Option Nat → State → State) (hj : InstIs s o.slot j) :
    pendPut o .none go s = go none s := by
  unfold InstIs at hj
  simp only [pendPut, hj, Inst.putOf]

/-- An idle PUT of a register that nothing else of the block writes, and for which no reply is pending, is resolved. -/
theorem pendPut_pends {s : State} {o : Fired} {j : Inst} (go : Option Nat → State → State) (hj : InstIs s o.slot j) {c : BitVec 5}
    {x : Node} {q : Pred} {r : BitVec 6} (hx : j.nodes[c.toNat]? = some x) (hi : x.instr = some (.put q r)) (hl : x.left = none)
    (hst : x.st = .idle) (hr : j.hasReg r.toNat = false) (hp : (tabGet j.regs0 r.toNat {}).pending = false) :
    pendPut o (.to .left c) go s =
      go (some r.toNat) (s.modSlot o.slot fun sl => { sl with inst := some (pendOn j c.toNat r.toNat) }) := by
  unfold InstIs at hj
  have hput : j.putOf (.to .left c) = some (c.toNat, r.toNat) := by simp only [Inst.putOf, hx, hi]
  have hget : j.nodes.getD c.toNat default = x := by rw [List.getD_eq_getElem?_getD, hx]; rfl
  have hres : ¬x.st = .resolved := by rw [hst]; decide
  simp only [pendPut, hj, hput, hget, hl, Option.isSome_none, Bool.false_eq_true, if_false, if_neg hres, hr, hp, Bool.and_false]
  simp only [pendOn, Inst.modNode, List.modify_modify_eq]
  rfl

/-- What COLL leaves of the running block where its PUT is resolved. -/
theorem pendOn_entered {j : Inst} {x : Node} {n c reg : Nat} (a : Action) (hne : n ≠ c) (hx : j.nodes[c]? = some x) :
    let i := stand ((pendOn j c reg).putAction n a) n .fired
    i.pends = j.pends ++ [reg] ∧ i.puts = j.puts ∧ tabFind i.actions n = some a ∧ ∃ z, i.nodes[c]? = some z ∧ z.st = .fired := by
  refine ⟨rfl, rfl, tabFind_tabPut_self _ _ _, ?_⟩
  simp [stand, pendOn, Inst.putAction, Inst.modNode, hne, hx]

/-! ## The tree of R170 -/

/-- A level of the tree halves the values. -/
theorem collLevel_length (f : Word → Word → Word) (vs : List Word) : (collLevel f vs).length = (vs.length + 1) / 2 := by
  induction vs using collLevel.induct with
  | case1 a b rest ih =>
    simp only [collLevel, List.length_cons, ih]
    omega
  | case2 l h =>
    rcases l with _ | ⟨a, _ | ⟨b, l⟩⟩
    · rfl
    · simp [collLevel]
    · exact absurd rfl (h a b l)

/-- What every level keeps between the values and a result, and a single value has, the tree has. -/
theorem collTree_of_level {f : Word → Word → Word} (R : List Word → Word → Prop) (hone : ∀ v, R [v] v)
    (hlevel : ∀ vs x, R (collLevel f vs) x → R vs x) (n : Nat) (vs : List Word) (hne : vs ≠ []) (hlen : vs.length ≤ 2 ^ n) :
    R vs (collTree f n vs) := by
  induction n generalizing vs with
  | zero =>
    rcases vs with _ | ⟨a, _ | ⟨b, vs⟩⟩
    · exact absurd rfl hne
    · exact hone a
    · simp at hlen
  | succ n ih =>
    rcases vs with _ | ⟨a, _ | ⟨b, vs⟩⟩
    · exact absurd rfl hne
    · exact hone a
    · refine hlevel _ _ (ih _ (by simp [collLevel]) ?_)
      rw [collLevel_length]
      omega

/-- A level of additions keeps the sum. -/
theorem collLevel_sum (vs : List Word) : (collLevel (collStep .s64 .add .rne) vs).sum = vs.sum := by
  induction vs using collLevel.induct with
  | case1 a b rest ih =>
    simp only [collLevel, List.sum_cons, ih]
    exact BitVec.add_assoc a b rest.sum
  | case2 l h =>
    rcases l with _ | ⟨a, _ | ⟨b, l⟩⟩
    · rfl
    · rfl
    · exact absurd rfl (h a b l)

theorem sOf_w64 (x : Word) : sOf .w64 x = x.toInt := by
  have := x.isLt
  simp only [sOf, signedOf, uOf, widthBits, BitVec.toInt]
  omega

/-- The lesser of two S64 values, the first of equals. -/
theorem collStep_min (a b : Word) : collStep .s64 .min .rne a b = if b.toInt < a.toInt then b else a := by
  simp only [collStep, sOf_w64]

/-- `x` is the least of the values, as signed numbers. -/
def LeastOf (vs : List Word) (x : Word) : Prop := x ∈ vs ∧ ∀ v ∈ vs, x.toInt ≤ v.toInt

/-- Each value of a level of minima is one of those below it, and none below it is less than all of the level. -/
theorem collLevel_min (vs : List Word) : (∀ x ∈ collLevel (collStep .s64 .min .rne) vs, x ∈ vs) ∧
    ∀ v ∈ vs, ∃ x ∈ collLevel (collStep .s64 .min .rne) vs, x.toInt ≤ v.toInt := by
  induction vs using collLevel.induct with
  | case1 a b rest ih =>
    obtain ⟨hmem, hle⟩ := ih
    simp only [collLevel, List.mem_cons, forall_eq_or_imp, exists_eq_or_imp, collStep_min]
    refine ⟨⟨?_, fun x hx => .inr (.inr (hmem x hx))⟩, .inl ?_, .inl ?_, fun v hv => .inr (hle v hv)⟩
    · split <;> simp
    · split <;> omega
    · split <;> omega
  | case2 l h =>
    rcases l with _ | ⟨a, _ | ⟨b, l⟩⟩
    · exact ⟨nofun, nofun⟩
    · exact ⟨fun _ h => h, fun v hv => ⟨v, hv, Int.le_refl _⟩⟩
    · exact absurd rfl (h a b l)

theorem leastOf_of_level {vs : List Word} {x : Word} (h : LeastOf (collLevel (collStep .s64 .min .rne) vs) x) : LeastOf vs x := by
  obtain ⟨hx, hle⟩ := h
  obtain ⟨hmem, hbelow⟩ := collLevel_min vs
  refine ⟨hmem x hx, fun v hv => ?_⟩
  obtain ⟨u, hu, huv⟩ := hbelow v hv
  exact Int.le_trans (hle u hu) huv

/-! ## The result at a member (R361, R393) -/

/-- The record of a failed collective, in numbers (R63, R390). -/
theorem collTrap_eq (reg number : Nat) : collTrap reg number =
    { cause := 0x07, addr := reg, info := 6 * 16 + 256 + reg * 2 ^ 16, origin := 2, seq := number, block := 6 } := by
  simp [collTrap, causePoison, dataInfo, bitField]

/-- The pending record of a failed collective. -/
def collRecord (x : Collective) (reg number : Nat) : List Trap := if x.error then [collTrap reg number] else []

/-- The result enters a register that waits for it, and the slot no longer awaits it. -/
theorem collWrite_slot {k reg : Nat} {s : State} (tag : Nat) (v : Word) (bad : Bool) (hk : k < 2 ^ 64) (hr : reg ≠ 0)
    (hp : ((s.slot k).reg reg).pending = true) : SameMemory s (collWrite k tag reg v bad s) ∧
    (collWrite k tag reg v bad s).cores = s.cores ∧ ((collWrite k tag reg v bad s).slot k).pending = (s.slot k).pending ∧
    ((collWrite k tag reg v bad s).slot k).reg reg = { val := v, poison := bad } := by
  have hlow : ¬k ≥ 2 ^ 64 := Nat.not_le.2 hk
  have hw : ¬(reg = 0 ∨ ¬((s.slot k).reg reg).pending = true) := by simp [hr, hp]
  simp only [collWrite, if_pos hk, replyReg, if_neg hw, modThread, if_neg hlow]
  refine ⟨⟨rfl, rfl, rfl⟩, rfl, ?_, ?_⟩
  · simp [Slot.setReg, hr]
  · simp [Slot.reg, Slot.setReg, hr]

/-- A member's thread has the result, and the record of a failure. -/
def collGiven (k tag reg number : Nat) (x : Collective) (s : State) : State :=
  let s := collWrite k tag reg x.result x.error s
  if x.error then pendTrap k (collTrap reg number) s else s

theorem collGiven_slot {k reg : Nat} {s : State} (tag number : Nat) (x : Collective) (hk : k < 2 ^ 64) (hr : reg ≠ 0)
    (hp : ((s.slot k).reg reg).pending = true) : SameMemory s (collGiven k tag reg number x s) ∧
    (collGiven k tag reg number x s).cores = s.cores ∧
    ((collGiven k tag reg number x s).slot k).pending = (s.slot k).pending ++ collRecord x reg number ∧
    ((collGiven k tag reg number x s).slot k).reg reg = { val := x.result, poison := x.error } := by
  obtain ⟨hm, hc, hpend, hreg⟩ := collWrite_slot tag x.result x.error hk hr hp
  unfold collGiven collRecord
  dsimp only
  split
  · exact ⟨hm, hc, by simp [pendTrap, hpend], by simpa [pendTrap, Slot.reg] using hreg⟩
  · exact ⟨hm, hc, by simp [hpend], hreg⟩

/-- The contribution of a tag is the one that is found. -/
theorem find_contribution {x : Collective} {v : Contribution} {tag : Nat} (hv : v ∈ x.vals) (ht : v.tag = tag)
    (hu : ∀ w ∈ x.vals, w.tag = tag → w = v) : x.vals.find? (fun w => w.tag == tag) = some v := by
  obtain ⟨w, hw⟩ : ∃ w, x.vals.find? (fun w : Contribution => w.tag == tag) = some w :=
    Option.isSome_iff_exists.1 (List.find?_isSome.2 ⟨v, hv, beq_iff_eq.2 ht⟩)
  have hwt : (w.tag == tag) = true := List.find?_some (p := fun w : Contribution => w.tag == tag) hw
  rw [hw, hu w (List.mem_of_find?_eq_some hw) (beq_iff_eq.1 hwt)]

/-- COLLECTIVE_RESULT gives a member its result, and its number retires; the collective may be forgotten with it. -/
theorem exec_collectiveResult {s : State} {msg id tag k reg : Nat} {x : Collective} {v : Contribution}
    (hm : tabFind s.net msg = some (.collective id tag)) (hx : tabFind s.collectives id = some x)
    (hh : collHolder s tag = some (k, reg)) (hk : k < 2 ^ 64) (hv : x.vals.find? (fun w => w.tag == tag) = some v) :
    ∃ cs, exec (.collectiveResult msg) s = .next
      { retireNumber v.core 6 v.number (!x.error) (collGiven k tag reg v.number x (s.drop msg)) with collectives := cs } := by
  have hd : collHolder (s.drop msg) tag = some (k, reg) := hh
  have ht (n : Nat) (t : Trap) (u : State) : threadTrap k n t u = pendTrap k t u := if_neg (Nat.not_le.2 hk)
  show ∃ cs, execCollectiveResult msg s = _
  simp only [execCollectiveResult, hm, hx, hd, hv, ht, Option.map_some, Option.getD_some]
  have hg : (if x.error = true then pendTrap k (collTrap reg v.number) (collWrite k tag reg x.result x.error (s.drop msg))
      else collWrite k tag reg x.result x.error (s.drop msg)) = collGiven k tag reg v.number x (s.drop msg) := rfl
  simp only [hg]
  split
  · exact ⟨_, rfl⟩
  · exact ⟨_, rfl⟩

section Coll
variable {s : State} {p : Pred} {t : Tgt} {rm : Bool} {y : CollTy} {op : CollOp} {v : BitVec 3} {o : Fired} {j : Inst}
  (hf : FiresClean s (.coll p t rm y op v) o) (hj : InstIs s o.slot j) (h : s.phaseOf o.slot v.toNat ≠ none)
include hf hj h

/-- A COLL without a register. -/
theorem coll_without_register (ht : t = .none) : ∃ w, exec (.coll p t rm y op v) s = .next w ∧ OnlySlot o.slot s w ∧
    w.slot o.slot = { s.slot o.slot with
      inst := some (stand (j.putAction o.node (.coll v.toNat y op (collMode rm j) o.l 0)) o.node .fired) } := by
  subst ht
  rw [exec_coll hf hj h, pendPut_none _ hj]
  exact ⟨_, rfl, collEnter_slot v y op _ 0 hj⟩

/-- A COLL with a register: the register pends, and its PUT is done. -/
theorem coll_with_register {c : BitVec 5} {x : Node} {q : Pred} {r : BitVec 6} (ht : t = .to .left c) (hne : o.node ≠ c.toNat)
    (hx : j.nodes[c.toNat]? = some x) (hi : x.instr = some (.put q r)) (hl : x.left = none) (hst : x.st = .idle)
    (hr : j.hasReg r.toNat = false) (hp : (tabGet j.regs0 r.toNat {}).pending = false) :
    ∃ w i, exec (.coll p t rm y op v) s = .next w ∧ OnlySlot o.slot s w ∧ InstIs w o.slot i ∧ i.pends = j.pends ++ [r.toNat] ∧
      i.puts = j.puts ∧ tabFind i.actions o.node = some (.coll v.toNat y op (collMode rm j) o.l r.toNat) ∧
      ∃ z, i.nodes[c.toNat]? = some z ∧ z.st = .fired := by
  subst ht
  have hj' : InstIs (s.modSlot o.slot fun sl => { sl with inst := some (pendOn j c.toNat r.toNat) }) o.slot
      (pendOn j c.toNat r.toNat) := by simp [InstIs]
  obtain ⟨hframe, hslot⟩ := collEnter_slot v y op (collMode rm j) r.toNat hj'
  rw [exec_coll hf hj h, pendPut_pends _ hj hx hi hl hst hr hp]
  exact ⟨_, _, rfl, onlySlot_trans (onlySlot_modSlot s o.slot _) hframe, congrArg Slot.inst hslot, pendOn_entered _ hne hx⟩

end Coll

/-- Settles O47: COLL by what its PUT resolves to, the tree by what each level keeps, and the result by what is written at its
member and how its number retires. -/
theorem collectivesReduce : Obligations.CollectivesReduce := by
  unfold Obligations.CollectivesReduce
  refine ⟨fun s p t rm y op v o j hf hj => ⟨fun h => ?_, coll_without_register hf hj, fun c x q r h => coll_with_register hf hj h⟩,
    fun vs hne hlen => ⟨?_, ?_⟩, by decide +kernel, fun s msg id tag k reg x v hm hx hh hk hreg hp hv htag huniq => ?_⟩
  · rw [exec_coll_illegal hf h, illegalAt_eq]
  · exact collTree_of_level (fun vs x => x = vs.sum) (fun v => by simp) (fun vs x h => h.trans (collLevel_sum vs)) 32 vs hne hlen
  · obtain ⟨hmem, hle⟩ := collTree_of_level LeastOf (fun v => ⟨by simp, by simp⟩) (fun vs x h => leastOf_of_level h) 32 vs hne hlen
    exact ⟨hmem, fun v hv => by rw [BitVec.sle_iff_toInt_le]; exact hle v hv⟩
  · obtain ⟨cs, he⟩ := exec_collectiveResult hm hx hh hk (find_contribution hv htag huniq)
    obtain ⟨hmem, hcores, hpend, hval⟩ := collGiven_slot (s := s.drop msg) tag v.number x hk hreg hp
    rw [collRecord, collTrap_eq] at hpend
    have hcore : (collGiven k tag reg v.number x (s.drop msg)).core v.core = s.core v.core := by
      simp only [State.core, hcores]
      rfl
    refine ⟨_, he, hmem, hval, hpend, fun hn => retireNumber_counts _ ?_, ?_⟩
    · rw [hcore]
      exact hn
    · refine (retireNumber_tlerr v.core 6 v.number (!x.error) _).trans ?_
      rw [hcore]
      cases x.error <;> rfl

end Sys2Proof.Machine
end

section
/-! Turns where no word is held, and what a write leaves of the state around memory (R77, R99, R107). -/

namespace Sys2Proof.Machine

open Sys2Proof.Safety

/-! ## Tables -/

/-- What is found is listed. -/
theorem mem_of_tabFind {α : Type} {t : Tab α} {k : Nat} {v : α} (h : tabFind t k = some v) : (k, v) ∈ t := by
  induction t with
  | nil => cases h
  | cons p t ih =>
    unfold tabFind at h
    split at h
    · rename_i e
      cases h
      exact e ▸ List.mem_cons_self
    · split at h
      · cases h
      · exact List.mem_cons_of_mem _ (ih h)

/-- A write lists its entry and nothing else new. -/
theorem mem_tabPut {α : Type} {t : Tab α} {k : Nat} {v : α} {p : Nat × α} (h : p ∈ tabPut t k v) : p = (k, v) ∨ p ∈ t := by
  induction t with
  | nil => simpa [tabPut] using h
  | cons q t ih =>
    unfold tabPut at h
    split at h
    · rcases List.mem_cons.1 h with h | h
      · exact .inl h
      · exact .inr (List.mem_cons_of_mem _ h)
    · split at h
      · exact List.mem_cons.1 h
      · rcases List.mem_cons.1 h with rfl | h
        · exact .inr List.mem_cons_self
        · exact (ih h).imp_right (List.mem_cons_of_mem _)

/-- A removal lists nothing new. -/
theorem mem_tabDel {α : Type} {t : Tab α} {k : Nat} {p : Nat × α} (h : p ∈ tabDel t k) : p ∈ t := by
  induction t with
  | nil => cases h
  | cons q t ih =>
    unfold tabDel at h
    split at h
    · exact List.mem_cons_of_mem _ h
    · split at h
      · exact h
      · rcases List.mem_cons.1 h with rfl | h
        · exact List.mem_cons_self
        · exact List.mem_cons_of_mem _ (ih h)

/-! ## Where no word is held -/

/-- A word that nobody holds, and at which no party waits for its turn. -/
def OpenWord (q : WordQ) : Prop := q.held = none ∧ ∀ r ∈ q.queue, r.op ≠ .turn

/-- Where the words are open, each is. -/
theorem openWord_of_idle {s : State} (h : Idle s) (w : Nat) : OpenWord (s.wordQ w) := by
  unfold State.wordQ tabGet
  cases hf : tabFind s.words w with
  | none => exact ⟨rfl, fun _ hr => absurd hr List.not_mem_nil⟩
  | some q => exact h.2 _ (mem_of_tabFind hf)

/-- A word that stays open. -/
theorem idle_setWordQ {s : State} (h : Idle s) (w : Nat) {q : WordQ} (hq : OpenWord q) : Idle (s.setWordQ w q) := by
  refine ⟨h.1, fun p hp => ?_⟩
  have hp' : p ∈ if q = {} then tabDel s.words w else tabPut s.words w q := hp
  split at hp'
  · exact h.2 p (mem_tabDel hp')
  · rcases mem_tabPut hp' with rfl | hp'
    · exact hq
    · exact h.2 p hp'

section Idle
variable {s : State} (h : Idle s)
include h

theorem firstBusy_of_idle (src : Source) (ws : List Nat) : firstBusy s src ws = none := by
  refine List.find?_eq_none.2 fun w _ => ?_
  simp [mayTake, (openWord_of_idle h w).1]

theorem barBusy_of_idle (src : Source) (pa : Nat) : barBusy s src pa = none := by
  unfold barBusy
  split
  · rfl
  · exact firstBusy_of_idle h src _

/-- No party has a place. -/
theorem placesOf_of_idle (src : Source) : placesOf s src = [] := by
  unfold placesOf
  rw [List.map_eq_nil_iff, List.filter_eq_nil_iff]
  intro p hp
  obtain ⟨hheld, hqueue⟩ := h.2 p hp
  have hq : p.2.queue.any (fun r => r.placeOf src) = false := by
    rw [List.any_eq_false]
    intro r hr
    simp [Req.placeOf, hqueue r hr]
  simp [hheld, hq]

/-- A turn that nobody has ends with nothing. -/
theorem endTurn_of_idle (src : Source) : endTurn src s = s := by
  simp only [endTurn, placesOf_of_idle h, overAll, h.1, List.filter_nil]
  rw [← h.1]

/-- A zone slot's change is made at once. -/
theorem zoneTurn_of_idle (src : Source) (x : ZoneSlot) (f : State → State) : zoneTurn src x f s = endTurn src (f s) := by
  have hb : zoneBusy s src x = none := by
    simp only [zoneBusy, firstBusy_of_idle h, barBusy_of_idle h]
    rfl
  simp only [zoneTurn, hb]

end Idle

/-! ## What a write leaves around memory -/

/-- The two states agree on which words are open, on the clock, on the zones, and on which copies there are and tag an
object. -/
structure Around (s t : State) : Prop where
  idle : Idle s → Idle t
  now : t.now = s.now
  zones : ∀ c, (t.core c).zslots = (s.core c).zslots
  tagged : ∀ id, (tabFind t.copies id).map Copy.tagged = (tabFind s.copies id).map Copy.tagged

theorem Around.refl (s : State) : Around s s := ⟨id, rfl, fun _ => rfl, fun _ => rfl⟩

theorem Around.trans {s t u : State} (h : Around s t) (k : Around t u) : Around s u :=
  ⟨k.idle ∘ h.idle, k.now.trans h.now, fun c => (k.zones c).trans (h.zones c), fun id => (k.tagged id).trans (h.tagged id)⟩

theorem Around.zoneSlot {s t : State} (h : Around s t) (c z n : Nat) : t.zoneSlot c z n = s.zoneSlot c z n := by
  simp only [State.zoneSlot, h.zones]

theorem around_overAll {α : Type} (f : α → State → State) (hf : ∀ x s, Around s (f x s)) (l : List α) (s : State) :
    Around s (overAll f l s) :=
  overAll_keeps (Around s) f (fun x t h => h.trans (hf x t)) l s (.refl s)

theorem around_send (s : State) (m : Msg) : Around s (s.send m) := ⟨id, rfl, fun _ => rfl, fun _ => rfl⟩

theorem around_drop (s : State) (id : Nat) : Around s (s.drop id) := ⟨fun h => h, rfl, fun _ => rfl, fun _ => rfl⟩

theorem around_setWordPoison (s : State) (pa : Nat) (p : Bool) : Around s (s.setWordPoison pa p) :=
  ⟨id, rfl, fun _ => rfl, fun _ => rfl⟩

theorem around_answer (r : Req) (a : Answer) (s : State) : Around s (answer r a s) := by
  unfold answer
  split <;> exact around_send s _

/-- A change of a core that leaves its zones alone. -/
theorem modCore_zslots {f : Core → Core} (s : State) (c m : Nat) (hf : ∀ x, (f x).zslots = x.zslots) :
    ((s.modCore c f).core m).zslots = (s.core m).zslots := by
  by_cases hm : m = c
  · rw [hm, State.modCore_core, hf]
  · rw [State.modCore_core_other s f hm]

theorem around_fireWatch (wr : Writer) (c n : Nat) (w : Watch) (pa : Nat) (b : Bool) (s : State) :
    Around s (fireWatch wr c n w pa b s) :=
  Around.trans (t := s.modCore c fun x => { x with watches := tabPut x.watches n { w with addr := w.addr &&& ~~~(1#64 <<< 63) } })
    ⟨id, rfl, fun m => modCore_zslots s c m fun _ => rfl, fun _ => rfl⟩ (around_send _ _)

theorem around_watchWord (wr : Writer) (pa : Nat) (b : Bool) (s : State) : Around s (watchWord wr pa b s) :=
  around_overAll _ (fun p t => around_overAll _ (fun q u => by
    split
    · exact around_fireWatch wr p.1 q.1 q.2 pa b u
    · exact .refl u) _ t) _ s

/-- What a read that waits for a value does now (R99, R107). -/
theorem evaluate_mwait (s : State) (pa : Nat) (r : Word) : evaluate s (.mwait r) pa =
    if s.wordPoisoned pa then .answer (poisonedAt s pa)
    else if r.toNat ≤ (s.word (pa / 8 * 8)).toNat then .answer (.value (s.word (pa / 8 * 8)) 0#64 false) else .stay := by
  unfold evaluate
  rfl

/-- What a wait at a barrier object does now (R114, R115). -/
theorem evaluate_barw (s : State) (pa g : Nat) : evaluate s (.barw g) pa =
    if objectPoisoned s pa then .answer (poisonedAt s pa)
    else if barGen (s.word (pa / 8 * 8)) ≠ g ∨ barBroken (s.word (pa + 8)) then
      .answer (.value (barwToken (s.word (pa / 8 * 8)) (s.word (pa + 8))) 0#64 false)
    else .stay := by
  unfold evaluate
  rfl

theorem answer_or_stay {p q : Prop} [Decidable p] [Decidable q] (x y a : Answer) :
    (if p then Wake.answer x else if q then .answer y else .stay) ≠ .grant a := by
  split
  · simp
  · split <;> simp

/-- A request that waits for a value is never granted the word. -/
theorem evaluate_not_grant {op : MemOp} (h : op.waitsForValue = true) (s : State) (pa : Nat) (a : Answer) :
    evaluate s op pa ≠ .grant a := by
  cases op with
  | mwait r =>
    rw [evaluate_mwait]
    exact answer_or_stay _ _ a
  | barw g =>
    rw [evaluate_barw]
    exact answer_or_stay _ _ a
  | _ => cases h

/-- The waiters of a word that a write wakes leave without holding it. -/
theorem around_scanWaiters (w : Nat) (rs : List Req) (s : State) (h : ∀ r ∈ rs, r.op.waitsForValue = true) :
    Around s (scanWaiters w rs s) := by
  induction rs generalizing s with
  | nil => exact .refl s
  | cons r rs ih =>
    have hrs := fun x hx => h x (List.mem_cons_of_mem r hx)
    unfold scanWaiters
    dsimp only
    split
    · exact ih s hrs
    · have hleave : Around s (s.setWordQ w { s.wordQ w with waiters := (s.wordQ w).waiters.erase r }) :=
        ⟨fun hi => idle_setWordQ hi w (openWord_of_idle hi w), rfl, fun _ => rfl, fun _ => rfl⟩
      exact (hleave.trans (around_answer r _ _)).trans (ih _ hrs)
    · rename_i e
      exact absurd e (evaluate_not_grant (h r List.mem_cons_self) s r.pa _)

theorem around_wroteWord (wr : Writer) (b : Bool) (w : Nat) (s : State) : Around s (wroteWord wr b false w s) := by
  refine ((around_watchWord wr (w * 8) b s).trans (around_scanWaiters w _ _ ?_)).trans (around_scanWaiters (w - 1) _ _ ?_)
  · intro r hr
    simpa using (List.mem_filter.1 hr).2
  · intro r hr
    have hop := (List.mem_filter.1 hr).2
    cases ho : r.op with
    | barw g => rfl
    | _ => simp [ho] at hop

theorem around_writeMem (wr : Writer) (pa : Nat) (bs : List Byte) (s : State) : Around s (writeMem wr pa bs s) :=
  Around.trans (t := s.putBytes pa bs) ⟨id, rfl, fun _ => rfl, fun _ => rfl⟩
    (around_overAll _ (fun w t => around_wroteWord wr false w t) _ _)

end Sys2Proof.Machine
end

section
/-! Landing zones: packets fill a slot, its stamp lands or poisons it (R149, R154, R155). -/

namespace Sys2Proof.Machine

open Sys2Proof.Safety

/-! ## The units of a span -/

/-- The units follow one another from one address to another. -/
def Abut : Nat → List (Nat × Nat) → Nat → Prop
  | pa, [], hi => pa = hi
  | pa, (a, n) :: us, hi => a = pa ∧ Abut (pa + n) us hi

theorem abut_append {lo mid hi : Nat} {us vs : List (Nat × Nat)} (h : Abut lo us mid) (k : Abut mid vs hi) : Abut lo (us ++ vs) hi := by
  induction us generalizing lo with
  | nil =>
    obtain rfl : lo = mid := h
    exact k
  | cons u us ih => exact ⟨h.1, ih h.2⟩

/-- Units of one size. -/
theorem abut_equal (pa n k : Nat) : Abut pa ((List.range k).map fun i => (pa + n * i, n)) (pa + n * k) := by
  induction k with
  | zero => rfl
  | succ k ih =>
    rw [List.range_succ, List.map_append]
    refine abut_append ih ⟨rfl, ?_⟩
    show pa + n * k + n = pa + n * (k + 1)
    rw [Nat.mul_succ, Nat.add_assoc]

theorem le_of_abut {lo hi : Nat} {us : List (Nat × Nat)} (h : Abut lo us hi) : lo ≤ hi := by
  induction us generalizing lo with
  | nil => exact Nat.le_of_eq h
  | cons u us ih => exact Nat.le_trans (Nat.le_add_right lo u.2) (ih h.2)

/-- The units of a run of bytes cover it. -/
theorem unitAddrs_abut (va n : Nat) : Abut va (unitAddrs va n) (va + n) := by
  unfold unitAddrs
  dsimp only
  generalize hf : min n ((8 - va % 8) % 8) = first
  generalize hw : (n - first) / 8 = whole
  have h1 := abut_equal va 1 first
  have h8 := abut_equal (va + first) 8 whole
  have ht := abut_equal (va + first + 8 * whole) 1 (n - first - 8 * whole)
  simp only [Nat.one_mul] at h1 ht
  rw [show va + first + 8 * whole + (n - first - 8 * whole) = va + n by omega] at ht
  exact abut_append (abut_append h1 h8) ht

/-! ## Writing units -/

/-- An acknowledgement that leaves memory alone, wherever a condition holds that neither it nor a write ends. -/
structure QuietAck (P : State → Prop) (ack : Nat → State → State) : Prop where
  same : ∀ n s, P s → SameMemory s (ack n s)
  around : ∀ n s, P s → Around s (ack n s)
  keeps : ∀ s t, Around s t → P s → P t

/-- One unit is written: the poison of its word, and its bytes. -/
def writeUnit (wr : Writer) (pa n : Nat) (bs : List (Byte × Bool)) (s : State) : State :=
  writeMem wr pa (bs.map fun b => b.1)
    (if bs.any fun b => b.2 then s.setWordPoison pa true else if n = 8 then s.setWordPoison pa false else s)

theorem writeUnits_cons (wr : Writer) (ack : Nat → State → State) (pa n : Nat) (us : List (Nat × Nat)) (bs : List (Byte × Bool))
    (s : State) : writeUnits wr ack ((pa, n) :: us) bs s =
      writeUnits wr ack us (bs.drop n) (ack n (writeUnit wr pa n (bs.take n) s)) := rfl

theorem writeUnit_writes (wr : Writer) (pa n : Nat) (bs : List (Byte × Bool)) {s : State} (h : MemInv s) :
    Around s (writeUnit wr pa n bs s) ∧ MemInv (writeUnit wr pa n bs s) ∧ MemoryBut s (writeUnit wr pa n bs s) pa bs.length ∧
      ∀ i b, bs[i]? = some b → (writeUnit wr pa n bs s).byte (pa + i) = b.1 := by
  unfold writeUnit
  generalize hs1 : (if (bs.any fun b => b.2) = true then s.setWordPoison pa true
    else if n = 8 then s.setWordPoison pa false else s) = s1
  have h1 : Around s s1 ∧ MemInv s1 ∧ s1.mem = s.mem := by
    subst hs1
    split
    · exact ⟨around_setWordPoison s pa true, setWordPoison_inv s pa true h, rfl⟩
    · split
      · exact ⟨around_setWordPoison s pa false, setWordPoison_inv s pa false h, rfl⟩
      · exact ⟨.refl s, h, rfl⟩
  obtain ⟨haround, hinv, hmem⟩ := h1
  refine ⟨haround.trans (around_writeMem wr pa _ s1), writeMem_inv wr pa _ s1 hinv, fun a ha => ?_, fun i b hb => ?_⟩
  · rw [writeMem_but wr pa _ s1 hinv a (by simpa using ha), State.byte, State.byte, hmem]
  · obtain ⟨hi, hget⟩ := List.getElem?_eq_some_iff.1 hb
    rw [byte_of_same (writeMem_same wr pa _ s1), byte_putBytes_self s1 pa _ i hinv.1 (by simpa using hi)]
    simp [hb]

/-- Units that follow one another take their bytes, and no other byte changes. -/
theorem writeUnits_writes {P : State → Prop} {ack : Nat → State → State} (hq : QuietAck P ack) (wr : Writer)
    (us : List (Nat × Nat)) {pa : Nat} {bs : List (Byte × Bool)} {s : State} (hus : Abut pa us (pa + bs.length)) (hp : P s)
    (hm : MemInv s) : Around s (writeUnits wr ack us bs s) ∧ MemoryBut s (writeUnits wr ack us bs s) pa bs.length ∧
      ∀ i b, bs[i]? = some b → (writeUnits wr ack us bs s).byte (pa + i) = b.1 := by
  induction us generalizing pa bs s with
  | nil =>
    have hb : bs = [] := List.eq_nil_of_length_eq_zero (by have : pa = pa + bs.length := hus; omega)
    subst hb
    exact ⟨.refl s, fun _ _ => rfl, fun i b h => by simp at h⟩
  | cons u us ih =>
    obtain ⟨a, n⟩ := u
    obtain ⟨rfl, hus⟩ := hus
    have hn : n ≤ bs.length := by have := le_of_abut hus; omega
    obtain ⟨har1, hinv1, hbut1, hbytes1⟩ := writeUnit_writes wr a n (bs.take n) hm
    have hp1 := hq.keeps _ _ har1 hp
    have hsame := hq.same n _ hp1
    have har2 := har1.trans (hq.around n _ hp1)
    have hrest : a + n + (bs.drop n).length = a + bs.length := by rw [List.length_drop]; omega
    obtain ⟨har, hbut, hbytes⟩ := ih (pa := a + n) (bs := bs.drop n) (hrest ▸ hus) (hq.keeps _ _ har2 hp) (sameMemory_inv hsame hinv1)
    rw [List.length_take, Nat.min_eq_left hn] at hbut1
    rw [List.length_drop] at hbut
    rw [writeUnits_cons]
    refine ⟨har2.trans har, fun x hx => ?_, fun i b hb => ?_⟩
    · rw [hbut x (by omega), byte_of_same hsame, hbut1 x (by omega)]
    · by_cases hi : i < n
      · rw [hbut _ (by omega), byte_of_same hsame, hbytes1 i b (by rw [List.getElem?_take_of_lt hi, hb])]
      · have hd : (bs.drop n)[i - n]? = some b := by rw [List.getElem?_drop, ← hb]; congr 1; omega
        rw [← hbytes (i - n) b hd]
        congr 1
        omega

/-! ## A packet fills its slot -/

/-- The send tags no object. -/
def Untagged (copy : Nat) (s : State) : Prop := (tabFind s.copies copy).map Copy.tagged ≠ some true

/-- In a zone without arrival barrier, a send that tags no object counts the bytes that have landed and does nothing else. -/
theorem landUnit_untagged {copy : Nat} {x : ZoneSlot} {s : State} (n : Nat) (hbar : x.bar = 0) (h : Untagged copy s) :
    landUnit copy x n s = s.modCopy copy fun y => { y with put := y.put + n } := by
  simp only [landUnit, if_pos hbar]
  cases hc : tabFind s.copies copy with
  | none => simp only [State.modCopy, hc]
  | some c =>
    have ht : ¬c.tagged = true := by simpa [Untagged, hc] using h
    simp only [Copy.land, if_neg ht]

/-- Changing a copy without its tag leaves what is around memory. -/
theorem around_modCopy (s : State) (id : Nat) {f : Copy → Copy} (hf : ∀ c, (f c).tagged = c.tagged) : Around s (s.modCopy id f) := by
  unfold State.modCopy
  cases hc : tabFind s.copies id with
  | none => exact .refl s
  | some c =>
    refine ⟨fun h => h, rfl, fun _ => rfl, fun m => ?_⟩
    by_cases hm : m = id
    · subst hm
      simp [hc, hf]
    · exact congrArg _ (tabFind_tabPut_other s.copies (f c) hm)

theorem modCopy_same (s : State) (id : Nat) (f : Copy → Copy) : SameMemory s (s.modCopy id f) := by
  unfold State.modCopy
  split <;> exact ⟨rfl, rfl, rfl⟩

theorem quietAck_landUnit (copy : Nat) {x : ZoneSlot} (hbar : x.bar = 0) : QuietAck (Untagged copy) (landUnit copy x) where
  same n s h := by rw [landUnit_untagged n hbar h]; exact modCopy_same s copy _
  around n s h := by rw [landUnit_untagged n hbar h]; exact around_modCopy s copy fun _ => rfl
  keeps s t h hs := by unfold Untagged; rw [h.tagged]; exact hs

/-- A zone slot that is set. -/
theorem setZoneSlot_self (s : State) (core z n : Nat) (x : ZoneSlot) : (s.setZoneSlot core z n x).zoneSlot core z n = x := by
  simp [State.setZoneSlot, State.zoneSlot]

theorem fillSlot_fills {s : State} {core z n copy off : Nat} {bytes : List (Byte × Bool)} {x : ZoneSlot} (hm : MemInv s)
    (hidle : Idle s) (hbar : x.bar = 0) (hu : Untagged copy s) :
    Idle (fillSlot core z n copy off bytes x s) ∧
    (fillSlot core z n copy off bytes x s).zoneSlot core z n = { x with
      st := .filling, send := copy, landed := x.landed + bytes.length
      timer := zoneTimer s (tabGet (s.core core).zdesc z 0#64).toNat } ∧
    MemoryBut s (fillSlot core z n copy off bytes x s) (x.base + off) bytes.length ∧
    ∀ i b, bytes[i]? = some b → (fillSlot core z n copy off bytes x s).byte (x.base + off + i) = b.1 := by
  obtain ⟨har, hbut, hbytes⟩ := writeUnits_writes (quietAck_landUnit copy hbar) (landingWriter x.sender)
    (unitAddrs (x.base + off) bytes.length) (unitAddrs_abut (x.base + off) bytes.length) hu hm
  refine ⟨har.idle hidle, ?_, hbut, hbytes⟩
  simp only [fillSlot, setZoneSlot_self, zoneTimer, har.now]

end Sys2Proof.Machine
end

section
/-! Landing zones: a slot's stamp, and the events of a slot (R149, R154, R155). -/

namespace Sys2Proof.Machine

open Sys2Proof.Safety

/-- A slot changes and is stamped. -/
def stampSlot (core z n : Nat) (x y : ZoneSlot) (v : Word) (s : State) : State := writeStamp x v (s.setZoneSlot core z n y)

theorem stampSlot_stamps {s : State} (core z n : Nat) (x y : ZoneSlot) (v : Word) (hm : MemInv s) (hidle : Idle s) :
    Idle (stampSlot core z n x y v s) ∧ s.nextId ≤ (stampSlot core z n x y v s).nextId ∧
    (stampSlot core z n x y v s).zoneSlot core z n = y ∧ (stampSlot core z n x y v s).word x.stamp = v ∧
    MemoryBut s (stampSlot core z n x y v s) x.stamp 8 := by
  generalize hs1 : (s.setZoneSlot core z n y).setWordPoison x.stamp false = s1
  have hinv : MemInv s1 := hs1 ▸ setWordPoison_inv (s.setZoneSlot core z n y) x.stamp false hm
  have har : Around (s.setZoneSlot core z n y) s1 := hs1 ▸ around_setWordPoison _ _ _
  have hmem : s1.mem = s.mem := hs1 ▸ rfl
  have hid : s1.nextId = s.nextId := hs1 ▸ rfl
  have he : stampSlot core z n x y v s = writeWord (landingWriter x.sender) x.stamp v s1 := by rw [← hs1]; rfl
  rw [he]
  have har2 := har.trans (around_writeMem (landingWriter x.sender) x.stamp (natBytes 8 v.toNat) s1)
  refine ⟨har2.idle hidle, hid ▸ writeMem_nextId _ _ _ s1, (har2.zoneSlot core z n).trans (setZoneSlot_self s core z n y), ?_,
    fun a ha => ?_⟩
  · rw [writeWord, word_of_same (writeMem_same _ _ _ s1)]
    exact word_putWord_self s1 x.stamp v hinv
  · rw [writeWord, writeMem_but _ _ _ s1 hinv a (by rw [natBytes_length]; exact ha), State.byte, State.byte, hmem]

/-- A slot that lands is stamped with its sequence number, and its sender hears of it. -/
theorem landSlot_lands {s : State} (core z n copy : Nat) (x : ZoneSlot) (hm : MemInv s) (hidle : Idle s) :
    Idle (landSlot core z n copy x s) ∧ ((landSlot core z n copy x s).zoneSlot core z n).st = .landed ∧
    (landSlot core z n copy x s).word x.stamp = BitVec.ofNat 64 x.seq ∧ MemoryBut s (landSlot core z n copy x s) x.stamp 8 ∧
    ∃ id, s.nextId ≤ id ∧ tabFind (landSlot core z n copy x s).net id = some (.landAck copy true) := by
  obtain ⟨hi, hid, hslot, hword, hbut⟩ := stampSlot_stamps core z n x { x with st := .landed, timer := none }
    (BitVec.ofNat 64 x.seq) hm hidle
  exact ⟨hi, congrArg ZoneSlot.st hslot, hword, hbut, _, hid, tabFind_tabPut_self _ _ _⟩

/-- A slot of a zone without arrival barrier that is poisoned gets the failure stamp, and a send in it fails. -/
theorem poisonSlot_poisons {s : State} (core z n : Nat) {x : ZoneSlot} (hbar : x.bar = 0) (hm : MemInv s) (hidle : Idle s) :
    Idle (poisonSlot core z n x s) ∧ ((poisonSlot core z n x s).zoneSlot core z n).st = .poisoned ∧
    (poisonSlot core z n x s).word x.stamp = BitVec.allOnes 64 ∧ MemoryBut s (poisonSlot core z n x s) x.stamp 8 ∧
    (x.send ≠ 0 → ∃ id, s.nextId ≤ id ∧ tabFind (poisonSlot core z n x s).net id = some (.landAck x.send false)) := by
  obtain ⟨hi, hid, hslot, hword, hbut⟩ := stampSlot_stamps core z n x { x with st := .poisoned, timer := none }
    (BitVec.allOnes 64) hm hidle
  have he : poisonSlot core z n x s = if x.send = 0 then stampSlot core z n x { x with st := .poisoned, timer := none } (BitVec.allOnes 64) s
      else (stampSlot core z n x { x with st := .poisoned, timer := none } (BitVec.allOnes 64) s).send (.landAck x.send false) := by
    simp only [poisonSlot, if_pos hbar]
    rfl
  rw [he]
  split
  · exact ⟨hi, congrArg ZoneSlot.st hslot, hword, hbut, fun h => absurd ‹_› h⟩
  · exact ⟨hi, congrArg ZoneSlot.st hslot, hword, hbut, fun _ => ⟨_, hid, tabFind_tabPut_self _ _ _⟩⟩

/-! ## Packets -/

/-- A packet matches a reservation that waits for it, or the one that its send has begun to fill. -/
def PacketFits (x : ZoneSlot) (copy sender name grant total : Nat) : Prop :=
  x.fits sender name grant total = true ∧ (x.st = .reserved ∨ x.st = .filling ∧ x.send = copy)

theorem packetFits_iff (x : ZoneSlot) (copy sender name grant total : Nat) : PacketFits x copy sender name grant total ↔
    (x.fits sender name grant total && (x.st == .reserved || (x.st == .filling && x.send == copy))) = true := by
  simp [PacketFits]

section Packet
variable {s : State} {m copy sender name grant total off : Nat} {bytes : List (Byte × Bool)}
  (hm : tabFind s.net m = some (.landing copy sender name grant total off bytes))
  (ha : arrives s m (zoneModule name) = true) (hidle : Idle s)
include hm ha hidle

/-- A packet that matches no reservation is refused. -/
theorem landingPacket_refused (h : ¬PacketFits (s.zoneSlot (zoneCore name) (zoneNum name) (grantSlot grant)) copy sender name grant total) :
    exec (.landingPacket m) s = .next ((s.drop m).send (.landAck copy false)) := by
  rw [packetFits_iff] at h
  show execLandingPacket m s = _
  simp only [execLandingPacket, hm, ha, Bool.not_true, Bool.false_eq_true, if_false, if_neg h,
    endTurn_of_idle ((around_drop s m).idle hidle)]

/-- A packet that matches one fills its slot. -/
theorem landingPacket_fills (h : PacketFits (s.zoneSlot (zoneCore name) (zoneNum name) (grantSlot grant)) copy sender name grant total)
    (ht : total ≠ 0) : exec (.landingPacket m) s = .next (endTurn (.msg m) (fillSlot (zoneCore name) (zoneNum name) (grantSlot grant)
      copy off bytes (s.zoneSlot (zoneCore name) (zoneNum name) (grantSlot grant)) (s.drop m))) := by
  have hb (x : ZoneSlot) : packetBusy s (.msg m) copy off bytes.length x = none := by
    simp only [packetBusy, firstBusy_of_idle hidle, barBusy_of_idle hidle]
    cases tabFind s.copies copy with
    | none => rfl
    | some c => simp
  rw [packetFits_iff] at h
  show execLandingPacket m s = _
  simp only [execLandingPacket, hm, ha, Bool.not_true, Bool.false_eq_true, if_false, if_pos h, if_neg ht, hb]

end Packet

/-! ## The events of a slot -/

/-- A slot with all its bytes lands. -/
theorem exec_slotLanded {s : State} {core z n : Nat} (hz : z < 4) (hidle : Idle s) (hst : (s.zoneSlot core z n).st = .filling)
    (hb : (s.zoneSlot core z n).landed = (s.zoneSlot core z n).bytes) : exec (.slotLanded (4 * core + z) n) s =
      .next (endTurn (zoneParty (4 * core + z) n)
        (landSlot core z n (s.zoneSlot core z n).send (s.zoneSlot core z n) s)) := by
  have hc : (4 * core + z) / 4 = core := by omega
  have hr : (4 * core + z) % 4 = z := by omega
  show execSlotLanded (4 * core + z) n s = _
  simp only [execSlotLanded, hc, hr, if_pos (And.intro hst hb), zoneTurn_of_idle hidle]

/-- Why a slot times out: its timer, its sender's module, or its zone (R149). -/
def TimesOut (s : State) (core z : Nat) (x : ZoneSlot) : Prop :=
  (∃ e, x.timer = some e ∧ e ≤ s.now) ∨ slotModule x.sender ∈ (s.module (coreModule core)).lostModules ∨
    (tabGet (s.core core).zdesc z 0#64).toNat % 2 = 0

theorem exec_zoneSlotTimeout {s : State} {core z n : Nat} (hz : z < 4) (hidle : Idle s)
    (hst : (s.zoneSlot core z n).st = .reserved ∨ (s.zoneSlot core z n).st = .filling)
    (hd : TimesOut s core z (s.zoneSlot core z n)) : exec (.zoneSlotTimeout (4 * core + z) n) s =
      .next (endTurn (zoneParty (4 * core + z) n) (poisonSlot core z n (s.zoneSlot core z n) s)) := by
  have hc : (4 * core + z) / 4 = core := by omega
  have hr : (4 * core + z) % 4 = z := by omega
  show execZoneSlotTimeout (4 * core + z) n s = _
  simp only [execZoneSlotTimeout, hc, hr, zoneTurn_of_idle hidle]
  refine congrArg _ (if_pos ⟨hst, ?_⟩)
  rcases hd with ⟨e, he, hle⟩ | hl | ho
  · exact .inl (by simp [he, hle])
  · exact .inr (.inl (by simpa using hl))
  · exact .inr (.inr (by simp [zdEn, bitOf, ho]))

/-- An abort that matches a slot under way poisons it. -/
theorem exec_senderAbort {s : State} {m copy sender name grant : Nat} (hm : tabFind s.net m = some (.abort copy sender name grant))
    (ha : arrives s m (zoneModule name) = true) (hidle : Idle s)
    (hf : (s.zoneSlot (zoneCore name) (zoneNum name) (grantSlot grant)).fits sender name grant
      (s.zoneSlot (zoneCore name) (zoneNum name) (grantSlot grant)).bytes = true)
    (hst : (s.zoneSlot (zoneCore name) (zoneNum name) (grantSlot grant)).st = .reserved ∨
      (s.zoneSlot (zoneCore name) (zoneNum name) (grantSlot grant)).st = .filling) :
    exec (.senderAbort m) s = .next (endTurn (.msg m) (poisonSlot (zoneCore name) (zoneNum name) (grantSlot grant)
      (s.zoneSlot (zoneCore name) (zoneNum name) (grantSlot grant)) (s.drop m))) := by
  show execSenderAbort m s = _
  simp only [execSenderAbort, hm, ha, Bool.not_true, Bool.false_eq_true, if_false, zoneTurn_of_idle hidle]
  exact congrArg _ (if_pos (by simpa [hf] using hst))

end Sys2Proof.Machine
end

section
/-! The end of a landing send (R127, R139, R140, R154, R391). -/

namespace Sys2Proof.Machine

open Sys2Proof.Safety

/-! ## Tables -/

/-- A write keeps the keys rising. -/
theorem rising_tabPut {α : Type} {t : Tab α} (h : Rising t) (k : Nat) (v : α) : Rising (tabPut t k v) := by
  induction t with
  | nil => exact List.pairwise_singleton _ _
  | cons p t ih =>
    obtain ⟨a, w⟩ := p
    obtain ⟨hp, ht⟩ := List.pairwise_cons.1 h
    unfold tabPut
    split
    · subst k
      exact List.pairwise_cons.2 ⟨hp, ht⟩
    · split
      · refine List.pairwise_cons.2 ⟨fun q hq => ?_, h⟩
        rcases List.mem_cons.1 hq with rfl | hq
        · assumption
        · exact Nat.lt_trans ‹k < a› (hp q hq)
      · refine List.pairwise_cons.2 ⟨fun q hq => ?_, ih ht⟩
        rcases mem_tabPut hq with rfl | hq
        · show a < k
          omega
        · exact hp q hq

/-- In a table with rising keys what is removed is gone. -/
theorem tabFind_tabDel_self {α : Type} {t : Tab α} (h : Rising t) (k : Nat) : tabFind (tabDel t k) k = none := by
  induction t with
  | nil => rfl
  | cons p t ih =>
    obtain ⟨a, w⟩ := p
    obtain ⟨hp, ht⟩ := List.pairwise_cons.1 h
    unfold tabDel
    split
    · subst k
      cases t with
      | nil => rfl
      | cons q t =>
        have hq : a < q.1 := hp q List.mem_cons_self
        have hne : a ≠ q.1 := by omega
        simp [tabFind, hne, hq]
    · split
      · simp [tabFind, *]
      · simp [tabFind, *, ih ht]

/-- Where the same is done to every entry, it is done to the one that is found. -/
theorem tabFind_map {α β : Type} (f : α → β) (t : Tab α) (k : Nat) :
    tabFind (t.map fun p => (p.1, f p.2)) k = (tabFind t k).map f := by
  induction t with
  | nil => rfl
  | cons p t ih =>
    simp only [List.map_cons, tabFind, ih]
    repeat' split
    all_goals rfl

/-! ## Retirement of a copy -/

/-- No saved context lists the copy as under way. -/
def NoContext (id : Nat) (s : State) : Prop := ∀ q ∈ s.clusters, ∀ x ∈ q.2.contexts, id ∉ x.2.unretired

theorem findContext_none {id : Nat} {s : State} (h : NoContext id s) : findContext s (fun sl => sl.unretired.contains id) = none := by
  refine List.findSome?_eq_none_iff.2 fun q hq => ?_
  rw [Option.map_eq_none_iff, List.find?_eq_none]
  intro x hx
  simpa using h q hq x hx

/-- The slot without a copy that has retired. -/
def dropUnretired (id : Nat) (sl : Slot) : Slot := { sl with unretired := sl.unretired.filter fun q => q != id }

/-- The core without a copy that has retired. -/
def dropRanges (id : Nat) (x : Core) : Core := { x with
  scoreboard := x.scoreboard.filter fun r => r.copy != id
  busyTiles := x.busyTiles.filter fun p => p.2 != id }

/-- The state in which a copy is listed nowhere but in saved contexts. -/
def withoutCopy (id : Nat) (c : Copy) (s : State) : State :=
  let s := s.modCore (slotCore c.slot) (dropRanges id)
  let s := s.modEngine (coreDie (slotCore c.slot)) c.engine fun e => { e with queue := e.queue.filter fun q => q != id }
  { s with copies := tabDel s.copies id, slots := s.slots.map fun p => (p.1, dropUnretired id p.2) }

theorem forgetCopy_eq {id : Nat} (c : Copy) {s : State} (h : NoContext id s) : forgetCopy id c s = withoutCopy id c s := by
  have hn : findContext (withoutCopy id c s) (fun sl => sl.unretired.contains id) = none := findContext_none h
  unfold forgetCopy
  dsimp only
  split
  · rename_i e
    exact nomatch hn.symm.trans e
  · rfl

/-- Forgetting a copy changes no timeline and nothing that pends at a slot. -/
theorem withoutCopy_slot (id : Nat) (c : Copy) (s : State) (k : Nat) :
    ((withoutCopy id c s).slot k).pending = (s.slot k).pending := by
  show (tabGet (s.slots.map fun p => (p.1, dropUnretired id p.2)) k {}).pending = _
  rw [tabGet, tabFind_map, State.slot, tabGet]
  cases tabFind s.slots k <;> rfl

theorem withoutCopy_core (id : Nat) (c : Copy) (s : State) :
    ((withoutCopy id c s).core (slotCore c.slot)).tl c.req.ctx = (s.core (slotCore c.slot)).tl c.req.ctx ∧
    ((withoutCopy id c s).core (slotCore c.slot)).tlerr = (s.core (slotCore c.slot)).tlerr := by
  have h : (withoutCopy id c s).core (slotCore c.slot) = dropRanges id (s.core (slotCore c.slot)) :=
    State.modCore_core s (slotCore c.slot) (dropRanges id)
  rw [h]
  exact ⟨rfl, rfl⟩

/-- A trap, if there is one, pends at a slot. -/
def withTrap (k : Nat) (f : Option Trap) (s : State) : State :=
  match f with
  | some t => pendTrap k t s
  | none => s

theorem withTrap_frame (k : Nat) (f : Option Trap) (s : State) : SameMemory s (withTrap k f s) ∧
    (withTrap k f s).copies = s.copies ∧ ∀ c, (withTrap k f s).core c = s.core c := by
  cases f <;> exact ⟨⟨rfl, rfl, rfl⟩, rfl, fun _ => rfl⟩

theorem withTrap_pending (k : Nat) (f : Option Trap) (s : State) :
    ((withTrap k f s).slot k).pending = (s.slot k).pending ++ f.toList := by
  cases f <;> simp [withTrap, pendTrap]

/-- A copy of one running thread that nothing holds up: no object, no status word, no FENCE, no held word. -/
structure UnderWay (s : State) (id : Nat) (c : Copy) (k : Nat) (sl : Slot) : Prop where
  copies : Rising s.copies
  slots : Rising s.slots
  found : tabFind s.copies id = some c
  bar : c.bar = 0
  status : c.w 7 = 0
  listed : (k, sl) ∈ s.slots
  mine : id ∈ sl.unretired
  only : ∀ q ∈ s.slots, id ∈ q.2.unretired → q = (k, sl)
  idle : Idle s
  contexts : NoContext id s
  after : c.after ≤ (s.core (slotCore c.slot)).tl c.req.ctx

theorem UnderWay.drop {s : State} {id : Nat} {c : Copy} {k : Nat} {sl : Slot} (h : UnderWay s id c k sl) (m : Nat) :
    UnderWay (s.drop m) id c k sl :=
  ⟨h.copies, h.slots, h.found, h.bar, h.status, h.listed, h.mine, h.only, h.idle, h.contexts, h.after⟩

section UnderWay
variable {s : State} {id : Nat} {c : Copy} {k : Nat} {sl : Slot} (h : UnderWay s id c k sl)
include h

/-- Its trap is its thread's. -/
theorem copyTrap_of_underWay (d : Copy) (t : Trap) : copyTrap id d t s = pendTrap k t s := by
  have hf : s.slots.find? (fun p => p.2.unretired.contains id) = some (k, sl) := by
    obtain ⟨q, hq⟩ := Option.isSome_iff_exists.1 (List.find?_isSome (p := fun p : Nat × Slot => p.2.unretired.contains id).2
      ⟨(k, sl), h.listed, by simpa using h.mine⟩)
    rw [hq, h.only q (List.mem_of_find?_eq_some hq) (by simpa using List.find?_some hq)]
  simp only [copyTrap, hf]

/-- With a CODE it retires: its trap pends at its thread, it is listed nowhere any more, and its number is counted. -/
theorem retireCopy_of_underWay {code : Nat} (hcode : c.code = some code) : retireCopy id s =
    retireNumber (slotCore c.slot) c.req.ctx c.number (code == 0) (withoutCopy id c (withTrap k c.trap s)) := by
  have hw : writeStatus id c code s = .inr (code, c.trap, s) := by
    unfold writeStatus
    exact if_pos (.inr (.inl h.status))
  have hf : finishBar c code s = s := if_pos (.inl h.bar)
  simp only [retireCopy, h.found, hcode, if_neg (Nat.not_lt.2 h.after), barBusy_of_idle h.idle, hw, hf]
  cases c.trap with
  | none => simp only [withTrap, endTurn_of_idle h.idle, forgetCopy_eq c h.contexts]
  | some t =>
    have hidle : Idle (pendTrap k t s) := h.idle
    have hctx : NoContext id (pendTrap k t s) := h.contexts
    simp only [withTrap, copyTrap_of_underWay h, endTurn_of_idle hidle, forgetCopy_eq c hctx]

/-- The copy with its CODE and its trap. -/
def Copy.ended (c : Copy) (code : Nat) (f : Option Trap) : Copy := { c with code := some code, trap := f.map c.trapOf }

theorem endCopy_eq (code : Nat) (f : Option Trap) :
    endCopy id code f s = { s with copies := tabPut s.copies id (c.ended code f) } := by
  simp only [endCopy, State.modCopy, h.found]
  rfl

theorem UnderWay.ended (code : Nat) (f : Option Trap) : UnderWay (endCopy id code f s) id (c.ended code f) k sl := by
  rw [endCopy_eq h]
  exact ⟨rising_tabPut h.copies id _, h.slots, tabFind_tabPut_self _ _ _, h.bar, h.status, h.listed, h.mine, h.only, h.idle,
    h.contexts, h.after⟩

/-- It retires with its CODE: it is forgotten, its trap pends at its thread, and its number is counted. -/
theorem ended_retires (code : Nat) (f : Option Trap) :
    SameMemory s (retireCopy id (endCopy id code f s)) ∧ tabFind (retireCopy id (endCopy id code f s)).copies id = none ∧
    ((retireCopy id (endCopy id code f s)).slot k).pending = sl.pending ++ (f.map c.trapOf).toList ∧
    ((retireCopy id (endCopy id code f s)).core (slotCore c.slot)).tlerr = (if (code == 0) = true then (s.core (slotCore c.slot)).tlerr
      else (s.core (slotCore c.slot)).tlerr ||| BitVec.ofNat 64 (2 ^ c.req.ctx)) ∧
    (c.number = (s.core (slotCore c.slot)).tl c.req.ctx + 1 →
      c.number ≤ ((retireCopy id (endCopy id code f s)).core (slotCore c.slot)).tl c.req.ctx) := by
  have he := h.ended code f
  have heq := endCopy_eq h code f
  have hr := retireCopy_of_underWay he (code := code) rfl
  generalize endCopy id code f s = v at he heq hr
  have hsame : SameMemory s v := by rw [heq]; exact ⟨rfl, rfl, rfl⟩
  have hcore (n : Nat) : v.core n = s.core n := by rw [heq]; rfl
  have hslot : v.slot k = sl := by simp only [State.slot, tabGet, tabFind_of_mem he.slots he.listed, Option.getD_some]
  obtain ⟨hmem, hcopies, hcores⟩ := withTrap_frame k (c.ended code f).trap v
  obtain ⟨htl, herr⟩ := withoutCopy_core id (c.ended code f) (withTrap k (c.ended code f).trap v)
  rw [hcores, hcore] at htl herr
  rw [hr]
  refine ⟨sameMemory_trans hsame hmem, ?_, ?_, ?_, fun hn => retireNumber_counts _ (hn.trans (congrArg (· + 1) htl.symm))⟩
  · show tabFind (tabDel (withTrap k (c.ended code f).trap v).copies id) id = none
    rw [hcopies]
    exact tabFind_tabDel_self he.copies id
  · refine (withoutCopy_slot id (c.ended code f) _ k).trans ?_
    rw [withTrap_pending, hslot]
    rfl
  · refine (retireNumber_tlerr _ _ _ _ _).trans ?_
    rw [herr]
    rfl

end UnderWay

/-- An acknowledgement ends a send that is under way; a refusal ends it as a landing failure (R154). -/
theorem exec_landingSendRetire {s : State} {m id : Nat} {c : Copy} {ok : Bool} (hm : tabFind s.net m = some (.landAck id ok))
    (hc : tabFind s.copies id = some c) (hcode : c.code = none) : exec (.landingSendRetire m) s = .next (retireCopy id
      (endCopy id (if ok then 0 else 6) (if ok then none else some (landingFault (c.w 1) 7 (zoneModule (c.w 1)))) (s.drop m))) := by
  have hd : tabFind (s.drop m).copies id = some c := hc
  show execLandingSendRetire m s = _
  simp only [execLandingSendRetire, hm, hd, hcode, Option.isSome_none, Bool.false_eq_true, if_false]
  cases ok <;> rfl

/-- FAB.TMO after its last packet a send that nothing has acknowledged ends as a landing failure (R154). -/
theorem exec_landingAckTimeout {s : State} {id e : Nat} {c : Copy} (hc : tabFind s.copies id = some c) (hland : c.req.land = true)
    (hacc : c.accepted = true) (hcode : c.code = none) (hsent : c.sentAt = some e) (hlate : e + fabTimeout s (slotCore c.slot) ≤ s.now) :
    exec (.landingAckTimeout id) s =
      .next (retireCopy id (endCopy id 6 (some (landingFault (c.w 1) 0xD (zoneModule (c.w 1)))) s)) := by
  show execLandingAckTimeout id s = _
  simp only [execLandingAckTimeout, hc, hsent]
  exact congrArg _ (if_pos ⟨hland, hacc, hcode, .inl (decide_eq_true hlate)⟩)

/-- LANDING FAILURE of a send, in numbers (R33, R391). -/
theorem trapOf_landingFault (c : Copy) (reason : Nat) : (c.trapOf (landingFault (c.w 1) reason (zoneModule (c.w 1)))).info =
    reason + 1024 + c.w 1 % 2 ^ 13 * 65536 := by
  simp [Copy.trapOf, landingFault, addrInfo, bitField, zoneModule, fld, Nat.add_assoc]

/-- A send under way that ends as a landing failure. -/
theorem landing_fails {s : State} {id k : Nat} {c : Copy} {sl : Slot} (h : UnderWay s id c k sl) (reason : Nat) :
    let t := retireCopy id (endCopy id 6 (some (landingFault (c.w 1) reason (zoneModule (c.w 1)))) s)
    SameMemory s t ∧ tabFind t.copies id = none ∧
      (t.core (slotCore c.slot)).tlerr = (s.core (slotCore c.slot)).tlerr ||| BitVec.ofNat 64 (2 ^ c.req.ctx) ∧
      ∃ f, (t.slot k).pending = sl.pending ++ [f] ∧ f.cause = 0x0F ∧ f.origin = 2 ∧ f.addr = c.w 1 ∧ f.seq = c.number ∧
        f.info = reason + 1024 + c.w 1 % 2 ^ 13 * 65536 := by
  obtain ⟨hmem, hgone, hpend, herr, -⟩ := ended_retires h 6 (some (landingFault (c.w 1) reason (zoneModule (c.w 1))))
  exact ⟨hmem, hgone, herr, _, hpend, rfl, rfl, rfl, rfl, trapOf_landingFault c reason⟩

/-- A packet is refused or fills its slot. -/
theorem packet_settles {s : State} {m copy sender name grant total off : Nat} {bytes : List (Byte × Bool)} (hinv : MemInv s)
    (hm : tabFind s.net m = some (.landing copy sender name grant total off bytes)) (ha : arrives s m (zoneModule name) = true)
    (hidle : Idle s) (hu : ∀ c, tabFind s.copies copy = some c → c.tagged = false) :
    let x := s.zoneSlot (zoneCore name) (zoneNum name) (grantSlot grant)
    ∃ t, exec (.landingPacket m) s = .next t ∧
      (¬PacketFits x copy sender name grant total → SameMemory s t ∧ tabFind t.net s.nextId = some (.landAck copy false)) ∧
      (PacketFits x copy sender name grant total → total ≠ 0 → x.bar = 0 →
        t.zoneSlot (zoneCore name) (zoneNum name) (grantSlot grant) = { x with
          st := .filling, send := copy, landed := x.landed + bytes.length
          timer := zoneTimer s (tabGet (s.core (zoneCore name)).zdesc (zoneNum name) 0#64).toNat } ∧
        MemoryBut s t (x.base + off) bytes.length ∧ ∀ i b, bytes[i]? = some b → t.byte (x.base + off + i) = b.1) := by
  intro x
  by_cases hx : PacketFits x copy sender name grant total
  · by_cases ht : total = 0
    · exact ⟨_, rfl, fun h => absurd hx h, fun _ h => absurd ht h⟩
    · refine ⟨_, landingPacket_fills hm ha hidle hx ht, fun h => absurd hx h, fun _ _ hbar => ?_⟩
      have hun : Untagged copy (s.drop m) := by
        intro h
        obtain ⟨c, hc, ht⟩ := Option.map_eq_some_iff.1 h
        rw [hu c hc] at ht
        cases ht
      obtain ⟨hi, hfill⟩ := fillSlot_fills (s := s.drop m) (core := zoneCore name) (z := zoneNum name) (n := grantSlot grant) (off := off)
        (bytes := bytes) hinv ((around_drop s m).idle hidle) hbar hun
      rw [endTurn_of_idle hi]
      exact hfill
  · exact ⟨_, landingPacket_refused hm ha hidle hx, fun _ => ⟨⟨rfl, rfl, rfl⟩, tabFind_tabPut_self _ _ _⟩, fun h => absurd h hx⟩

/-- Settles O33: a packet by whether it fits its slot, the other events of a slot by its stamp, and the ends of a send by how a
copy under way retires; a turn that nobody holds ends with nothing. -/
theorem zonesFill : Obligations.ZonesFill := by
  unfold Obligations.ZonesFill
  refine ⟨⟨fun s m copy sender name grant total off bytes hinv hm ha hidle hu => packet_settles hinv hm ha hidle hu,
    fun s core z n hinv hz hidle hst hb => ?_, fun s core z n hinv hz hidle hst hbar hd => ?_,
    fun s m copy sender name grant hinv hm ha hidle hf hst hbar => ?_⟩,
    fun s id c k sl hrc hrs hc hland hcode hacc hbar hstat hlist hmine honly hidle hctx hafter => ?_⟩
  · obtain ⟨hi, hl⟩ := landSlot_lands core z n (s.zoneSlot core z n).send (s.zoneSlot core z n) hinv hidle
    exact ⟨_, (exec_slotLanded hz hidle hst hb).trans (congrArg Host.Outcome.next (endTurn_of_idle hi _)), hl⟩
  · obtain ⟨hi, hp⟩ := poisonSlot_poisons core z n hbar hinv hidle
    exact ⟨_, (exec_zoneSlotTimeout hz hidle hst hd).trans (congrArg Host.Outcome.next (endTurn_of_idle hi _)), hp⟩
  · obtain ⟨hi, hslot, hword, hbut, -⟩ := poisonSlot_poisons (s := s.drop m) (zoneCore name) (zoneNum name) (grantSlot grant) hbar hinv
      ((around_drop s m).idle hidle)
    exact ⟨_, (exec_senderAbort hm ha hidle hf hst).trans (congrArg Host.Outcome.next (endTurn_of_idle hi _)), hslot, hword, hbut⟩
  · have h : UnderWay s id c k sl := ⟨hrc, hrs, hc, hbar, hstat, hlist, hmine, honly, hidle, hctx, hafter⟩
    refine ⟨fun m hm => ?_, fun m hm => ⟨_, exec_landingSendRetire hm hc hcode, landing_fails (h.drop m) 7⟩,
      fun e he hl => ⟨_, exec_landingAckTimeout hc hland hacc hcode he hl, landing_fails h 0xD⟩⟩
    obtain ⟨hmem, hgone, hpend, -, hcount⟩ := ended_retires (h.drop m) 0 none
    exact ⟨_, exec_landingSendRetire hm hc hcode, hmem, hgone, hpend.trans (List.append_nil _), hcount⟩

end Sys2Proof.Machine
end
